-- ==== Sys2Proof/Word.lean ====
section
/-!
DEFINITION. The widths of the machine's words: a scalar register, a vector register, a mask and a byte (R7, R41).
-/
namespace Sys2Proof

/-- A scalar register or a memory word (R41, R211). -/
abbrev Word := BitVec 64

/-- A vector register (R41). -/
abbrev Vec := BitVec 1024

/-- A mask register (R41). -/
abbrev Mask := BitVec 128

/-- A byte of memory (R11). -/
abbrev Byte := BitVec 8

end Sys2Proof
end

