-- ==== Sys2Proof/Machine/Bits.lean ====
section
/-!
DEFINITION. Bit fields, extensions and byte order (R11, R40), written once.
-/
/-- Bits lo to lo + n - 1 of a bit vector, as a number. -/
def BitVec.field {w : Nat} (x : BitVec w) (lo n : Nat) : Nat := x.toNat / 2 ^ lo % 2 ^ n

/-- Bit lo of a bit vector. -/
def BitVec.bit {w : Nat} (x : BitVec w) (lo : Nat) : Bool := x.getLsbD lo

namespace Sys2Proof.Machine

/-- Bits lo to lo + n - 1 of a number. -/
def field (x lo n : Nat) : Nat := x / 2 ^ lo % 2 ^ n

/-- `zext` of R40 for a number given as bits. -/
def zext (v n : Nat) : Word := BitVec.ofNat 64 (v % 2 ^ n)

/-- The signed value of the low n bits of v. -/
def signed (v n : Nat) : Int :=
  let u := v % 2 ^ n
  if 2 * u < 2 ^ n then (u : Int) else (u : Int) - 2 ^ n

/-- `sext` of R40: the low n bits of v, sign-extended to 64 bits. -/
def sext (v n : Nat) : Word := BitVec.ofInt 64 (signed v n)

/-- The number that bytes stand for, lowest address first (R11). -/
def bytesToNat : List Byte → Nat
  | [] => 0
  | b :: r => b.toNat + 256 * bytesToNat r

/-- The low n bytes of a number, lowest address first (R11). -/
def natToBytes : Nat → Nat → List Byte
  | 0, _ => []
  | n + 1, v => BitVec.ofNat 8 v :: natToBytes n (v / 256)

/-- A word's eight bytes. -/
def wordBytes (w : Word) : List Byte := natToBytes 8 w.toNat

/-- The words that bytes stand for. -/
def bytesToWords : Nat → List Byte → List Word
  | 0, _ => []
  | n + 1, b => BitVec.ofNat 64 (bytesToNat (b.take 8)) :: bytesToWords n (b.drop 8)

/-- The numbers lo, lo + 1, … of a run of n. -/
def run (lo n : Nat) : List Nat := (List.range n).map (lo + ·)

/-- Entry k of a list of words, 0 past its end. -/
def wordAt (l : List Word) (k : Nat) : Word := l.getD k 0

/-- Replace the value under a key, or add it. -/
def assocSet {α β : Type} [DecidableEq α] (l : List (α × β)) (k : α) (v : β) : List (α × β) :=
  match l with
  | [] => [(k, v)]
  | (j, w) :: r => if j = k then (k, v) :: r else (j, w) :: assocSet r k v

/-- The value under a key. -/
def assocGet {α β : Type} [DecidableEq α] (l : List (α × β)) (k : α) : Option β :=
  match l with
  | [] => none
  | (j, w) :: r => if j = k then some w else assocGet r k

/-- The first element that meets p, and the list without it. -/
def takeFirst {α : Type} (p : α → Bool) : List α → Option (α × List α)
  | [] => none
  | x :: r => if p x then some (x, r) else (takeFirst p r).map (fun y => (y.1, x :: y.2))

/-- The list with f applied to the first element that meets p. -/
def mapFirst {α : Type} (p : α → Bool) (f : α → α) : List α → List α
  | [] => []
  | x :: r => if p x then f x :: r else x :: mapFirst p f r

/-- The least number of a list, or the default. -/
def leastOr (d : Nat) : List Nat → Nat
  | [] => d
  | x :: r => min x (leastOr x r)

/-- Insert a number into a rising list without repeats. -/
def insertSorted (a : Nat) : List Nat → List Nat
  | [] => [a]
  | b :: r => if a < b then a :: b :: r else if a = b then b :: r else b :: insertSorted a r

/-- Floor of the binary logarithm, 0 for 0. -/
def log2 (n : Nat) : Nat := Nat.log2 n

/-- A number is a power of two. -/
def isPow2 (n : Nat) : Bool := n != 0 && 2 ^ Nat.log2 n == n

/-- The value capped at hi. -/
def capAt (hi v : Nat) : Nat := min hi v

end Sys2Proof.Machine
end

