-- ==== Sys2Proof/Config.lean ====
section
/-!
DEFINITION. What an implementation fixes, and the free values: constants with no body stand for what the spec
leaves open, so that no proof can see a value of them.
-/
namespace Sys2Proof.Config

/-- Which of a seat's earlier register files an undefined start value is taken from (R14, DESIGN CHOICE log 3). -/
opaque pick : Nat → Nat → Nat

/-- Which entry of a mixed contiguous group translates an access (R420, DESIGN CHOICE log 13). -/
opaque groupEntry : Nat → Nat

/-- The key and debug credential an on-die generator makes for a sealed VF (R480, DESIGN CHOICE log 14). -/
opaque freshKey : Nat → Nat

/-- What a read of a sealed function's memory without its credential returns (R481, R482, DESIGN CHOICE log 14). -/
opaque ciphertext : Nat → Nat → List (BitVec 8) → Nat → BitVec 8

/-- The signature over measurements by the device key (R486, DESIGN CHOICE log 15). -/
opaque signature : Nat → Nat

/-- Whether a die's power budget, under the package's cap, has room to raise a clock (R394, R486, DESIGN CHOICE log 26). -/
opaque powerRoom : Nat → Nat → Bool

/-- A value the spec leaves open, by what it is a value of and fresh at each use: 0 a scrubbed word that was poisoned (R463, DESIGN
CHOICE DESIGN CHOICE log 46), 1 to 24 the port and stream counts of telemetry (R445, DESIGN CHOICE log 44). -/
opaque freeWord : Nat → Nat → BitVec 64

/-- A byte of a save area whose layout the spec does not give, fresh at each save (R410, DESIGN CHOICE log 32). -/
opaque saveByte : Nat → Nat → BitVec 8

/-- The vendor credential (R480, R481, DESIGN CHOICE log 14). -/
opaque vendorCredential : Nat

/-- Measurements of the package: 0 the boot ROM version, 1 the firmware digest (R486, DESIGN CHOICE log 15). -/
opaque measurement : Nat → BitVec 64

/-- The digest of a repair map (R486, DESIGN CHOICE log 15). -/
opaque repairDigest : List (Nat × Option Nat) → BitVec 64

end Sys2Proof.Config
end

