-- ==== Sys2Proof/Machine/Formats.lean ====
section
/-!
DEFINITION. The vector format codes (R133), the fat-pointer format codes (R48), and the checks of instruction
fields that R87 step 3 makes (R90 to R99, R134, R150, and the entries of single instructions).
-/
namespace Sys2Proof.Machine

/-- Bits of a lane in vector format fmt (R133). -/
def fmtBits (fmt : Nat) : Nat :=
  match fmt with
  | 0 | 1 | 11 | 12 => 8
  | 2 | 3 | 8 | 9 | 14 => 16
  | 4 | 5 | 10 => 32
  | 6 | 7 => 64
  | 13 => 4
  | _ => 8

/-- Lanes of a vector register in format fmt: `elems` of R40. -/
def elems (fmt : Nat) : Nat := 1024 / fmtBits fmt

/-- A floating-point vector format code 7 to 13 (R133). -/
def isFloat (fmt : Nat) : Bool := 7 ≤ fmt && fmt ≤ 13

/-- An integer vector format whose lanes are signed: I8, I16, I32, I64 (R133). -/
def isSigned (fmt : Nat) : Bool := fmt == 0 || fmt == 2 || fmt == 4 || fmt == 6

/-- Element bits of a fat-pointer format code (R48); a CB16 word is 16 bits. -/
def codeBits (code : Nat) : Nat :=
  match code with
  | 0x00 | 0x01 | 0x02 | 0x0D | 0x0E | 0x11 | 0x12 | 0x13 | 0x16 => 8
  | 0x03 | 0x04 | 0x09 | 0x0A | 0x10 | 0x15 => 16
  | 0x05 | 0x06 | 0x0B => 32
  | 0x07 | 0x08 | 0x0C => 64
  | 0x0F | 0x14 => 4
  | _ => 8

/-- A fat-pointer format code whose elements are blocked (R48). -/
def codeBlocked (code : Nat) : Bool := 0x12 ≤ code && code ≤ 0x16

/-- A fat-pointer format code that is not reserved (R48). -/
def codeKnown (code : Nat) : Bool := code ≤ 0x16

/-- The core index names a compute core (R2) or, from 2,048 on, a hall core d.k at 2,048 + 4d + k (R4). -/
def coreExists (c : Nat) : Bool := c < 2064

/-- A core has four seats (R7). -/
def seatExists (k : Nat) : Bool := k < 4

/-- fmt lies in a list that is a range. -/
def fmtIn (fmt : BitVec 4) (lo hi : Nat) : Bool := lo ≤ fmt.toNat && fmt.toNat ≤ hi

/-- rnd 7 is illegal (R30). -/
def roundOk (rnd : BitVec 3) : Bool := rnd != 7

/-- CMP's condition codes 0 to 5 (R91, R120). -/
def compareCodeOk (k : BitVec 3) : Bool := k.toNat ≤ 5

/-- SEXT and ZEXT take widths 8, 16 and 32 (R121). -/
def extendWidthOk (w : BitVec 2) : Bool := w != 3

/-- The length a len field stands for: 0 means 64 (R122). -/
def fieldLength (len : BitVec 6) : Nat := if len = 0 then 64 else len.toNat

/-- pos + len is at most 64 (R122). -/
def bitFieldOk (pos len : BitVec 6) : Bool := pos.toNat + fieldLength len ≤ 64

/-- FCVT's codes: 4 to 10, different, and not both integer (R131). -/
def scalarConvertOk (dst src : BitVec 4) : Bool :=
  fmtIn dst 4 10 && fmtIn src 4 10 && dst != src && (7 ≤ dst.toNat || 7 ≤ src.toNat)

/-- LD's selectors 0 to 6 (R92). -/
def loadWidthOk (w : BitVec 3) : Bool := w != 7

/-- LSAMO's operations 0 to 10; only CAS has a third operand (R92, R93). -/
def ownerAtomicOk (op : BitVec 4) (e : BitVec 6) : Bool := op.toNat ≤ 10 && (op == 5 || e == 0)

/-- A format 0 to 10, with rnd 0 for an integer format (R94, R95, R134). -/
def laneArithOk (fmt : BitVec 4) (rnd : BitVec 3) : Bool :=
  fmtIn fmt 0 10 && roundOk rnd && (7 ≤ fmt.toNat || rnd == 0)

/-- VABS and VNEG: the signed and float formats; sat only for an integer format (R95, R134). -/
def laneSignOk (fmt : BitVec 4) (sat : Bool) : Bool :=
  (isSigned fmt.toNat || fmtIn fmt 7 10) && (isSigned fmt.toNat || !sat)

/-- VCMP: format 0 to 10, conditions 0 to 6, UN for floats only (R95). -/
def laneCompareOk (fmt : BitVec 4) (k : BitVec 3) : Bool :=
  fmtIn fmt 0 10 && k.toNat ≤ 6 && (k != 6 || 7 ≤ fmt.toNat)

/-- SUM takes rounding as VADD does, the other selectors none (R134). -/
def foldRoundOk (fmt : BitVec 4) (rnd : BitVec 3) (sat sum : Bool) : Bool :=
  if sum then laneArithOk fmt rnd else fmtIn fmt 0 10 && rnd == 0 && !sat

/-- VRED: SUM, MAX, MIN for formats 0 to 10, AND and OR for 0 to 6 (R95, R134). -/
def reduceOk (fmt : BitVec 4) (rnd : BitVec 3) (sat : Bool) (op : BitVec 3) : Bool :=
  op.toNat ≤ 4 && (op.toNat ≤ 2 || fmt.toNat ≤ 6) && foldRoundOk fmt rnd sat (op == 0)

/-- VSCAN: SUM, MAX, MIN for formats 0 to 10 (R95, R134). -/
def scanOk (fmt : BitVec 4) (rnd : BitVec 3) (sat : Bool) (op : BitVec 2) : Bool :=
  op.toNat ≤ 2 && foldRoundOk fmt rnd sat (op == 0)

/-- VCVT: two different formats 0 to 14 and a part below their width ratio (R160). -/
def laneConvertOk (dst src : BitVec 4) (part : BitVec 4) : Bool :=
  let wd := fmtBits dst.toNat
  let ws := fmtBits src.toNat
  dst != 15 && src != 15 && dst != src && part.toNat < max ws wd / min ws wd

/-- VQNT and VDQNT: element format 0, 11, 12 or 13, wide format 9 or 10, blog 1 to 7, a block that fits (R162, R163). -/
def quantiseOk (efmt wide blog : BitVec 4) : Bool :=
  (efmt == 0 || fmtIn efmt 11 13) && fmtIn wide 9 10 && 1 ≤ blog.toNat && blog.toNat ≤ 7 &&
    2 ^ blog.toNat ≤ elems wide.toNat

/-- VQNT and VDQNT round by rnd, which is 0 with I8 elements (R94, R150). -/
def quantiseRoundOk (efmt : BitVec 4) (rnd : BitVec 3) : Bool := roundOk rnd && (7 ≤ efmt.toNat || rnd == 0)

/-- VCBDEC: output 8, 9 or 10, and the words lie in the register (R96, R164). -/
def codebookDecodeOk (ofmt : BitVec 4) (w : BitVec 6) : Bool :=
  fmtIn ofmt 8 10 && w.toNat + elems ofmt.toNat / 8 ≤ 64

/-- MMA's formats (R97). -/
def matrixFmtOk (fmt : BitVec 4) : Bool := fmt == 0 || fmtIn fmt 8 9 || fmtIn fmt 11 14

/-- MMAG's width exponent 0 to 5 (R97). -/
def gangWidthOk (wc : BitVec 3) : Bool := wc.toNat ≤ 5

/-- SEND's payload: 0 to 5 registers that exist, none named for an empty one (R258). -/
def payloadOk (b : BitVec 6) (n : BitVec 4) : Bool :=
  n.toNat ≤ 5 && (if n == 0 then b == 0 else b.toNat + n.toNat ≤ 64)

/-- BQAMO's operations (R99, R261). -/
def streamerOpOk (op : BitVec 4) : Bool := op.toNat ≤ 7 && op != 5

/-- FENCE's scopes; a rectangle register with scope RECT only (R99, R267). -/
def fenceOk (scope : BitVec 3) (r : BitVec 6) : Bool := scope.toNat ≤ 5 && (scope == 2 || r == 0)

/-- MEET's operand: 1 to 4 registers that exist (R318). -/
def operandCountOk (b : BitVec 5) (n : BitVec 4) : Bool :=
  1 ≤ n.toNat && n.toNat ≤ 4 && b.toNat + n.toNat ≤ 32

/-- A number SYSR may name before the checks of step 4: 0x000 to 0x00B, or a hall number (R44, R87). -/
def readNumberOk (num : BitVec 10) : Bool := num.toNat ≤ 0x00B || 0x200 ≤ num.toNat

/-- A number SYSW may name before step 4: NF or RMODE, or a hall number; SEED has a row of its own (R44, R45). -/
def writeNumberOk (num : BitVec 10) : Bool := num == 7 || num == 8 || 0x200 ≤ num.toNat

/-- CAPR's numbers (R46). -/
def capabilityOk (num : BitVec 10) : Bool := num.toNat ≤ 6

/-- RFCFG: 1 to 16 words; an element type only for max, min and non-finite-OR (R270). -/
def raftersOk (op : BitVec 3) (ty : BitVec 2) (w : BitVec 5) : Bool :=
  1 ≤ w.toNat && w.toNat ≤ 16 && ty != 3 && (ty == 0 || op == 3 || op == 4 || op == 7)

end Sys2Proof.Machine
end

