-- ==== Sys2Proof/Machine/Float.lean ====
section
/-!
DEFINITION. Number formats and rounding: decoding of the floating-point formats (R56 to R60), exact results, rounding with
flags and saturation (R66 to R71, R504), and the operations with one rounding (R72, R74).
-/
namespace Sys2Proof.Machine

/-! ### Formats and values -/

/-- How a format uses its top exponent (R57, R59): infinities and NaNs, one NaN pattern, or finite values only. -/
inductive TopKind where
  | ieee
  | oneNan
  | finite
  deriving DecidableEq, Repr

/-- A floating-point format: exponent bits, fraction bits, bias (R56, R59). -/
structure FpFormat where
  ebits : Nat
  mbits : Nat
  bias : Nat
  top : TopKind
  deriving DecidableEq, Repr

def f64 : FpFormat := ⟨11, 52, 1023, .ieee⟩

def f32 : FpFormat := ⟨8, 23, 127, .ieee⟩

def f16 : FpFormat := ⟨5, 10, 15, .ieee⟩

def bf16 : FpFormat := ⟨8, 7, 127, .ieee⟩

def e4m3 : FpFormat := ⟨4, 3, 7, .oneNan⟩

def e5m2 : FpFormat := ⟨5, 2, 15, .ieee⟩

def e2m1 : FpFormat := ⟨2, 1, 1, .finite⟩

/-- The format of a vector format code 7 to 13 (R133). -/
def fpOf (code : Nat) : FpFormat :=
  match code with
  | 7 => f64
  | 8 => f16
  | 9 => bf16
  | 11 => e4m3
  | 12 => e5m2
  | 13 => e2m1
  | _ => f32

/-- Bits of a format. -/
def FpFormat.width (f : FpFormat) : Nat := 1 + f.ebits + f.mbits

/-- The exponent of the smallest normal. -/
def FpFormat.emin (f : FpFormat) : Int := 1 - (f.bias : Int)

/-- A decoded value: NaN with its signalling mark, an infinity, or sign × m × 2^e (R57, R59). -/
inductive Val where
  | nan (signalling : Bool)
  | inf (neg : Bool)
  | fin (neg : Bool) (m : Nat) (e : Int)
  deriving DecidableEq, Repr

/-- The value of a pattern (R56 to R60). -/
def decodeFp (f : FpFormat) (bits : Nat) : Val :=
  let neg := bits / 2 ^ (f.ebits + f.mbits) % 2 == 1
  let ex := bits / 2 ^ f.mbits % 2 ^ f.ebits
  let fr := bits % 2 ^ f.mbits
  if f.top = .ieee && ex == 2 ^ f.ebits - 1 then
    if fr = 0 then .inf neg else .nan (fr < 2 ^ (f.mbits - 1))
  else if f.top = .oneNan && ex == 2 ^ f.ebits - 1 && fr == 2 ^ f.mbits - 1 then .nan false
  else if ex = 0 then .fin neg fr (f.emin - f.mbits)
  else .fin neg (2 ^ f.mbits + fr) ((ex : Int) - f.bias - f.mbits)

/-- The sign bit at its place. -/
def FpFormat.signBit (f : FpFormat) (neg : Bool) : Nat := if neg then 2 ^ (f.ebits + f.mbits) else 0

/-- The canonical NaN of a format (R57, R59). -/
def FpFormat.nan (f : FpFormat) : Nat :=
  match f.top with
  | .ieee => if f.ebits = 5 && f.mbits == 2 then 0x7F else (2 ^ f.ebits - 1) * 2 ^ f.mbits + 2 ^ (f.mbits - 1)
  | .oneNan => 0x7F
  | .finite => 0

/-- The largest finite magnitude's pattern. -/
def FpFormat.max (f : FpFormat) : Nat :=
  match f.top with
  | .ieee => (2 ^ f.ebits - 1) * 2 ^ f.mbits - 1
  | .oneNan => 2 ^ (f.ebits + f.mbits) - 2
  | .finite => 2 ^ (f.ebits + f.mbits) - 1

/-- The infinity's pattern of a format that has one. -/
def FpFormat.inf (f : FpFormat) : Nat := (2 ^ f.ebits - 1) * 2 ^ f.mbits

/-- An exact real result: sign × (m + δ) × 2^e, with δ strictly between 0 and 1 where `sticky` holds and 0 elsewhere.  e is
the last place that the operands form (R67, DEDUCED log 8). -/
structure Exact where
  neg : Bool
  m : Nat
  e : Int
  sticky : Bool
  deriving DecidableEq, Repr

/-- What an operation gives before it is settled: NaN, an infinity from an infinite operand, an infinity from finite operands
(R504), an infinite input of a conversion, or an exact real; each with the flags the operation itself sets (R71). -/
inductive Raw where
  | nan (invalid : Bool)
  | inf (neg : Bool)
  | infFinite (neg : Bool) (flags : BitVec 6)
  | infInput (neg : Bool)
  | real (x : Exact)
  deriving DecidableEq, Repr

/-- A settled result: its pattern, the flags it sets, and SEED afterwards. -/
structure FpOut where
  bits : Nat
  flags : BitVec 6
  seed : Word
  deriving DecidableEq, Repr

/-- The flags of R71. -/
def invalidFlag : BitVec 6 := 1

def divZeroFlag : BitVec 6 := 2

def overflowFlag : BitVec 6 := 4

def underflowFlag : BitVec 6 := 8

def inexactFlag : BitVec 6 := 16

def nonFiniteFlag : BitVec 6 := 32

/-- A flag where a condition holds. -/
def flagIf (c : Bool) (f : BitVec 6) : BitVec 6 := if c then f else 0

/-- How an instruction rounds: the mode after DYN is resolved, sat, and SEED (R40, R66). -/
structure RoundEnv where
  mode : Nat
  sat : Bool
  seed : Word
  deriving DecidableEq, Repr

/-- `mode(rnd)`: 6 is RMODE, where 6 and 7 act as RNE (R40). -/
def roundMode (rnd : BitVec 3) (rmode : BitVec 3) : Nat :=
  if rnd = 6 then (if rmode.toNat ≤ 5 then rmode.toNat else 0) else rnd.toNat

/-- One step of SEED (R67). -/
def seedStep (s : Word) : Word :=
  let s := s ^^^ (s <<< 13)
  let s := s ^^^ (s >>> 7)
  s ^^^ (s <<< 17)

/-! ### Rounding -/

/-- m × 2^e as a number of units 2^q, rounded down. -/
def unitsDown (m : Nat) (e q : Int) : Nat :=
  if q ≤ e then m * 2 ^ (e - q).toNat else m / 2 ^ (q - e).toNat

/-- The bits of m × 2^e below 2^q, as a number of units 2^e. -/
def bitsBelow (m : Nat) (e q : Int) : Nat := if q ≤ e then 0 else m % 2 ^ (q - e).toNat

/-- Whether the larger-magnitude neighbour on the grid 2^q is chosen (R66, R67); s is SEED after its step. -/
def roundsUp (mode : Nat) (x : Exact) (q : Int) (s : Word) : Bool :=
  let low := bitsBelow x.m x.e q
  let sh := (q - x.e).toNat
  let half := if sh = 0 then 0 else 2 ^ (sh - 1)
  let inexact := low != 0 || x.sticky
  match mode with
  | 0 => sh != 0 && (half < low || (low == half && (x.sticky || unitsDown x.m x.e q % 2 == 1)))
  | 1 => false
  | 2 => x.neg && inexact
  | 3 => !x.neg && inexact
  | 4 => sh != 0 && half ≤ low
  | _ =>
    let d := min 64 sh
    2 ^ d ≤ low / 2 ^ (sh - d) + s.toNat % 2 ^ d

/-- The number of units 2^q that x rounds to. -/
def roundTo (mode : Nat) (x : Exact) (q : Int) (s : Word) : Nat :=
  unitsDown x.m x.e q + (if roundsUp mode x q s then 1 else 0)

/-- The exponent of the leading bit of x; of the last place when m is 0. -/
def Exact.lead (x : Exact) : Int := x.e + (Nat.log2 x.m : Int)

/-- The pattern that settles an overflow (R68). -/
def overflowBits (f : FpFormat) (env : RoundEnv) (neg : Bool) : Nat :=
  let toMax := env.sat || env.mode == 1 || (env.mode == 2 && !neg) || (env.mode == 3 && neg)
  match f.top with
  | .ieee => f.signBit neg + (if toMax then f.max else f.inf)
  | .oneNan => if env.sat then f.signBit neg + f.max else f.nan
  | .finite => f.signBit neg + f.max

/-- `round` then `sat` of an exact real, with the flags of R71 (R66, R68).  `s` is SEED after its step. -/
def roundExact (f : FpFormat) (env : RoundEnv) (s : Word) (x : Exact) : Nat × BitVec 6 :=
  if x.m = 0 && !x.sticky then (f.signBit x.neg, 0)
  else
    let free := x.lead - f.mbits
    let q := max free (f.emin - f.mbits)
    let n := roundTo env.mode x q s
    let inexact := bitsBelow x.m x.e q != 0 || x.sticky
    let ex0 := (q + f.mbits + f.bias).toNat
    let pattern := ex0 * 2 ^ f.mbits + n - 2 ^ f.mbits
    if f.max < pattern then (overflowBits f env x.neg, overflowFlag ||| inexactFlag)
    else
      let nFree := roundTo env.mode x free s
      let tiny := unitsDown nFree free (f.emin - f.mbits) < 2 ^ f.mbits
      (f.signBit x.neg + pattern, flagIf inexact inexactFlag ||| flagIf (inexact && tiny) underflowFlag)

/-- A NaN delivered into a format (R68). -/
def settleNan (f : FpFormat) (sat invalid : Bool) : Nat × BitVec 6 :=
  match f.top with
  | .finite => (if sat then f.max else 0, invalidFlag)
  | _ => (f.nan, flagIf invalid invalidFlag)

/-- An infinite input of a conversion (R68, R504). -/
def settleInfInput (f : FpFormat) (sat neg : Bool) : Nat × BitVec 6 :=
  match f.top with
  | .ieee => (f.signBit neg + (if sat then f.max else f.inf), 0)
  | .oneNan => (if sat then f.signBit neg + f.max else f.nan, invalidFlag)
  | .finite => (f.signBit neg + f.max, invalidFlag)

/-- `cvt` of R40: round and saturate what an operation gave; RSR takes one SEED step whatever it is (R67). -/
def settleFp (f : FpFormat) (env : RoundEnv) (r : Raw) : FpOut :=
  let s := if env.mode = 5 then seedStep env.seed else env.seed
  let out : Nat × BitVec 6 := match r with
    | .nan invalid => settleNan f env.sat invalid
    | .inf neg => (f.signBit neg + f.inf, 0)
    | .infFinite neg flags => (f.signBit neg + (if env.sat then f.max else f.inf), flags)
    | .infInput neg => settleInfInput f env.sat neg
    | .real x => roundExact f env s x
  { bits := out.1, flags := out.2, seed := s }

/-- A value as the input of a conversion. -/
def Val.asInput : Val → Raw
  | .nan sig => .nan sig
  | .inf neg => .infInput neg
  | .fin neg m e => .real ⟨neg, m, e, false⟩

/-- An integer as the input of a conversion (R70). -/
def intInput (v : Int) : Raw := .real ⟨v < 0, v.natAbs, 0, false⟩

/-! ### Operations -/

/-- A value is a NaN. -/
def Val.isNan : Val → Bool
  | .nan _ => true
  | _ => false

/-- A value is a signalling NaN. -/
def Val.isSignalling : Val → Bool
  | .nan s => s
  | _ => false

/-- A value is a zero. -/
def Val.isZero : Val → Bool
  | .fin _ m _ => m == 0
  | _ => false

/-- The sign of a value; NaN counts as positive. -/
def Val.neg : Val → Bool
  | .nan _ => false
  | .inf n => n
  | .fin n _ _ => n

/-- The value with its sign flipped. -/
def Val.negate : Val → Val
  | .nan s => .nan s
  | .inf n => .inf !n
  | .fin n m e => .fin (!n) m e

/-- A finite magnitude in units 2^e. -/
def inUnits (m : Nat) (e q : Int) : Nat := m * 2 ^ (e - q).toNat

/-- The signed integer of a sign and magnitude. -/
def signedMag (neg : Bool) (m : Nat) : Int := if neg then -(m : Int) else m

/-- The exact sum of two finite values at their finer last place; a zero sum of nonzero values is +0, or −0 under RDN (R66).
The sum of two zeros of unlike sign, of which R66 says nothing, has the same sign, and that of two zeros of one sign keeps it
(PRESUMED log 22). -/
def sumExact (mode : Nat) (na : Bool) (ma : Nat) (ea : Int) (nb : Bool) (mb : Nat) (eb : Int) : Exact :=
  let q := min ea eb
  let v := signedMag na (inUnits ma ea q) + signedMag nb (inUnits mb eb q)
  if v = 0 then ⟨if na = nb then na else mode == 2, 0, q, false⟩ else ⟨v < 0, v.natAbs, q, false⟩

/-- a + b before rounding (R71, R72). -/
def fpAdd (mode : Nat) (a b : Val) : Raw :=
  match a, b with
  | .nan s, y => .nan (s || y.isSignalling)
  | x, .nan s => .nan (x.isSignalling || s)
  | .inf n, .inf k => if n = k then .inf n else .nan true
  | .inf n, .fin .. => .inf n
  | .fin .., .inf n => .inf n
  | .fin na ma ea, .fin nb mb eb => .real (sumExact mode na ma ea nb mb eb)

/-- a × b before rounding (R71, R72).  An exact zero has the XOR of the operands' signs (PRESUMED log 22). -/
def fpMul (a b : Val) : Raw :=
  match a, b with
  | .nan s, y => .nan (s || y.isSignalling)
  | x, .nan s => .nan (x.isSignalling || s)
  | .inf n, y => if y.isZero then .nan true else .inf (n != y.neg)
  | x, .inf n => if x.isZero then .nan true else .inf (x.neg != n)
  | .fin na ma ea, .fin nb mb eb => .real ⟨na != nb, ma * mb, ea + eb, false⟩

/-- a × b + c before its one rounding (R74); 0 × ∞ is invalid whatever c is (R140). -/
def fpFma (mode : Nat) (a b c : Val) : Raw :=
  match fpMul a b with
  | .nan inv => .nan (inv || c.isSignalling)
  | .inf n => fpAdd mode (.inf n) c
  | .real x => fpAdd mode (.fin x.neg x.m x.e) c
  | r => r

/-- How many bits a quotient or a root is formed to before it is rounded (DEDUCED log 8). -/
def wideBits : Nat := 192

/-- ma × 2^ea / (mb × 2^eb) to `wideBits` bits and a sticky mark. -/
def quotientExact (neg : Bool) (ma : Nat) (ea : Int) (mb : Nat) (eb : Int) : Exact :=
  let k := wideBits + Nat.log2 mb
  let n := ma * 2 ^ k
  ⟨neg, n / mb, ea - eb - k, n % mb != 0⟩

/-- a / b before rounding (R71, R128).  An exact zero has the XOR of the operands' signs (PRESUMED log 22). -/
def fpDiv (a b : Val) : Raw :=
  match a, b with
  | .nan s, y => .nan (s || y.isSignalling)
  | x, .nan s => .nan (x.isSignalling || s)
  | .inf _, .inf _ => .nan true
  | .inf n, y => .inf (n != y.neg)
  | .fin na _ ea, .inf n => .real ⟨na != n, 0, ea, false⟩
  | .fin na ma ea, .fin nb mb eb =>
    if mb = 0 then (if ma = 0 then .nan true else .infFinite (na != nb) divZeroFlag)
    else .real (quotientExact (na != nb) ma ea mb eb)

/-- Newton's steps down to the integer square root. -/
def isqrtLoop (n : Nat) : Nat → Nat → Nat
  | 0, x => x
  | fuel + 1, x =>
    let y := (x + n / x) / 2
    if y < x then isqrtLoop n fuel y else x

/-- The integer square root. -/
def isqrt (n : Nat) : Nat := if n = 0 then 0 else isqrtLoop n 64 (2 ^ (Nat.log2 n / 2 + 1))

/-- A magnitude with an even exponent. -/
def evenExponent (m : Nat) (e : Int) : Nat × Int := if e % 2 = 0 then (m, e) else (2 * m, e - 1)

/-- √a before rounding (R71, R128). -/
def fpSqrt (a : Val) : Raw :=
  match a with
  | .nan s => .nan s
  | .inf n => if n then .nan true else .inf false
  | .fin neg m e =>
    if m = 0 then .real ⟨neg, 0, e, false⟩
    else if neg then .nan true
    else
      let p := evenExponent m e
      let n := p.1 * 2 ^ (2 * wideBits)
      let r := isqrt n
      .real ⟨false, r, p.2 / 2 - wideBits, r * r != n⟩

/-- 1/a before rounding (R143). -/
def fpRcp (a : Val) : Raw :=
  match a with
  | .nan s => .nan s
  | .inf n => .real ⟨n, 0, 0, false⟩
  | .fin neg m e => if m = 0 then .infFinite neg divZeroFlag else .real (quotientExact neg 1 0 m e)

/-- 1/√a before rounding (R143). -/
def fpRsq (a : Val) : Raw :=
  match a with
  | .nan s => .nan s
  | .inf n => if n then .nan true else .real ⟨false, 0, 0, false⟩
  | .fin neg m e =>
    if m = 0 then .infFinite neg divZeroFlag
    else if neg then .nan true
    else
      let p := evenExponent m e
      let k := wideBits + Nat.log2 p.1
      let n := 2 ^ (2 * k)
      let r := isqrt (n / p.1)
      .real ⟨false, r, -(p.2 / 2) - k, r * r * p.1 != n⟩

/-- Fraction bits kept while VEXP2 and VLOG2 are formed (DEDUCED log 9). -/
def seriesBits : Nat := 320

/-- 2 to the fraction that the bits hold, most significant first: a product of repeated square roots of 2 (DEDUCED log 9). -/
def exp2Fraction (root acc : Nat) : List Bool → Nat
  | [] => acc
  | b :: r =>
    let root' := isqrt (root * 2 ^ seriesBits)
    exp2Fraction root' (if b then acc * root' / 2 ^ seriesBits else acc) r

/-- 2^a before rounding (R143): exact for an integer, otherwise irrational. -/
def fpExp2 (a : Val) : Raw :=
  match a with
  | .nan s => .nan s
  | .inf n => if n then .real ⟨false, 0, 0, false⟩ else .inf false
  | .fin neg m e =>
    let down : Int := if e < 0 then signedMag neg m / 2 ^ (-e).toNat
      else if 32 < e then (if m = 0 then 0 else if neg then -1000 else 1000) else signedMag neg m * 2 ^ e.toNat
    let whole := max (-1000) (min 1000 down)
    let places := (-e).toNat
    let frac := if e < 0 then (signedMag neg m % 2 ^ places).toNat else 0
    if frac = 0 then .real ⟨false, 1, whole, false⟩
    else
      let bits := (List.range places).map (fun i => (frac / 2 ^ (places - 1 - i)) % 2 == 1)
      .real ⟨false, exp2Fraction (2 * 2 ^ seriesBits) (2 ^ seriesBits) bits, whole - seriesBits, true⟩

/-- The fraction bits of the logarithm of y (in units of 2^-seriesBits, 1 ≤ y < 2), by squaring (DEDUCED log 9). -/
def log2Fraction (y acc : Nat) : Nat → Nat
  | 0 => acc
  | fuel + 1 =>
    let z := y * y / 2 ^ seriesBits
    if 2 * 2 ^ seriesBits ≤ z then log2Fraction (z / 2) (2 * acc + 1) fuel else log2Fraction z (2 * acc) fuel

/-- log₂ a before rounding (R143): exact for a power of two, otherwise irrational. -/
def fpLog2 (a : Val) : Raw :=
  match a with
  | .nan s => .nan s
  | .inf n => if n then .nan true else .inf false
  | .fin neg m e =>
    if m = 0 then .infFinite true divZeroFlag
    else if neg then .nan true
    else
      let l := Nat.log2 m
      let n : Int := e + l
      if 2 ^ l = m then .real ⟨n < 0, n.natAbs, 0, false⟩
      else
        let y := m * 2 ^ seriesBits / 2 ^ l
        let v : Int := n * 2 ^ 192 + (log2Fraction y 0 192 : Int)
        if 0 ≤ v then .real ⟨false, v.toNat, -192, true⟩ else .real ⟨true, v.natAbs - 1, -192, true⟩

/-- The order of two values. -/
inductive Order where
  | less
  | equal
  | greater
  | unordered
  deriving DecidableEq, Repr

/-- The order of two integers. -/
def intOrder (a b : Int) : Order := if a < b then .less else if a = b then .equal else .greater

/-- IEEE comparison (R72): +0 equals −0. -/
def fpCompare (a b : Val) : Order :=
  match a, b with
  | .nan _, _ => .unordered
  | _, .nan _ => .unordered
  | .inf n, .inf k => if n = k then .equal else if n then .less else .greater
  | .inf n, .fin .. => if n then .less else .greater
  | .fin .., .inf n => if n then .greater else .less
  | .fin na ma ea, .fin nb mb eb =>
    let q := min ea eb
    intOrder (signedMag na (inUnits ma ea q)) (signedMag nb (inUnits mb eb q))

/-- minimumNumber or maximumNumber on patterns of one format (R72), with the invalid flag of a signalling NaN (R71). -/
def fpMinMax (f : FpFormat) (larger : Bool) (a b : Nat) : Nat × BitVec 6 :=
  let u := decodeFp f a
  let v := decodeFp f b
  let flags := flagIf (u.isSignalling || v.isSignalling) invalidFlag
  if u.isNan && v.isNan then (f.nan, flags)
  else if u.isNan then (b, flags)
  else if v.isNan then (a, flags)
  else
    let aLess := match fpCompare u v with
      | .less => true
      | .equal => u.neg
      | _ => false
    (if aLess != larger then a else b, flags)

/-- `to_int` of R40 and R70: the value rounded to an integer, clamped to lo to hi; RSR takes its step. -/
def toInt (env : RoundEnv) (lo hi : Int) (v : Val) : Int × BitVec 6 × Word :=
  let s := if env.mode = 5 then seedStep env.seed else env.seed
  match v with
  | .nan _ => (0, invalidFlag, s)
  | .inf n => (if n then lo else hi, invalidFlag, s)
  | .fin neg m e =>
    let x : Exact := ⟨neg, m, e, false⟩
    let r := signedMag neg (roundTo env.mode x 0 s)
    if r < lo then (lo, invalidFlag, s)
    else if hi < r then (hi, invalidFlag, s)
    else (r, flagIf (bitsBelow m e 0 != 0) inexactFlag, s)

/-- `round_f32` in RNE of a raw result: atomics, folds and the matrix unit, which set no flag (R71, R79). -/
def nearest (f : FpFormat) (r : Raw) : Nat := (settleFp f ⟨0, false, 0⟩ r).bits

/-- The F32 sum of two patterns rounded RNE (R78, R79). -/
def addF32 (a b : Nat) : Nat := nearest f32 (fpAdd 0 (decodeFp f32 a) (decodeFp f32 b))

/-- The class word of FCLASS and VCLASS (R130, R166). -/
def classOf (f : FpFormat) (bits : Nat) : Nat :=
  let sign := if bits / 2 ^ (f.ebits + f.mbits) % 2 = 1 then 64 else 0
  match decodeFp f bits with
  | .nan s => 1 + sign + (if s then 128 else 0)
  | .inf n => (if n then 4 else 2) + sign
  | .fin _ m _ => (if m = 0 then 8 else if m < 2 ^ f.mbits then 16 else 32) + sign

end Sys2Proof.Machine
end

