-- ==== Sys2Proof/Syntax.lean ====
section
/-!
DEFINITION. The instruction set of the Volak-2 as syntax: one constructor per row of spec/opcode_table.json.

Each instruction row carries its free fields only: a field the spec fixes (R30) has no place here, a vector,
mask, tile or ring register has the width of its file (R27), and `sw` is the head's switch marker S (R24).
Each event row carries the names that say where it takes place: `c` a core, `k` a seat, `f` an item in flight,
and so on; a request from outside carries its body (R445).
-/
namespace Sys2Proof

/-- The steps of the machine, instructions first and then events, in the order of the opcode table. -/
inductive Instr where
  /-- NOP (R102). -/
  | nop (sw : Bool)
  /-- NOP_T1 (R102). -/
  | nopT1 (sw : Bool) (x : BitVec 16)
  /-- NOP_T2 (R102). -/
  | nopT2 (sw : Bool) (x : BitVec 32)
  /-- NOP_T3 (R102). -/
  | nopT3 (sw : Bool) (x : BitVec 64)
  /-- J (R103). -/
  | j (sw : Bool) (off : BitVec 32)
  /-- JAL (R103). -/
  | jal (sw : Bool) (l : BitVec 6) (off : BitVec 32)
  /-- JR (R103). -/
  | jr (sw : Bool) (t : BitVec 6)
  /-- BEQ (R106). -/
  | beq (sw : Bool) (a b : BitVec 6) (off : BitVec 25)
  /-- BNE (R106). -/
  | bne (sw : Bool) (a b : BitVec 6) (off : BitVec 25)
  /-- BLT (R106). -/
  | blt (sw : Bool) (a b : BitVec 6) (off : BitVec 25)
  /-- BGE (R106). -/
  | bge (sw : Bool) (a b : BitVec 6) (off : BitVec 25)
  /-- BLTN (R106). -/
  | bltn (sw : Bool) (a b : BitVec 6) (off : BitVec 25)
  /-- BGEN (R106). -/
  | bgen (sw : Bool) (a b : BitVec 6) (off : BitVec 25)
  /-- LOOP (R108). -/
  | loop (sw : Bool) (c : BitVec 6) (o : BitVec 16)
  /-- HEND (R112). -/
  | hend (sw : Bool)
  /-- CHUNK (R111). -/
  | chunk (sw : Bool)
  /-- TRAP (R113). -/
  | trap (sw : Bool) (code : BitVec 6)
  /-- TRAP_ARG (R113). -/
  | trapArg (sw : Bool) (code : BitVec 6) (arg : BitVec 16)
  /-- SYSRET (R114). -/
  | sysret (sw : Bool)
  /-- ADD_R (R115). -/
  | addR (sw : Bool) (d b c : BitVec 6) (w : Bool)
  /-- ADD_I (R115). -/
  | addI (sw : Bool) (d b : BitVec 6) (w : Bool) (imm : BitVec 22)
  /-- SUB_R (R115). -/
  | subR (sw : Bool) (d b c : BitVec 6) (w : Bool)
  /-- SUB_I (R115). -/
  | subI (sw : Bool) (d b : BitVec 6) (w : Bool) (imm : BitVec 22)
  /-- MUL_R (R115). -/
  | mulR (sw : Bool) (d b c : BitVec 6) (w : Bool)
  /-- MUL_I (R115). -/
  | mulI (sw : Bool) (d b : BitVec 6) (w : Bool) (imm : BitVec 22)
  /-- MULH_R (R115). -/
  | mulhR (sw : Bool) (d b c : BitVec 6) (w n : Bool)
  /-- MULH_I (R115). -/
  | mulhI (sw : Bool) (d b : BitVec 6) (w n : Bool) (imm : BitVec 22)
  /-- DIV_R (R116). -/
  | divR (sw : Bool) (d b c : BitVec 6) (w n : Bool)
  /-- DIV_I (R116). -/
  | divI (sw : Bool) (d b : BitVec 6) (w n : Bool) (imm : BitVec 22)
  /-- REM_R (R116). -/
  | remR (sw : Bool) (d b c : BitVec 6) (w n : Bool)
  /-- REM_I (R116). -/
  | remI (sw : Bool) (d b : BitVec 6) (w n : Bool) (imm : BitVec 22)
  /-- AND_R (R115). -/
  | andR (sw : Bool) (d b c : BitVec 6) (w : Bool)
  /-- AND_I (R115). -/
  | andI (sw : Bool) (d b : BitVec 6) (w : Bool) (imm : BitVec 22)
  /-- OR_R (R115). -/
  | orR (sw : Bool) (d b c : BitVec 6) (w : Bool)
  /-- OR_I (R115). -/
  | orI (sw : Bool) (d b : BitVec 6) (w : Bool) (imm : BitVec 22)
  /-- XOR_R (R115). -/
  | xorR (sw : Bool) (d b c : BitVec 6) (w : Bool)
  /-- XOR_I (R115). -/
  | xorI (sw : Bool) (d b : BitVec 6) (w : Bool) (imm : BitVec 22)
  /-- ANDN_R (R115). -/
  | andnR (sw : Bool) (d b c : BitVec 6) (w : Bool)
  /-- ANDN_I (R115). -/
  | andnI (sw : Bool) (d b : BitVec 6) (w : Bool) (imm : BitVec 22)
  /-- SHL_R (R115). -/
  | shlR (sw : Bool) (d b c : BitVec 6) (w : Bool)
  /-- SHL_I (R115). -/
  | shlI (sw : Bool) (d b : BitVec 6) (w : Bool) (imm : BitVec 22)
  /-- SHR_R (R115). -/
  | shrR (sw : Bool) (d b c : BitVec 6) (w : Bool)
  /-- SHR_I (R115). -/
  | shrI (sw : Bool) (d b : BitVec 6) (w : Bool) (imm : BitVec 22)
  /-- SRA_R (R115). -/
  | sraR (sw : Bool) (d b c : BitVec 6) (w : Bool)
  /-- SRA_I (R115). -/
  | sraI (sw : Bool) (d b : BitVec 6) (w : Bool) (imm : BitVec 22)
  /-- MIN_R (R115). -/
  | minR (sw : Bool) (d b c : BitVec 6) (w n : Bool)
  /-- MIN_I (R115). -/
  | minI (sw : Bool) (d b : BitVec 6) (w n : Bool) (imm : BitVec 22)
  /-- MAX_R (R115). -/
  | maxR (sw : Bool) (d b c : BitVec 6) (w n : Bool)
  /-- MAX_I (R115). -/
  | maxI (sw : Bool) (d b : BitVec 6) (w n : Bool) (imm : BitVec 22)
  /-- SEL (R118). -/
  | sel (sw : Bool) (d b c k : BitVec 6)
  /-- LI_16 (R119). -/
  | li16 (sw : Bool) (d : BitVec 6) (imm : BitVec 16)
  /-- LI_32 (R119). -/
  | li32 (sw : Bool) (d : BitVec 6) (imm : BitVec 32)
  /-- LI_64 (R119). -/
  | li64 (sw : Bool) (d : BitVec 6) (imm : BitVec 64)
  /-- LIH (R119). -/
  | lih (sw : Bool) (d : BitVec 6) (imm : BitVec 32)
  /-- CMP_R (R120). -/
  | cmpR (sw : Bool) (d b c : BitVec 6) (k : BitVec 3)
  /-- CMP_I (R120). -/
  | cmpI (sw : Bool) (d b : BitVec 6) (k : BitVec 3) (imm : BitVec 22)
  /-- CLZ (R121). -/
  | clz (sw : Bool) (d b : BitVec 6) (w : BitVec 2)
  /-- CTZ (R121). -/
  | ctz (sw : Bool) (d b : BitVec 6) (w : BitVec 2)
  /-- POPC (R121). -/
  | popc (sw : Bool) (d b : BitVec 6) (w : BitVec 2)
  /-- SEXT (R121). -/
  | sext (sw : Bool) (d b : BitVec 6) (w : BitVec 2)
  /-- ZEXT (R121). -/
  | zext (sw : Bool) (d b : BitVec 6) (w : BitVec 2)
  /-- BFX (R122). -/
  | bfx (sw : Bool) (d b pos len : BitVec 6) (sg : Bool)
  /-- BFI (R122). -/
  | bfi (sw : Bool) (d b pos len : BitVec 6)
  /-- PADD_R (R123). -/
  | paddR (sw : Bool) (d b c : BitVec 6)
  /-- PADD_I (R123). -/
  | paddI (sw : Bool) (d b : BitVec 6) (imm : BitVec 22)
  /-- PSUB_R (R123). -/
  | psubR (sw : Bool) (d b c : BitVec 6)
  /-- PSUB_I (R123). -/
  | psubI (sw : Bool) (d b : BitVec 6) (imm : BitVec 22)
  /-- PTAG (R124). -/
  | ptag (sw : Bool) (d b fmt : BitVec 6) (blog : BitVec 4)
  /-- PGET (R125). -/
  | pget (sw : Bool) (d b : BitVec 6) (k : BitVec 2)
  /-- FADD (R128). -/
  | fadd (sw : Bool) (d b c : BitVec 6) (p : Bool) (rnd : BitVec 3) (sat : Bool)
  /-- FSUB (R128). -/
  | fsub (sw : Bool) (d b c : BitVec 6) (p : Bool) (rnd : BitVec 3) (sat : Bool)
  /-- FMUL (R128). -/
  | fmul (sw : Bool) (d b c : BitVec 6) (p : Bool) (rnd : BitVec 3) (sat : Bool)
  /-- FMIN (R128). -/
  | fmin (sw : Bool) (d b c : BitVec 6) (p : Bool)
  /-- FMAX (R128). -/
  | fmax (sw : Bool) (d b c : BitVec 6) (p : Bool)
  /-- FFMA (R128). -/
  | ffma (sw : Bool) (d b c e : BitVec 6) (p : Bool) (rnd : BitVec 3) (sat : Bool)
  /-- FDIV (R128). -/
  | fdiv (sw : Bool) (d b c : BitVec 6) (p : Bool) (rnd : BitVec 3) (sat : Bool)
  /-- FSQRT (R128). -/
  | fsqrt (sw : Bool) (d b : BitVec 6) (p : Bool) (rnd : BitVec 3) (sat : Bool)
  /-- FCMP (R129). -/
  | fcmp (sw : Bool) (d b c : BitVec 6) (k : BitVec 2) (p : Bool)
  /-- FCVT (R131). -/
  | fcvt (sw : Bool) (d b : BitVec 6) (dst : BitVec 4) (rnd : BitVec 3) (sat : Bool) (src : BitVec 4)
  /-- FCLASS (R130). -/
  | fclass (sw : Bool) (d b : BitVec 6) (p : Bool)
  /-- LD (R243). -/
  | ld (sw : Bool) (d b : BitVec 6) (w : BitVec 3) (imm : BitVec 22)
  /-- ST (R243). -/
  | st (sw : Bool) (a b : BitVec 6) (w : BitVec 2) (imm : BitVec 22)
  /-- LDF (R246). -/
  | ldf (sw : Bool) (d b : BitVec 6) (imm : BitVec 22)
  /-- LDFE (R246). -/
  | ldfe (sw : Bool) (d b : BitVec 6) (imm : BitVec 22)
  /-- STF (R246). -/
  | stf (sw : Bool) (a b : BitVec 6) (imm : BitVec 22)
  /-- SETE (R247). -/
  | sete (sw : Bool) (a l : BitVec 6)
  /-- SETF (R247). -/
  | setf (sw : Bool) (a l : BitVec 6)
  /-- CADD_R (R250). -/
  | caddR (sw : Bool) (c b : BitVec 6)
  /-- CADD_I (R250). -/
  | caddI (sw : Bool) (c : BitVec 6) (imm : BitVec 21)
  /-- CREAD (R251). -/
  | cread (sw : Bool) (d c : BitVec 6)
  /-- WAITC (R252). -/
  | waitc (sw : Bool) (c t : BitVec 6)
  /-- CEXPECT_R (R250). -/
  | cexpectR (sw : Bool) (c b : BitVec 6)
  /-- CEXPECT_I (R250). -/
  | cexpectI (sw : Bool) (c : BitVec 6) (imm : BitVec 21)
  /-- BAINIT_R (R250). -/
  | bainitR (sw : Bool) (c b : BitVec 6)
  /-- BAINIT_I (R250). -/
  | bainitI (sw : Bool) (c : BitVec 6) (imm : BitVec 21)
  /-- BARRIVE (R250). -/
  | barrive (sw : Bool) (c p : BitVec 6)
  /-- BADROP (R250). -/
  | badrop (sw : Bool) (c p : BitVec 6)
  /-- TRIGARM (R253). -/
  | trigarm (sw : Bool) (e b c d : BitVec 6)
  /-- TRIGDIS (R253). -/
  | trigdis (sw : Bool) (e : BitVec 6)
  /-- MBCFG (R254). -/
  | mbcfg (sw : Bool) (b c d : BitVec 6)
  /-- MBPOST (R254). -/
  | mbpost (sw : Bool) (b c : BitVec 6)
  /-- MBTAKE (R254). -/
  | mbtake (sw : Bool) (d b : BitVec 6)
  /-- LSAMO (R255). -/
  | lsamo (sw : Bool) (d b c e : BitVec 6) (op : BitVec 4)
  /-- VADD (R138). -/
  | vadd (sw : Bool) (d b c : BitVec 5) (fmt : BitVec 4) (q rnd : BitVec 3) (sat z : Bool)
  /-- VSUB (R138). -/
  | vsub (sw : Bool) (d b c : BitVec 5) (fmt : BitVec 4) (q rnd : BitVec 3) (sat z : Bool)
  /-- VMUL (R138). -/
  | vmul (sw : Bool) (d b c : BitVec 5) (fmt : BitVec 4) (q rnd : BitVec 3) (sat z : Bool)
  /-- VMIN (R138). -/
  | vmin (sw : Bool) (d b c : BitVec 5) (fmt : BitVec 4) (q : BitVec 3) (z : Bool)
  /-- VMAX (R138). -/
  | vmax (sw : Bool) (d b c : BitVec 5) (fmt : BitVec 4) (q : BitVec 3) (z : Bool)
  /-- VFMA (R140). -/
  | vfma (sw : Bool) (d b c e : BitVec 5) (fmt : BitVec 4) (q rnd : BitVec 3) (sat z : Bool)
  /-- VABS (R141). -/
  | vabs (sw : Bool) (d b : BitVec 5) (fmt : BitVec 4) (q : BitVec 3) (sat z : Bool)
  /-- VNEG (R141). -/
  | vneg (sw : Bool) (d b : BitVec 5) (fmt : BitVec 4) (q : BitVec 3) (sat z : Bool)
  /-- VDIV (R142). -/
  | vdiv (sw : Bool) (d b c : BitVec 5) (fmt : BitVec 4) (q rnd : BitVec 3) (sat z : Bool)
  /-- VRCP (R143). -/
  | vrcp (sw : Bool) (d b : BitVec 5) (fmt : BitVec 4) (q rnd : BitVec 3) (sat z : Bool)
  /-- VRSQ (R143). -/
  | vrsq (sw : Bool) (d b : BitVec 5) (fmt : BitVec 4) (q rnd : BitVec 3) (sat z : Bool)
  /-- VSQRT (R143). -/
  | vsqrt (sw : Bool) (d b : BitVec 5) (fmt : BitVec 4) (q rnd : BitVec 3) (sat z : Bool)
  /-- VEXP2 (R143). -/
  | vexp2 (sw : Bool) (d b : BitVec 5) (fmt : BitVec 4) (q rnd : BitVec 3) (sat z : Bool)
  /-- VLOG2 (R143). -/
  | vlog2 (sw : Bool) (d b : BitVec 5) (fmt : BitVec 4) (q rnd : BitVec 3) (sat z : Bool)
  /-- VAND (R144). -/
  | vand (sw : Bool) (d b c : BitVec 5) (fmt : BitVec 4) (q : BitVec 3) (z : Bool)
  /-- VOR (R144). -/
  | vor (sw : Bool) (d b c : BitVec 5) (fmt : BitVec 4) (q : BitVec 3) (z : Bool)
  /-- VXOR (R144). -/
  | vxor (sw : Bool) (d b c : BitVec 5) (fmt : BitVec 4) (q : BitVec 3) (z : Bool)
  /-- VANDN (R144). -/
  | vandn (sw : Bool) (d b c : BitVec 5) (fmt : BitVec 4) (q : BitVec 3) (z : Bool)
  /-- VSHL (R145). -/
  | vshl (sw : Bool) (d b c : BitVec 5) (fmt : BitVec 4) (q : BitVec 3) (z : Bool)
  /-- VSHR (R145). -/
  | vshr (sw : Bool) (d b c : BitVec 5) (fmt : BitVec 4) (q : BitVec 3) (z : Bool)
  /-- VSRA (R145). -/
  | vsra (sw : Bool) (d b c : BitVec 5) (fmt : BitVec 4) (q : BitVec 3) (z : Bool)
  /-- VCMP (R146). -/
  | vcmp (sw : Bool) (d : BitVec 3) (b c : BitVec 5) (fmt : BitVec 4) (q k : BitVec 3)
  /-- VSEL (R147). -/
  | vsel (sw : Bool) (d b c : BitVec 5) (fmt : BitVec 4) (q : BitVec 3)
  /-- VRED (R148). -/
  | vred (sw : Bool) (d : BitVec 6) (b : BitVec 5) (fmt : BitVec 4) (q rnd : BitVec 3) (sat : Bool) (op : BitVec 3)
  /-- VSCAN (R149). -/
  | vscan (sw : Bool) (d b : BitVec 5) (fmt : BitVec 4) (q rnd : BitVec 3) (sat z : Bool) (op : BitVec 2)
  /-- VLD (R152). -/
  | vld (sw : Bool) (d : BitVec 5) (b : BitVec 6) (imm : BitVec 22)
  /-- VST (R152). -/
  | vst (sw : Bool) (a : BitVec 5) (b : BitVec 6) (imm : BitVec 22)
  /-- VLDF (R152). -/
  | vldf (sw : Bool) (d : BitVec 5) (b : BitVec 6) (imm : BitVec 22)
  /-- VSTF (R152). -/
  | vstf (sw : Bool) (a : BitVec 5) (b : BitVec 6) (imm : BitVec 22)
  /-- VGATH (R156). -/
  | vgath (sw : Bool) (d : BitVec 5) (b : BitVec 6) (c : BitVec 5) (fmt : BitVec 4) (q : BitVec 3) (z : Bool)
  /-- VSCAT (R156). -/
  | vscat (sw : Bool) (a : BitVec 5) (b : BitVec 6) (c : BitVec 5) (fmt : BitVec 4) (q : BitVec 3)
  /-- VBCAST (R157). -/
  | vbcast (sw : Bool) (d : BitVec 5) (b : BitVec 6) (fmt : BitVec 4) (q : BitVec 3) (z : Bool)
  /-- VEXTR (R158). -/
  | vextr (sw : Bool) (d : BitVec 6) (b : BitVec 5) (c : BitVec 6) (fmt : BitVec 4)
  /-- VPERM (R159). -/
  | vperm (sw : Bool) (d b c : BitVec 5) (fmt : BitVec 4) (q : BitVec 3) (z : Bool)
  /-- VCVT (R160). -/
  | vcvt (sw : Bool) (d b : BitVec 5) (dst : BitVec 4) (q rnd : BitVec 3) (sat : Bool) (src : BitVec 4) (z : Bool) (part : BitVec 4)
  /-- VSCALE (R161). -/
  | vscale (sw : Bool) (d b : BitVec 5) (c : BitVec 6) (fmt : BitVec 4) (q rnd : BitVec 3) (sat z : Bool)
  /-- VQNT (R162). -/
  | vqnt (sw : Bool) (d b e : BitVec 5) (efmt : BitVec 4) (rnd : BitVec 3) (blog src : BitVec 4)
  /-- VDQNT (R163). -/
  | vdqnt (sw : Bool) (d b e : BitVec 5) (efmt : BitVec 4) (q rnd : BitVec 3) (sat : Bool) (blog dst : BitVec 4) (z : Bool)
  /-- VCBDEC (R164). -/
  | vcbdec (sw : Bool) (d b : BitVec 5) (q rnd : BitVec 3) (sat : Bool) (w : BitVec 6) (ofmt : BitVec 4) (z : Bool)
  /-- VCBDEC_LOAD (R165). -/
  | vcbdecLoad (sw : Bool) (b : BitVec 6)
  /-- VCLASS (R166). -/
  | vclass (sw : Bool) (d : BitVec 3) (b : BitVec 5) (fmt : BitVec 4) (q : BitVec 3) (nfs : Bool) (set : BitVec 6)
  /-- QAND (R167). -/
  | qand (sw : Bool) (d b c : BitVec 3)
  /-- QOR (R167). -/
  | qor (sw : Bool) (d b c : BitVec 3)
  /-- QXOR (R167). -/
  | qxor (sw : Bool) (d b c : BitVec 3)
  /-- QNOT (R167). -/
  | qnot (sw : Bool) (d b : BitVec 3)
  /-- QMOV (R167). -/
  | qmov (sw : Bool) (d b : BitVec 3)
  /-- QCNT (R167). -/
  | qcnt (sw : Bool) (d : BitVec 6) (b : BitVec 3)
  /-- MMA (R180). -/
  | mma (sw : Bool) (m : BitVec 4) (ga gb : BitVec 3) (fmt : BitVec 4) (steps : BitVec 6) (zf : Bool)
  /-- MMAG (R182). -/
  | mmag (sw : Bool) (m : BitVec 4) (ga gb : BitVec 3) (fmt : BitVec 4) (steps : BitVec 6) (zf : Bool) (wc : BitVec 3)
  /-- DMMA (R181). -/
  | dmma (sw : Bool) (m ga gb : BitVec 3) (steps : BitVec 6) (zf : Bool)
  /-- RINGCFG (R184). -/
  | ringcfg (sw : Bool) (g : BitVec 3) (b : BitVec 6)
  /-- RPUB (R184). -/
  | rpub (sw : Bool) (g : BitVec 3) (b : BitVec 6)
  /-- RSTAT (R184). -/
  | rstat (sw : Bool) (d : BitVec 6) (g : BitVec 3)
  /-- RRESET (R184). -/
  | rreset (sw : Bool) (g : BitVec 3)
  /-- SCLCFG (R184). -/
  | sclcfg (sw : Bool) (g : BitVec 3) (link : Bool) (h : BitVec 3)
  /-- ACCZ (R185). -/
  | accz (sw : Bool) (m : BitVec 4)
  /-- ACCRD (R185). -/
  | accrd (sw : Bool) (d : BitVec 5) (m : BitVec 4) (row : BitVec 5)
  /-- ACCWR (R185). -/
  | accwr (sw : Bool) (a : BitVec 5) (m : BitVec 4) (row : BitVec 5)
  /-- ACCSCL (R185). -/
  | accscl (sw : Bool) (m : BitVec 4) (b : BitVec 6)
  /-- MGATE (R186). -/
  | mgate (sw : Bool) (k : BitVec 4) (b : BitVec 6)
  /-- MWAKE (R186). -/
  | mwake (sw : Bool) (k : BitVec 4)
  /-- MWAIT (R187). -/
  | mwait (sw : Bool) (d : BitVec 6)
  /-- SEND (R258). -/
  | send (sw : Bool) (a b : BitVec 6) (n : BitVec 4) (h : BitVec 6)
  /-- BQFETCH (R262). -/
  | bqfetch (sw : Bool) (a b c d : BitVec 6) (dc sc : BitVec 8)
  /-- BQSTORE (R262). -/
  | bqstore (sw : Bool) (a b c d : BitVec 6) (dc sc : BitVec 8)
  /-- BQTILE (R223). -/
  | bqtile (sw : Bool) (a b c d : BitVec 6) (dc sc : BitVec 8)
  /-- BQGATH (R225). -/
  | bqgath (sw : Bool) (a b c d : BitVec 6) (dc sc : BitVec 8)
  /-- BQAMO (R263). -/
  | bqamo (sw : Bool) (a b c : BitVec 6) (dc sc : BitVec 8) (op : BitVec 4)
  /-- BQCAS (R263). -/
  | bqcas (sw : Bool) (a b c d : BitVec 6) (dc sc : BitVec 8)
  /-- LSCOPY (R265). -/
  | lscopy (sw : Bool) (b c d : BitVec 6) (dc sc : BitVec 8)
  /-- XCOPY (R265). -/
  | xcopy (sw : Bool) (b c d : BitVec 6) (dc sc : BitVec 8) (stream : BitVec 12)
  /-- FENCE (R267). -/
  | fence (sw : Bool) (scope : BitVec 3) (order : BitVec 2) (r : BitVec 6)
  /-- TAGALLOC (R312). -/
  | tagalloc (sw : Bool) (d n : BitVec 6)
  /-- TAGFREE (R313). -/
  | tagfree (sw : Bool) (t n : BitVec 6)
  /-- TAGBIND (R317). -/
  | tagbind (sw : Bool) (t r : BitVec 6)
  /-- MEET (R318). -/
  | meet (sw : Bool) (t : BitVec 6) (b : BitVec 5) (n : BitVec 4)
  /-- EXROUTE (R335). -/
  | exroute (sw : Bool) (a b c d : BitVec 6)
  /-- EXREPL_0 (R340). -/
  | exrepl0 (sw : Bool) (a b c : BitVec 6)
  /-- EXREPL_1 (R340). -/
  | exrepl1 (sw : Bool) (a b c d : BitVec 6)
  /-- EXRETIRE_0 (R341). -/
  | exretire0 (sw : Bool) (a b c : BitVec 6)
  /-- EXRETIRE_1 (R341). -/
  | exretire1 (sw : Bool) (a b c : BitVec 6)
  /-- EXSTEP_0 (R342). -/
  | exstep0 (sw : Bool) (a b : BitVec 6)
  /-- EXSTEP_1 (R342). -/
  | exstep1 (sw : Bool) (a b c : BitVec 6)
  /-- EXSTAT (R344). -/
  | exstat (sw : Bool) (a b c : BitVec 6)
  /-- EXLOOK (R344). -/
  | exlook (sw : Bool) (a b c : BitVec 6)
  /-- GFORK (R351). -/
  | gfork (sw : Bool) (a b c : BitVec 6)
  /-- GREWARD (R352). -/
  | greward (sw : Bool) (b c : BitVec 6)
  /-- GCANCEL (R353). -/
  | gcancel (sw : Bool) (b c : BitVec 6)
  /-- GCFG_CONFIGURE (R350). -/
  | gcfgConfigure (sw : Bool) (a b : BitVec 6)
  /-- GCFG_RELEASE (R350). -/
  | gcfgRelease (sw : Bool) (a c : BitVec 6)
  /-- GSTAT (R354). -/
  | gstat (sw : Bool) (a b c : BitVec 6)
  /-- TSPAWN (R380). -/
  | tspawn (sw : Bool) (a b : BitVec 6)
  /-- TSPAWNAT (R380). -/
  | tspawnat (sw : Bool) (a b c : BitVec 6)
  /-- QPUSH (R381). -/
  | qpush (sw : Bool) (a qn : BitVec 6)
  /-- QPOP (R381). -/
  | qpop (sw : Bool) (a b qn : BitVec 6)
  /-- WLPUSH (R382). -/
  | wlpush (sw : Bool) (a : BitVec 6)
  /-- WLPOP (R382). -/
  | wlpop (sw : Bool) (a b : BitVec 6)
  /-- SYSR (R399). -/
  | sysr (sw : Bool) (d : BitVec 6) (num : BitVec 10)
  /-- SYSW (R399). -/
  | sysw (sw : Bool) (a : BitVec 6) (num : BitVec 10)
  /-- SEED_WRITE (R45). -/
  | seedWrite (sw : Bool) (a : BitVec 6)
  /-- HDECIDE_RESUME (R403). -/
  | hdecideResume (sw : Bool) (a : BitVec 6)
  /-- HDECIDE_END_CONTINUATION (R403). -/
  | hdecideEndContinuation (sw : Bool) (a : BitVec 6)
  /-- HDECIDE_END_LAUNCH (R403). -/
  | hdecideEndLaunch (sw : Bool) (a : BitVec 6)
  /-- CAPR (R46). -/
  | capr (sw : Bool) (d : BitVec 6) (num : BitVec 10)
  /-- RFCFG (R270). -/
  | rfcfg (sw : Bool) (b : BitVec 6) (op : BitVec 3) (ty : BitVec 2) (w : BitVec 5)
  /-- TLBINV (R413). -/
  | tlbinv (sw : Bool) (a b : BitVec 6)
  /-- CTXSAVE (R414). -/
  | ctxsave (sw : Bool) (k b c : BitVec 6)
  /-- CTXLOAD (R414). -/
  | ctxload (sw : Bool) (k b c : BitVec 6)
  /-- LPMAP (R417). -/
  | lpmap (sw : Bool) (d b c : BitVec 6)
  /-- VFCFG_CONFIGURE (R415). -/
  | vfcfgConfigure (sw : Bool) (d b c : BitVec 6)
  /-- VFCFG_ACTIVATE (R415). -/
  | vfcfgActivate (sw : Bool) (d b c : BitVec 6)
  /-- VFCFG_DEACTIVATE (R415). -/
  | vfcfgDeactivate (sw : Bool) (d b c : BitVec 6)
  /-- WINSET (R271). -/
  | winset (sw : Bool) (k : BitVec 3) (b c d : BitVec 6) (rights : BitVec 4)
  /-- WINCLR (R271). -/
  | winclr (sw : Bool) (k : BitVec 3)
  /-- PARK_POINT (R33). -/
  | parkPoint (c : Nat) (k : Nat)
  /-- DEFERRED_RESULT_LANDING (R37). -/
  | deferredResultLanding (f : Nat)
  /-- FULL_WAIT_SATISFIED (R246). -/
  | fullWaitSatisfied (c : Nat) (k : Nat)
  /-- IMPLICIT_BOUNDARY (R195). -/
  | implicitBoundary (c : Nat) (k : Nat)
  /-- COMMIT_GRANT (R198). -/
  | commitGrant (c : Nat) (k : Nat)
  /-- BUDGET_EXCEEDED (R197). -/
  | budgetExceeded (c : Nat) (k : Nat)
  /-- CONFLICT_ABORT (R276). -/
  | conflictAbort (c : Nat) (k : Nat)
  /-- SEAT_TRANSFER_TAKE (R204). -/
  | seatTransferTake (c : Nat) (k : Nat)
  /-- SEAT_TRANSFER_RETURN (R206). -/
  | seatTransferReturn (f : Nat)
  /-- SEAT_TAKE_WORK (R201). -/
  | seatTakeWork (c : Nat) (k : Nat)
  /-- PRIORITY_PULL_RETURN (R201). -/
  | priorityPullReturn (f : Nat)
  /-- RECORD_READY (R200). -/
  | recordReady (f : Nat)
  /-- LOAD_LEVELLING (R207). -/
  | loadLevelling (lid : Nat)
  /-- LEVELLED_RECORD_ARRIVAL (R207). -/
  | levelledRecordArrival (f : Nat)
  /-- COUNTER_UPDATE_AT_OWNER (R229). -/
  | counterUpdateAtOwner (f : Nat)
  /-- WAITC_ARM_AT_OWNER (R252). -/
  | waitcArmAtOwner (f : Nat)
  /-- TRIGGER_ARM_AT_OWNER (R234). -/
  | triggerArmAtOwner (f : Nat)
  /-- LSAMO_EXECUTE (R256). -/
  | lsamoExecute (f : Nat)
  /-- MAILBOX_OPERATION (R237). -/
  | mailboxOperation (f : Nat)
  /-- MESSAGE_ARRIVAL (R236). -/
  | messageArrival (f : Nat)
  /-- MESSAGE_QUEUE_RETRY (R236). -/
  | messageQueueRetry (f : Nat)
  /-- BQ_ENTRY (R217). -/
  | bqEntry (f : Nat)
  /-- BQ_PACKET_COMPLETE (R218). -/
  | bqPacketComplete (c : Nat) (e : Nat) (p : Nat)
  /-- BQ_ENTRY_COMPLETE (R219). -/
  | bqEntryComplete (c : Nat) (e : Nat)
  /-- SOURCE_END_ADD (R219). -/
  | sourceEndAdd (c : Nat) (e : Nat)
  /-- REGION3_DELIVERY (R227). -/
  | region3Delivery (f : Nat)
  /-- STREAMER_ATOMIC (R430). -/
  | streamerAtomic (c : Nat) (e : Nat)
  /-- TRANSLATION_WALK (R424). -/
  | translationWalk (w : Nat)
  /-- LINE_FETCH (R426). -/
  | lineFetch (c : Nat) (k : Nat)
  /-- RAFTERS_RESULT (R240). -/
  | raftersResult (r : Nat)
  /-- HORIZON_REDUCTION (R386). -/
  | horizonReduction (lid : Nat)
  /-- HORIZON_RESULT (R386). -/
  | horizonResult (lid : Nat)
  /-- TASK_COMMIT (R387). -/
  | taskCommit (c : Nat) (k : Nat)
  /-- TASK_RERUN (R389). -/
  | taskRerun (c : Nat) (k : Nat)
  /-- TAGFREE_AT_LARDER (R313). -/
  | tagfreeAtLarder (f : Nat)
  /-- TAG_PURGE (R324). -/
  | tagPurge (f : Nat)
  /-- BIND_ARRIVAL (R319). -/
  | bindArrival (f : Nat)
  /-- MEET_OPERAND_ARRIVAL (R319). -/
  | meetOperandArrival (f : Nat)
  /-- MEET_CREATION_CHECK (R319). -/
  | meetCreationCheck (c : Nat) (e : Nat)
  /-- MEET_NAK_RETRY (R320). -/
  | meetNakRetry (c : Nat) (e : Nat)
  /-- MEET_EXPIRY (R323). -/
  | meetExpiry (c : Nat) (e : Nat)
  /-- ROUTE_START (R335). -/
  | routeStart (c : Nat) (r : Nat)
  /-- ENTRY_CACHE_FILL (R331). -/
  | entryCacheFill (f : Nat)
  /-- EXPERT_CLAIM (R336). -/
  | expertClaim (f : Nat)
  /-- CLAIM_REPLY (R335). -/
  | claimReply (f : Nat)
  /-- METADATA_LANDING (R337). -/
  | metadataLanding (f : Nat)
  /-- DIRECTORY_OPERATION (R334). -/
  | directoryOperation (f : Nat)
  /-- SET_BOUND (R330). -/
  | setBound (f : Nat)
  /-- DIRECTORY_COUNT_ADD (R336). -/
  | directoryCountAdd (f : Nat)
  /-- GFORK_TAKEN (R351). -/
  | gforkTaken (f : Nat)
  /-- GREWARD_TAKEN (R352). -/
  | grewardTaken (f : Nat)
  /-- GCANCEL_TAKEN (R353). -/
  | gcancelTaken (f : Nat)
  /-- GCFG_TAKEN (R350). -/
  | gcfgTaken (f : Nat)
  /-- GSTAT_TAKEN (R354). -/
  | gstatTaken (f : Nat)
  /-- GROUP_DEADLINE (R355). -/
  | groupDeadline (c : Nat) (g : Nat)
  /-- GROUP_RESULT_WRITE (R357). -/
  | groupResultWrite (f : Nat)
  /-- INITIAL_RECORD_SEND (R376). -/
  | initialRecordSend (lid : Nat)
  /-- LARDER_PUSH (R377). -/
  | larderPush (f : Nat)
  /-- LARDER_POP (R381). -/
  | larderPop (f : Nat)
  /-- PRIORITY_PULL (R384). -/
  | priorityPull (f : Nat)
  /-- QUEUE_EXTENSION (R377). -/
  | queueExtension (f : Nat)
  /-- ENERGY_BUDGET_REACHED (R393). -/
  | energyBudgetReached (lid : Nat)
  /-- DROOP_EVENT (R395). -/
  | droopEvent (c : Nat)
  /-- SLICE_END (R396). -/
  | sliceEnd (c : Nat) (k : Nat)
  /-- HALL_SERVICE_ENTRY (R398). -/
  | hallServiceEntry (c : Nat) (k : Nat)
  /-- TRAP_RECORD_POST (R402). -/
  | trapRecordPost (f : Nat)
  /-- DEFERRED_TRAP_ARRIVAL (R405). -/
  | deferredTrapArrival (f : Nat)
  /-- STOP_ARRIVAL (R406). -/
  | stopArrival (f : Nat)
  /-- CORE_SAVE (R407). -/
  | coreSave (c : Nat)
  /-- SAVE_FAILED (R411). -/
  | saveFailed (c : Nat) (off : Nat)
  /-- CONTEXT_RESTORE (R408). -/
  | contextRestore (f : Nat)
  /-- XCOPY_STREAM_ENTRY (R440). -/
  | xcopyStreamEntry (f : Nat)
  /-- XCOPY_PACKET_ARRIVAL (R438). -/
  | xcopyPacketArrival (f : Nat)
  /-- XCOPY_ACK (R443). -/
  | xcopyAck (f : Nat)
  /-- PORT_DOWN (R442). -/
  | portDown (p : Nat)
  /-- PORT_UP (R442). -/
  | portUp (p : Nat)
  /-- CREATE_CONTEXT (R445). -/
  | createContext (tag : Nat) (vf : Nat) (prio : Nat) (save : Nat)
  /-- DESTROY_CONTEXT (R445). -/
  | destroyContext (tag : Nat) (ctx : Nat)
  /-- MAP (R446). -/
  | map (tag : Nat) (ctx : Nat) (kind : Nat) (idx : Nat) (e : BitVec 256)
  /-- LOAD_IMAGE (R445). -/
  | loadImage (tag : Nat) (ctx : Nat) (core : Nat) (addr : Nat) (data : List (BitVec 8))
  /-- LAUNCH (R374). -/
  | launch (tag : Nat) (ctx : Nat) (va : Nat)
  /-- WAIT (R445). -/
  | wait (tag : Nat) (ctx : Nat) (c : Nat) (ctr : Nat) (thr : Nat) (tmo : Nat)
  /-- WAIT_TIMEOUT (R445). -/
  | waitTimeout (tag : Nat)
  /-- READ_COUNTERS (R445). -/
  | readCounters (tag : Nat) (ctx : Nat) (pairs : List (Nat × Nat))
  /-- TELEMETRY (R445). -/
  | telemetry (tag : Nat) (ctx : Nat) (k : Nat)
  /-- DEBUG_ATTACH (R473). -/
  | debugAttach (tag : Nat) (ctx : Nat) (level : Nat) (cred : Nat)
  /-- QUICK_HALT (R474). -/
  | quickHalt (tag : Nat) (ses : Nat) (rect : BitVec 64)
  /-- SETTLED_HALT (R475). -/
  | settledHalt (tag : Nat) (ses : Nat) (rect : BitVec 64)
  /-- DEBUG_READ (R473). -/
  | debugRead (tag : Nat) (ses : Nat) (c : Nat) (addr : Nat) (len : Nat)
  /-- DEBUG_WRITE (R476). -/
  | debugWrite (tag : Nat) (ses : Nat) (c : Nat) (addr : Nat) (data : List (BitVec 8))
  /-- DEBUG_RESUME (R477). -/
  | debugResume (tag : Nat) (ses : Nat) (rect : BitVec 64)
  /-- DEBUG_DETACH (R473). -/
  | debugDetach (tag : Nat) (ses : Nat)
  /-- DEBUG_TRACE (R479). -/
  | debugTrace (tag : Nat) (ses : Nat) (k : Nat)
  /-- PARITY_UPDATE (R457). -/
  | parityUpdate (f : Nat)
  /-- PATROL_SCRUB (R461). -/
  | patrolScrub (line : Nat)
  /-- SRAM_SCRUB (R463). -/
  | sramScrub (c : Nat) (word : Nat)
  /-- CORE_RETIREMENT (R468). -/
  | coreRetirement (p : Nat)
  /-- SUBARRAY_GATE (R186). -/
  | subarrayGate (c : Nat) (n : Nat)
  /-- SUBARRAY_WAKE (R186). -/
  | subarrayWake (c : Nat) (n : Nat)
  /-- MATRIX_STEP_START (R176). -/
  | matrixStepStart (c : Nat) (m : Nat)
  /-- MATRIX_STEP_END (R180). -/
  | matrixStepEnd (c : Nat)
  /-- GANG_FORM (R182). -/
  | gangForm (c : Nat)
  /-- CODEBOOK_LOAD_START (R165). -/
  | codebookLoadStart (c : Nat)
  /-- CODEBOOK_LOAD_DONE (R165). -/
  | codebookLoadDone (c : Nat)
  /-- CORE_PARK (R483). -/
  | corePark (c : Nat)
  /-- CORE_UNPARK (R483). -/
  | coreUnpark (c : Nat)
  /-- CORE_POWER_OFF (R483). -/
  | corePowerOff (c : Nat)
  /-- PACKAGE_IDLE (R483). -/
  | packageIdle
  /-- PACKAGE_WAKE (R483). -/
  | packageWake
  /-- POWER_ON_RESET (R485). -/
  | powerOnReset
  /-- LIFECYCLE_MOVE (R480). -/
  | lifecycleMove (cred : Nat)
  /-- PACKAGE_ID_WRITE (R436). -/
  | packageIdWrite (v : Nat)
  /-- POWER_CAP (R486). -/
  | powerCap (v : Nat)
  /-- ATTESTATION (R486). -/
  | attestation (nonce : Nat)
  /-- ACCUMULATOR_INSTRUCTION_DONE (R185). -/
  | accumulatorInstructionDone (c : Nat) (m : Nat)
  /-- PATH_EFFECT_ACKNOWLEDGEMENT (R280). -/
  | pathEffectAcknowledgement (f : Nat)
  /-- INTERFACE_RETRY (R475). -/
  | interfaceRetry (f : Nat)
  /-- MIRROR_GRANULE_COPY (R458). -/
  | mirrorGranuleCopy (g : Nat)
deriving DecidableEq, Repr

end Sys2Proof
end

