-- ==== Sys2Proof/WellFormed.lean ====
section
/-!
DEFINITION. Which instruction terms are well formed: the checks of fields that are left after Syntax has fixed
the widths.  Each named check stands in Machine/Formats.lean with the rule it follows.  An event term is well
formed when the core and seat it names exist (R2, R4, R7).
-/
namespace Sys2Proof

/-- The checks of steps 1 to 3 of R87 on an instruction's free fields. -/
def Instr.wf : Instr → Bool
  | .nop _ => true
  | .nopT1 _ _ => true
  | .nopT2 _ _ => true
  | .nopT3 _ _ => true
  | .j _ _ => true
  | .jal _ _ _ => true
  | .jr _ _ => true
  | .beq _ _ _ _ => true
  | .bne _ _ _ _ => true
  | .blt _ _ _ _ => true
  | .bge _ _ _ _ => true
  | .bltn _ _ _ _ => true
  | .bgen _ _ _ _ => true
  | .loop _ _ _ => true
  | .hend _ => true
  | .chunk _ => true
  | .trap _ _ => true
  | .trapArg _ _ _ => true
  | .sysret _ => true
  | .addR _ _ _ _ _ => true
  | .addI _ _ _ _ _ => true
  | .subR _ _ _ _ _ => true
  | .subI _ _ _ _ _ => true
  | .mulR _ _ _ _ _ => true
  | .mulI _ _ _ _ _ => true
  | .mulhR _ _ _ _ _ _ => true
  | .mulhI _ _ _ _ _ _ => true
  | .divR _ _ _ _ _ _ => true
  | .divI _ _ _ _ _ _ => true
  | .remR _ _ _ _ _ _ => true
  | .remI _ _ _ _ _ _ => true
  | .andR _ _ _ _ _ => true
  | .andI _ _ _ _ _ => true
  | .orR _ _ _ _ _ => true
  | .orI _ _ _ _ _ => true
  | .xorR _ _ _ _ _ => true
  | .xorI _ _ _ _ _ => true
  | .andnR _ _ _ _ _ => true
  | .andnI _ _ _ _ _ => true
  | .shlR _ _ _ _ _ => true
  | .shlI _ _ _ _ _ => true
  | .shrR _ _ _ _ _ => true
  | .shrI _ _ _ _ _ => true
  | .sraR _ _ _ _ _ => true
  | .sraI _ _ _ _ _ => true
  | .minR _ _ _ _ _ _ => true
  | .minI _ _ _ _ _ _ => true
  | .maxR _ _ _ _ _ _ => true
  | .maxI _ _ _ _ _ _ => true
  | .sel _ _ _ _ _ => true
  | .li16 _ _ _ => true
  | .li32 _ _ _ => true
  | .li64 _ _ _ => true
  | .lih _ _ _ => true
  | .cmpR _ _ _ _ k => Machine.compareCodeOk k
  | .cmpI _ _ _ k _ => Machine.compareCodeOk k
  | .clz _ _ _ _ => true
  | .ctz _ _ _ _ => true
  | .popc _ _ _ _ => true
  | .sext _ _ _ w => Machine.extendWidthOk w
  | .zext _ _ _ w => Machine.extendWidthOk w
  | .bfx _ _ _ pos len _ => Machine.bitFieldOk pos len
  | .bfi _ _ _ pos len => Machine.bitFieldOk pos len
  | .paddR _ _ _ _ => true
  | .paddI _ _ _ _ => true
  | .psubR _ _ _ _ => true
  | .psubI _ _ _ _ => true
  | .ptag _ _ _ _ _ => true
  | .pget _ _ _ _ => true
  | .fadd _ _ _ _ _ rnd _ => Machine.roundOk rnd
  | .fsub _ _ _ _ _ rnd _ => Machine.roundOk rnd
  | .fmul _ _ _ _ _ rnd _ => Machine.roundOk rnd
  | .fmin _ _ _ _ _ => true
  | .fmax _ _ _ _ _ => true
  | .ffma _ _ _ _ _ _ rnd _ => Machine.roundOk rnd
  | .fdiv _ _ _ _ _ rnd _ => Machine.roundOk rnd
  | .fsqrt _ _ _ _ rnd _ => Machine.roundOk rnd
  | .fcmp _ _ _ _ _ _ => true
  | .fcvt _ _ _ dst rnd _ src => Machine.scalarConvertOk dst src && Machine.roundOk rnd
  | .fclass _ _ _ _ => true
  | .ld _ _ _ w _ => Machine.loadWidthOk w
  | .st _ _ _ _ _ => true
  | .ldf _ _ _ _ => true
  | .ldfe _ _ _ _ => true
  | .stf _ _ _ _ => true
  | .sete _ _ _ => true
  | .setf _ _ _ => true
  | .caddR _ _ _ => true
  | .caddI _ _ _ => true
  | .cread _ _ _ => true
  | .waitc _ _ _ => true
  | .cexpectR _ _ _ => true
  | .cexpectI _ _ _ => true
  | .bainitR _ _ _ => true
  | .bainitI _ _ _ => true
  | .barrive _ _ _ => true
  | .badrop _ _ _ => true
  | .trigarm _ _ _ _ _ => true
  | .trigdis _ _ => true
  | .mbcfg _ _ _ _ => true
  | .mbpost _ _ _ => true
  | .mbtake _ _ _ => true
  | .lsamo _ _ _ _ e op => Machine.ownerAtomicOk op e
  | .vadd _ _ _ _ fmt _ rnd _ _ => Machine.laneArithOk fmt rnd
  | .vsub _ _ _ _ fmt _ rnd _ _ => Machine.laneArithOk fmt rnd
  | .vmul _ _ _ _ fmt _ rnd _ _ => Machine.laneArithOk fmt rnd
  | .vmin _ _ _ _ fmt _ _ => Machine.fmtIn fmt 0 10
  | .vmax _ _ _ _ fmt _ _ => Machine.fmtIn fmt 0 10
  | .vfma _ _ _ _ _ fmt _ rnd _ _ => Machine.laneArithOk fmt rnd
  | .vabs _ _ _ fmt _ sat _ => Machine.laneSignOk fmt sat
  | .vneg _ _ _ fmt _ sat _ => Machine.laneSignOk fmt sat
  | .vdiv _ _ _ _ fmt _ rnd _ _ => Machine.fmtIn fmt 7 10 && Machine.roundOk rnd
  | .vrcp _ _ _ fmt _ rnd _ _ => Machine.fmtIn fmt 8 10 && Machine.roundOk rnd
  | .vrsq _ _ _ fmt _ rnd _ _ => Machine.fmtIn fmt 8 10 && Machine.roundOk rnd
  | .vsqrt _ _ _ fmt _ rnd _ _ => Machine.fmtIn fmt 8 10 && Machine.roundOk rnd
  | .vexp2 _ _ _ fmt _ rnd _ _ => Machine.fmtIn fmt 8 10 && Machine.roundOk rnd
  | .vlog2 _ _ _ fmt _ rnd _ _ => Machine.fmtIn fmt 8 10 && Machine.roundOk rnd
  | .vand _ _ _ _ fmt _ _ => Machine.fmtIn fmt 0 6
  | .vor _ _ _ _ fmt _ _ => Machine.fmtIn fmt 0 6
  | .vxor _ _ _ _ fmt _ _ => Machine.fmtIn fmt 0 6
  | .vandn _ _ _ _ fmt _ _ => Machine.fmtIn fmt 0 6
  | .vshl _ _ _ _ fmt _ _ => Machine.fmtIn fmt 0 6
  | .vshr _ _ _ _ fmt _ _ => Machine.fmtIn fmt 0 6
  | .vsra _ _ _ _ fmt _ _ => Machine.fmtIn fmt 0 6
  | .vcmp _ _ _ _ fmt _ k => Machine.laneCompareOk fmt k
  | .vsel _ _ _ _ fmt _ => Machine.fmtIn fmt 0 14
  | .vred _ _ _ fmt _ rnd sat op => Machine.reduceOk fmt rnd sat op
  | .vscan _ _ _ fmt _ rnd sat _ op => Machine.scanOk fmt rnd sat op
  | .vld _ _ _ _ => true
  | .vst _ _ _ _ => true
  | .vldf _ _ _ _ => true
  | .vstf _ _ _ _ => true
  | .vgath _ _ _ _ fmt _ _ => Machine.fmtIn fmt 0 10
  | .vscat _ _ _ _ fmt _ => Machine.fmtIn fmt 0 10
  | .vbcast _ _ _ fmt _ _ => Machine.fmtIn fmt 0 10
  | .vextr _ _ _ _ fmt => Machine.fmtIn fmt 0 10
  | .vperm _ _ _ _ fmt _ _ => Machine.fmtIn fmt 0 14
  | .vcvt _ _ _ dst _ rnd _ src _ part => Machine.laneConvertOk dst src part && Machine.roundOk rnd
  | .vscale _ _ _ _ fmt _ rnd _ _ => Machine.fmtIn fmt 7 10 && Machine.roundOk rnd
  | .vqnt _ d _ e efmt rnd blog src => Machine.quantiseOk efmt src blog && d != e && Machine.quantiseRoundOk efmt rnd
  | .vdqnt _ _ _ _ efmt _ rnd _ blog dst _ => Machine.quantiseOk efmt dst blog && Machine.quantiseRoundOk efmt rnd
  | .vcbdec _ _ _ _ rnd _ w ofmt _ => Machine.codebookDecodeOk ofmt w && Machine.roundOk rnd
  | .vcbdecLoad _ _ => true
  | .vclass _ _ _ fmt _ _ _ => Machine.fmtIn fmt 7 13
  | .qand _ _ _ _ => true
  | .qor _ _ _ _ => true
  | .qxor _ _ _ _ => true
  | .qnot _ _ _ => true
  | .qmov _ _ _ => true
  | .qcnt _ _ _ => true
  | .mma _ _ _ _ fmt _ _ => Machine.matrixFmtOk fmt
  | .mmag _ _ _ _ fmt _ _ wc => Machine.matrixFmtOk fmt && Machine.gangWidthOk wc
  | .dmma _ _ _ _ _ _ => true
  | .ringcfg _ _ _ => true
  | .rpub _ _ _ => true
  | .rstat _ _ _ => true
  | .rreset _ _ => true
  | .sclcfg _ _ _ _ => true
  | .accz _ _ => true
  | .accrd _ _ _ _ => true
  | .accwr _ _ _ _ => true
  | .accscl _ _ _ => true
  | .mgate _ _ _ => true
  | .mwake _ _ => true
  | .mwait _ _ => true
  | .send _ _ b n _ => Machine.payloadOk b n
  | .bqfetch _ _ _ _ _ _ _ => true
  | .bqstore _ _ _ _ _ _ _ => true
  | .bqtile _ _ _ _ _ _ _ => true
  | .bqgath _ _ _ _ _ _ _ => true
  | .bqamo _ _ _ _ _ _ op => Machine.streamerOpOk op
  | .bqcas _ _ _ _ _ _ _ => true
  | .lscopy _ _ _ _ _ _ => true
  | .xcopy _ _ _ _ _ _ _ => true
  | .fence _ scope _ r => Machine.fenceOk scope r
  | .tagalloc _ _ _ => true
  | .tagfree _ _ _ => true
  | .tagbind _ _ _ => true
  | .meet _ _ b n => Machine.operandCountOk b n
  | .exroute _ _ _ _ _ => true
  | .exrepl0 _ _ _ _ => true
  | .exrepl1 _ _ _ _ _ => true
  | .exretire0 _ _ _ _ => true
  | .exretire1 _ _ _ _ => true
  | .exstep0 _ _ _ => true
  | .exstep1 _ _ _ _ => true
  | .exstat _ _ _ _ => true
  | .exlook _ _ _ _ => true
  | .gfork _ _ _ _ => true
  | .greward _ _ _ => true
  | .gcancel _ _ _ => true
  | .gcfgConfigure _ _ b => b != 0
  | .gcfgRelease _ _ c => c != 0
  | .gstat _ _ _ _ => true
  | .tspawn _ _ _ => true
  | .tspawnat _ _ _ _ => true
  | .qpush _ _ _ => true
  | .qpop _ _ _ _ => true
  | .wlpush _ _ => true
  | .wlpop _ _ _ => true
  | .sysr _ _ num => Machine.readNumberOk num
  | .sysw _ _ num => Machine.writeNumberOk num
  | .seedWrite _ _ => true
  | .hdecideResume _ _ => true
  | .hdecideEndContinuation _ _ => true
  | .hdecideEndLaunch _ _ => true
  | .capr _ _ num => Machine.capabilityOk num
  | .rfcfg _ _ op ty w => Machine.raftersOk op ty w
  | .tlbinv _ _ _ => true
  | .ctxsave _ _ _ _ => true
  | .ctxload _ _ _ _ => true
  | .lpmap _ _ _ _ => true
  | .vfcfgConfigure _ _ _ _ => true
  | .vfcfgActivate _ _ _ _ => true
  | .vfcfgDeactivate _ _ _ _ => true
  | .winset _ _ _ _ _ _ => true
  | .winclr _ _ => true
  | .parkPoint c k => Machine.coreExists c && Machine.seatExists k
  | .deferredResultLanding _ => true
  | .fullWaitSatisfied c k => Machine.coreExists c && Machine.seatExists k
  | .implicitBoundary c k => Machine.coreExists c && Machine.seatExists k
  | .commitGrant c k => Machine.coreExists c && Machine.seatExists k
  | .budgetExceeded c k => Machine.coreExists c && Machine.seatExists k
  | .conflictAbort c k => Machine.coreExists c && Machine.seatExists k
  | .seatTransferTake c k => Machine.coreExists c && Machine.seatExists k
  | .seatTransferReturn _ => true
  | .seatTakeWork c k => Machine.coreExists c && Machine.seatExists k
  | .priorityPullReturn _ => true
  | .recordReady _ => true
  | .loadLevelling _ => true
  | .levelledRecordArrival _ => true
  | .counterUpdateAtOwner _ => true
  | .waitcArmAtOwner _ => true
  | .triggerArmAtOwner _ => true
  | .lsamoExecute _ => true
  | .mailboxOperation _ => true
  | .messageArrival _ => true
  | .messageQueueRetry _ => true
  | .bqEntry _ => true
  | .bqPacketComplete c _ _ => Machine.coreExists c
  | .bqEntryComplete c _ => Machine.coreExists c
  | .sourceEndAdd c _ => Machine.coreExists c
  | .region3Delivery _ => true
  | .streamerAtomic c _ => Machine.coreExists c
  | .translationWalk _ => true
  | .lineFetch c k => Machine.coreExists c && Machine.seatExists k
  | .raftersResult _ => true
  | .horizonReduction _ => true
  | .horizonResult _ => true
  | .taskCommit c k => Machine.coreExists c && Machine.seatExists k
  | .taskRerun c k => Machine.coreExists c && Machine.seatExists k
  | .tagfreeAtLarder _ => true
  | .tagPurge _ => true
  | .bindArrival _ => true
  | .meetOperandArrival _ => true
  | .meetCreationCheck c _ => Machine.coreExists c
  | .meetNakRetry c _ => Machine.coreExists c
  | .meetExpiry c _ => Machine.coreExists c
  | .routeStart c _ => Machine.coreExists c
  | .entryCacheFill _ => true
  | .expertClaim _ => true
  | .claimReply _ => true
  | .metadataLanding _ => true
  | .directoryOperation _ => true
  | .setBound _ => true
  | .directoryCountAdd _ => true
  | .gforkTaken _ => true
  | .grewardTaken _ => true
  | .gcancelTaken _ => true
  | .gcfgTaken _ => true
  | .gstatTaken _ => true
  | .groupDeadline c _ => Machine.coreExists c
  | .groupResultWrite _ => true
  | .initialRecordSend _ => true
  | .larderPush _ => true
  | .larderPop _ => true
  | .priorityPull _ => true
  | .queueExtension _ => true
  | .energyBudgetReached _ => true
  | .droopEvent c => Machine.coreExists c
  | .sliceEnd c k => Machine.coreExists c && Machine.seatExists k
  | .hallServiceEntry c k => Machine.coreExists c && Machine.seatExists k
  | .trapRecordPost _ => true
  | .deferredTrapArrival _ => true
  | .stopArrival _ => true
  | .coreSave c => Machine.coreExists c
  | .saveFailed c _ => Machine.coreExists c
  | .contextRestore _ => true
  | .xcopyStreamEntry _ => true
  | .xcopyPacketArrival _ => true
  | .xcopyAck _ => true
  | .portDown _ => true
  | .portUp _ => true
  | .createContext _ _ _ _ => true
  | .destroyContext _ _ => true
  | .map _ _ _ _ _ => true
  | .loadImage _ _ _ _ _ => true
  | .launch _ _ _ => true
  | .wait _ _ _ _ _ _ => true
  | .waitTimeout _ => true
  | .readCounters _ _ _ => true
  | .telemetry _ _ _ => true
  | .debugAttach _ _ _ _ => true
  | .quickHalt _ _ _ => true
  | .settledHalt _ _ _ => true
  | .debugRead _ _ _ _ _ => true
  | .debugWrite _ _ _ _ _ => true
  | .debugResume _ _ _ => true
  | .debugDetach _ _ => true
  | .debugTrace _ _ _ => true
  | .parityUpdate _ => true
  | .patrolScrub _ => true
  | .sramScrub c _ => Machine.coreExists c
  | .coreRetirement _ => true
  | .subarrayGate c _ => Machine.coreExists c
  | .subarrayWake c _ => Machine.coreExists c
  | .matrixStepStart c _ => Machine.coreExists c
  | .matrixStepEnd c => Machine.coreExists c
  | .gangForm c => Machine.coreExists c
  | .codebookLoadStart c => Machine.coreExists c
  | .codebookLoadDone c => Machine.coreExists c
  | .corePark c => Machine.coreExists c
  | .coreUnpark c => Machine.coreExists c
  | .corePowerOff c => Machine.coreExists c
  | .packageIdle => true
  | .packageWake => true
  | .powerOnReset => true
  | .lifecycleMove _ => true
  | .packageIdWrite _ => true
  | .powerCap _ => true
  | .attestation _ => true
  | .accumulatorInstructionDone c _ => Machine.coreExists c
  | .pathEffectAcknowledgement _ => true
  | .interfaceRetry _ => true
  | .mirrorGranuleCopy _ => true

/-- The rows of the table that are events, not instructions of a line. -/
def Instr.isEvent : Instr → Bool
  | .nop _ => false
  | .nopT1 _ _ => false
  | .nopT2 _ _ => false
  | .nopT3 _ _ => false
  | .j _ _ => false
  | .jal _ _ _ => false
  | .jr _ _ => false
  | .beq _ _ _ _ => false
  | .bne _ _ _ _ => false
  | .blt _ _ _ _ => false
  | .bge _ _ _ _ => false
  | .bltn _ _ _ _ => false
  | .bgen _ _ _ _ => false
  | .loop _ _ _ => false
  | .hend _ => false
  | .chunk _ => false
  | .trap _ _ => false
  | .trapArg _ _ _ => false
  | .sysret _ => false
  | .addR _ _ _ _ _ => false
  | .addI _ _ _ _ _ => false
  | .subR _ _ _ _ _ => false
  | .subI _ _ _ _ _ => false
  | .mulR _ _ _ _ _ => false
  | .mulI _ _ _ _ _ => false
  | .mulhR _ _ _ _ _ _ => false
  | .mulhI _ _ _ _ _ _ => false
  | .divR _ _ _ _ _ _ => false
  | .divI _ _ _ _ _ _ => false
  | .remR _ _ _ _ _ _ => false
  | .remI _ _ _ _ _ _ => false
  | .andR _ _ _ _ _ => false
  | .andI _ _ _ _ _ => false
  | .orR _ _ _ _ _ => false
  | .orI _ _ _ _ _ => false
  | .xorR _ _ _ _ _ => false
  | .xorI _ _ _ _ _ => false
  | .andnR _ _ _ _ _ => false
  | .andnI _ _ _ _ _ => false
  | .shlR _ _ _ _ _ => false
  | .shlI _ _ _ _ _ => false
  | .shrR _ _ _ _ _ => false
  | .shrI _ _ _ _ _ => false
  | .sraR _ _ _ _ _ => false
  | .sraI _ _ _ _ _ => false
  | .minR _ _ _ _ _ _ => false
  | .minI _ _ _ _ _ _ => false
  | .maxR _ _ _ _ _ _ => false
  | .maxI _ _ _ _ _ _ => false
  | .sel _ _ _ _ _ => false
  | .li16 _ _ _ => false
  | .li32 _ _ _ => false
  | .li64 _ _ _ => false
  | .lih _ _ _ => false
  | .cmpR _ _ _ _ _ => false
  | .cmpI _ _ _ _ _ => false
  | .clz _ _ _ _ => false
  | .ctz _ _ _ _ => false
  | .popc _ _ _ _ => false
  | .sext _ _ _ _ => false
  | .zext _ _ _ _ => false
  | .bfx _ _ _ _ _ _ => false
  | .bfi _ _ _ _ _ => false
  | .paddR _ _ _ _ => false
  | .paddI _ _ _ _ => false
  | .psubR _ _ _ _ => false
  | .psubI _ _ _ _ => false
  | .ptag _ _ _ _ _ => false
  | .pget _ _ _ _ => false
  | .fadd _ _ _ _ _ _ _ => false
  | .fsub _ _ _ _ _ _ _ => false
  | .fmul _ _ _ _ _ _ _ => false
  | .fmin _ _ _ _ _ => false
  | .fmax _ _ _ _ _ => false
  | .ffma _ _ _ _ _ _ _ _ => false
  | .fdiv _ _ _ _ _ _ _ => false
  | .fsqrt _ _ _ _ _ _ => false
  | .fcmp _ _ _ _ _ _ => false
  | .fcvt _ _ _ _ _ _ _ => false
  | .fclass _ _ _ _ => false
  | .ld _ _ _ _ _ => false
  | .st _ _ _ _ _ => false
  | .ldf _ _ _ _ => false
  | .ldfe _ _ _ _ => false
  | .stf _ _ _ _ => false
  | .sete _ _ _ => false
  | .setf _ _ _ => false
  | .caddR _ _ _ => false
  | .caddI _ _ _ => false
  | .cread _ _ _ => false
  | .waitc _ _ _ => false
  | .cexpectR _ _ _ => false
  | .cexpectI _ _ _ => false
  | .bainitR _ _ _ => false
  | .bainitI _ _ _ => false
  | .barrive _ _ _ => false
  | .badrop _ _ _ => false
  | .trigarm _ _ _ _ _ => false
  | .trigdis _ _ => false
  | .mbcfg _ _ _ _ => false
  | .mbpost _ _ _ => false
  | .mbtake _ _ _ => false
  | .lsamo _ _ _ _ _ _ => false
  | .vadd _ _ _ _ _ _ _ _ _ => false
  | .vsub _ _ _ _ _ _ _ _ _ => false
  | .vmul _ _ _ _ _ _ _ _ _ => false
  | .vmin _ _ _ _ _ _ _ => false
  | .vmax _ _ _ _ _ _ _ => false
  | .vfma _ _ _ _ _ _ _ _ _ _ => false
  | .vabs _ _ _ _ _ _ _ => false
  | .vneg _ _ _ _ _ _ _ => false
  | .vdiv _ _ _ _ _ _ _ _ _ => false
  | .vrcp _ _ _ _ _ _ _ _ => false
  | .vrsq _ _ _ _ _ _ _ _ => false
  | .vsqrt _ _ _ _ _ _ _ _ => false
  | .vexp2 _ _ _ _ _ _ _ _ => false
  | .vlog2 _ _ _ _ _ _ _ _ => false
  | .vand _ _ _ _ _ _ _ => false
  | .vor _ _ _ _ _ _ _ => false
  | .vxor _ _ _ _ _ _ _ => false
  | .vandn _ _ _ _ _ _ _ => false
  | .vshl _ _ _ _ _ _ _ => false
  | .vshr _ _ _ _ _ _ _ => false
  | .vsra _ _ _ _ _ _ _ => false
  | .vcmp _ _ _ _ _ _ _ => false
  | .vsel _ _ _ _ _ _ => false
  | .vred _ _ _ _ _ _ _ _ => false
  | .vscan _ _ _ _ _ _ _ _ _ => false
  | .vld _ _ _ _ => false
  | .vst _ _ _ _ => false
  | .vldf _ _ _ _ => false
  | .vstf _ _ _ _ => false
  | .vgath _ _ _ _ _ _ _ => false
  | .vscat _ _ _ _ _ _ => false
  | .vbcast _ _ _ _ _ _ => false
  | .vextr _ _ _ _ _ => false
  | .vperm _ _ _ _ _ _ _ => false
  | .vcvt _ _ _ _ _ _ _ _ _ _ => false
  | .vscale _ _ _ _ _ _ _ _ _ => false
  | .vqnt _ _ _ _ _ _ _ _ => false
  | .vdqnt _ _ _ _ _ _ _ _ _ _ _ => false
  | .vcbdec _ _ _ _ _ _ _ _ _ => false
  | .vcbdecLoad _ _ => false
  | .vclass _ _ _ _ _ _ _ => false
  | .qand _ _ _ _ => false
  | .qor _ _ _ _ => false
  | .qxor _ _ _ _ => false
  | .qnot _ _ _ => false
  | .qmov _ _ _ => false
  | .qcnt _ _ _ => false
  | .mma _ _ _ _ _ _ _ => false
  | .mmag _ _ _ _ _ _ _ _ => false
  | .dmma _ _ _ _ _ _ => false
  | .ringcfg _ _ _ => false
  | .rpub _ _ _ => false
  | .rstat _ _ _ => false
  | .rreset _ _ => false
  | .sclcfg _ _ _ _ => false
  | .accz _ _ => false
  | .accrd _ _ _ _ => false
  | .accwr _ _ _ _ => false
  | .accscl _ _ _ => false
  | .mgate _ _ _ => false
  | .mwake _ _ => false
  | .mwait _ _ => false
  | .send _ _ _ _ _ => false
  | .bqfetch _ _ _ _ _ _ _ => false
  | .bqstore _ _ _ _ _ _ _ => false
  | .bqtile _ _ _ _ _ _ _ => false
  | .bqgath _ _ _ _ _ _ _ => false
  | .bqamo _ _ _ _ _ _ _ => false
  | .bqcas _ _ _ _ _ _ _ => false
  | .lscopy _ _ _ _ _ _ => false
  | .xcopy _ _ _ _ _ _ _ => false
  | .fence _ _ _ _ => false
  | .tagalloc _ _ _ => false
  | .tagfree _ _ _ => false
  | .tagbind _ _ _ => false
  | .meet _ _ _ _ => false
  | .exroute _ _ _ _ _ => false
  | .exrepl0 _ _ _ _ => false
  | .exrepl1 _ _ _ _ _ => false
  | .exretire0 _ _ _ _ => false
  | .exretire1 _ _ _ _ => false
  | .exstep0 _ _ _ => false
  | .exstep1 _ _ _ _ => false
  | .exstat _ _ _ _ => false
  | .exlook _ _ _ _ => false
  | .gfork _ _ _ _ => false
  | .greward _ _ _ => false
  | .gcancel _ _ _ => false
  | .gcfgConfigure _ _ _ => false
  | .gcfgRelease _ _ _ => false
  | .gstat _ _ _ _ => false
  | .tspawn _ _ _ => false
  | .tspawnat _ _ _ _ => false
  | .qpush _ _ _ => false
  | .qpop _ _ _ _ => false
  | .wlpush _ _ => false
  | .wlpop _ _ _ => false
  | .sysr _ _ _ => false
  | .sysw _ _ _ => false
  | .seedWrite _ _ => false
  | .hdecideResume _ _ => false
  | .hdecideEndContinuation _ _ => false
  | .hdecideEndLaunch _ _ => false
  | .capr _ _ _ => false
  | .rfcfg _ _ _ _ _ => false
  | .tlbinv _ _ _ => false
  | .ctxsave _ _ _ _ => false
  | .ctxload _ _ _ _ => false
  | .lpmap _ _ _ _ => false
  | .vfcfgConfigure _ _ _ _ => false
  | .vfcfgActivate _ _ _ _ => false
  | .vfcfgDeactivate _ _ _ _ => false
  | .winset _ _ _ _ _ _ => false
  | .winclr _ _ => false
  | .parkPoint _ _ => true
  | .deferredResultLanding _ => true
  | .fullWaitSatisfied _ _ => true
  | .implicitBoundary _ _ => true
  | .commitGrant _ _ => true
  | .budgetExceeded _ _ => true
  | .conflictAbort _ _ => true
  | .seatTransferTake _ _ => true
  | .seatTransferReturn _ => true
  | .seatTakeWork _ _ => true
  | .priorityPullReturn _ => true
  | .recordReady _ => true
  | .loadLevelling _ => true
  | .levelledRecordArrival _ => true
  | .counterUpdateAtOwner _ => true
  | .waitcArmAtOwner _ => true
  | .triggerArmAtOwner _ => true
  | .lsamoExecute _ => true
  | .mailboxOperation _ => true
  | .messageArrival _ => true
  | .messageQueueRetry _ => true
  | .bqEntry _ => true
  | .bqPacketComplete _ _ _ => true
  | .bqEntryComplete _ _ => true
  | .sourceEndAdd _ _ => true
  | .region3Delivery _ => true
  | .streamerAtomic _ _ => true
  | .translationWalk _ => true
  | .lineFetch _ _ => true
  | .raftersResult _ => true
  | .horizonReduction _ => true
  | .horizonResult _ => true
  | .taskCommit _ _ => true
  | .taskRerun _ _ => true
  | .tagfreeAtLarder _ => true
  | .tagPurge _ => true
  | .bindArrival _ => true
  | .meetOperandArrival _ => true
  | .meetCreationCheck _ _ => true
  | .meetNakRetry _ _ => true
  | .meetExpiry _ _ => true
  | .routeStart _ _ => true
  | .entryCacheFill _ => true
  | .expertClaim _ => true
  | .claimReply _ => true
  | .metadataLanding _ => true
  | .directoryOperation _ => true
  | .setBound _ => true
  | .directoryCountAdd _ => true
  | .gforkTaken _ => true
  | .grewardTaken _ => true
  | .gcancelTaken _ => true
  | .gcfgTaken _ => true
  | .gstatTaken _ => true
  | .groupDeadline _ _ => true
  | .groupResultWrite _ => true
  | .initialRecordSend _ => true
  | .larderPush _ => true
  | .larderPop _ => true
  | .priorityPull _ => true
  | .queueExtension _ => true
  | .energyBudgetReached _ => true
  | .droopEvent _ => true
  | .sliceEnd _ _ => true
  | .hallServiceEntry _ _ => true
  | .trapRecordPost _ => true
  | .deferredTrapArrival _ => true
  | .stopArrival _ => true
  | .coreSave _ => true
  | .saveFailed _ _ => true
  | .contextRestore _ => true
  | .xcopyStreamEntry _ => true
  | .xcopyPacketArrival _ => true
  | .xcopyAck _ => true
  | .portDown _ => true
  | .portUp _ => true
  | .createContext _ _ _ _ => true
  | .destroyContext _ _ => true
  | .map _ _ _ _ _ => true
  | .loadImage _ _ _ _ _ => true
  | .launch _ _ _ => true
  | .wait _ _ _ _ _ _ => true
  | .waitTimeout _ => true
  | .readCounters _ _ _ => true
  | .telemetry _ _ _ => true
  | .debugAttach _ _ _ _ => true
  | .quickHalt _ _ _ => true
  | .settledHalt _ _ _ => true
  | .debugRead _ _ _ _ _ => true
  | .debugWrite _ _ _ _ _ => true
  | .debugResume _ _ _ => true
  | .debugDetach _ _ => true
  | .debugTrace _ _ _ => true
  | .parityUpdate _ => true
  | .patrolScrub _ => true
  | .sramScrub _ _ => true
  | .coreRetirement _ => true
  | .subarrayGate _ _ => true
  | .subarrayWake _ _ => true
  | .matrixStepStart _ _ => true
  | .matrixStepEnd _ => true
  | .gangForm _ => true
  | .codebookLoadStart _ => true
  | .codebookLoadDone _ => true
  | .corePark _ => true
  | .coreUnpark _ => true
  | .corePowerOff _ => true
  | .packageIdle => true
  | .packageWake => true
  | .powerOnReset => true
  | .lifecycleMove _ => true
  | .packageIdWrite _ => true
  | .powerCap _ => true
  | .attestation _ => true
  | .accumulatorInstructionDone _ _ => true
  | .pathEffectAcknowledgement _ => true
  | .interfaceRetry _ => true
  | .mirrorGranuleCopy _ => true

end Sys2Proof
end

