-- ==== Sys2Proof/Decode.lean ====
section
/-!
DEFINITION. Lines, heads and tails (R19 to R30), the decoder from a head and its tail to an instruction, total
and rejecting by name, and the encoder written from the same tables (R89 to R99).

A head is a 16-bit number and a tail a number of 0, 16, 32 or 64 bits; both are held as Nat, and a field is cut
out by division and remainder, so that both directions are plain arithmetic.
-/
namespace Sys2Proof

/-- Bits lo + w - 1 down to lo of a number, as a bit vector. -/
def fld (t lo w : Nat) : BitVec w := BitVec.ofNat w (t / 2 ^ lo)

/-- Bits lo + w - 1 down to lo of a number, as a number. -/
def part (t lo w : Nat) : Nat := t / 2 ^ lo % 2 ^ w

/-- Bit lo of a number. -/
def flag (t lo : Nat) : Bool := t / 2 ^ lo % 2 == 1

/-- An instruction's words: its head (R24) and its tail (R25), the halfword at the lowest address lowest (R20). -/
structure Words where
  head : Nat
  tail : Nat
deriving DecidableEq, Repr

/-- Why a head and tail are no instruction: the steps of R87 that raise illegal-instruction. -/
inductive DecodeError where
  /-- the head's own tail would reach into the head area (R21, R87 step 1) -/
  | malformed
  /-- MAJ is 0x0F or 0x6F, or the head is a bent END (R24, R30, R87 step 1) -/
  | reservedMajor
  /-- T is not among the values the major accepts (R28, R87 step 2) -/
  | tailLength
  /-- a minor, selector, format, register or reserved field is not listed (R27, R30, R87 step 3) -/
  | field
deriving DecidableEq, Repr

/-- The tail length of T in halfwords (R19). -/
def tailHalfwords (tl : Nat) : Nat :=
  match tl with
  | 0 => 0
  | 1 => 1
  | 2 => 2
  | _ => 4

/-- The tail lengths T that a major accepts (R28, R89 to R99); NOP accepts every one. -/
def tailAccepted (maj tl : Nat) : Bool :=
  match maj with
  | 0x0 => tl ≤ 3
  | 0x1 | 0x2 | 0x4 | 0x5 | 0x6 | 0x7 | 0x8 | 0x9 | 0x1f | 0x21 | 0x24 | 0x25 | 0x28 | 0x30 | 0x31 | 0x32 | 0x33 | 0x34 | 0x40 | 0x41 | 0x42 | 0x44 | 0x45 | 0x46 | 0x47 | 0x48 | 0x49 | 0x4a | 0x4b | 0x4c | 0x4d | 0x4e | 0x4f | 0x50 | 0x51 | 0x52 | 0x53 | 0x56 | 0x58 | 0x5a | 0x5e | 0x60 | 0x61 | 0x62 | 0x68 | 0x69 | 0x70 | 0x79 | 0x7b | 0x7c => tl == 2
  | 0x3 | 0xb | 0xc | 0xe | 0x66 | 0x67 | 0x6b | 0x6e => tl == 0
  | 0xa | 0x23 | 0x29 | 0x2d | 0x2f | 0x35 | 0x37 | 0x38 | 0x3b | 0x3c | 0x57 | 0x5f | 0x63 | 0x64 | 0x65 | 0x6a | 0x6c | 0x6d | 0x73 | 0x74 | 0x78 | 0x7a | 0x7e => tl == 1
  | 0xd => tl == 0 || tl == 1
  | 0x10 | 0x11 | 0x12 | 0x13 | 0x14 | 0x15 | 0x16 | 0x17 | 0x18 | 0x19 | 0x1a | 0x1b | 0x1c | 0x1d | 0x1e | 0x22 | 0x26 | 0x27 | 0x36 | 0x39 | 0x3a => tl == 1 || tl == 2
  | 0x20 => tl == 1 || tl == 2 || tl == 3
  | 0x2a | 0x2b | 0x2c | 0x2e | 0x3d | 0x3e | 0x3f | 0x43 | 0x54 | 0x55 | 0x59 | 0x5b | 0x5c | 0x5d | 0x71 | 0x72 | 0x75 | 0x76 | 0x77 | 0x7d | 0x7f => tl == 3
  | _ => false

/-- Group 0 of the opcode map (R89): head parts and tail to an instruction. -/
def decodeGroup0 (sw : Bool) (maj tl a t : Nat) : Option Instr :=
  match maj, tl with
  | 0x0, 0 =>
    if part a 0 6 = 1 then
      some (.nop sw)
    else none
  | 0x0, 1 =>
    if part a 0 6 = 1 then
      some (.nopT1 sw (fld t 0 16))
    else none
  | 0x0, 2 =>
    if part a 0 6 = 1 then
      some (.nopT2 sw (fld t 0 32))
    else none
  | 0x0, 3 =>
    if part a 0 6 = 1 then
      some (.nopT3 sw (fld t 0 64))
    else none
  | 0x1, 2 =>
    if part a 0 6 = 0 then
      some (.j sw (fld t 0 32))
    else none
  | 0x2, 2 =>
    some (.jal sw (fld a 0 6) (fld t 0 32))
  | 0x3, 0 =>
    some (.jr sw (fld a 0 6))
  | 0x4, 2 =>
    if part t 0 1 = 0 then
      some (.beq sw (fld a 0 6) (fld t 26 6) (fld t 1 25))
    else none
  | 0x5, 2 =>
    if part t 0 1 = 0 then
      some (.bne sw (fld a 0 6) (fld t 26 6) (fld t 1 25))
    else none
  | 0x6, 2 =>
    if part t 0 1 = 0 then
      some (.blt sw (fld a 0 6) (fld t 26 6) (fld t 1 25))
    else none
  | 0x7, 2 =>
    if part t 0 1 = 0 then
      some (.bge sw (fld a 0 6) (fld t 26 6) (fld t 1 25))
    else none
  | 0x8, 2 =>
    if part t 0 1 = 0 then
      some (.bltn sw (fld a 0 6) (fld t 26 6) (fld t 1 25))
    else none
  | 0x9, 2 =>
    if part t 0 1 = 0 then
      some (.bgen sw (fld a 0 6) (fld t 26 6) (fld t 1 25))
    else none
  | 0xa, 1 =>
    some (.loop sw (fld a 0 6) (fld t 0 16))
  | 0xb, 0 =>
    if part a 0 6 = 0 then
      some (.hend sw)
    else none
  | 0xc, 0 =>
    if part a 0 6 = 0 then
      some (.chunk sw)
    else none
  | 0xd, 0 =>
    some (.trap sw (fld a 0 6))
  | 0xd, 1 =>
    some (.trapArg sw (fld a 0 6) (fld t 0 16))
  | 0xe, 0 =>
    if part a 0 6 = 0 then
      some (.sysret sw)
    else none
  | _, _ => none

/-- Group 1 of the opcode map (R89): head parts and tail to an instruction. -/
def decodeGroup1 (sw : Bool) (maj tl a t : Nat) : Option Instr :=
  match maj, tl with
  | 0x10, 1 =>
    if part t 3 1 = 0 ∧ part t 0 2 = 0 then
      some (.addR sw (fld a 0 6) (fld t 10 6) (fld t 4 6) (flag t 2))
    else none
  | 0x10, 2 =>
    if part t 25 1 = 0 ∧ part t 22 2 = 0 then
      some (.addI sw (fld a 0 6) (fld t 26 6) (flag t 24) (fld t 0 22))
    else none
  | 0x11, 1 =>
    if part t 3 1 = 0 ∧ part t 0 2 = 0 then
      some (.subR sw (fld a 0 6) (fld t 10 6) (fld t 4 6) (flag t 2))
    else none
  | 0x11, 2 =>
    if part t 25 1 = 0 ∧ part t 22 2 = 0 then
      some (.subI sw (fld a 0 6) (fld t 26 6) (flag t 24) (fld t 0 22))
    else none
  | 0x12, 1 =>
    if part t 3 1 = 0 ∧ part t 0 2 = 0 then
      some (.mulR sw (fld a 0 6) (fld t 10 6) (fld t 4 6) (flag t 2))
    else none
  | 0x12, 2 =>
    if part t 25 1 = 0 ∧ part t 22 2 = 0 then
      some (.mulI sw (fld a 0 6) (fld t 26 6) (flag t 24) (fld t 0 22))
    else none
  | 0x13, 1 =>
    if part t 3 1 = 0 ∧ part t 1 1 = 0 then
      some (.mulhR sw (fld a 0 6) (fld t 10 6) (fld t 4 6) (flag t 2) (flag t 0))
    else none
  | 0x13, 2 =>
    if part t 25 1 = 0 ∧ part t 23 1 = 0 then
      some (.mulhI sw (fld a 0 6) (fld t 26 6) (flag t 24) (flag t 22) (fld t 0 22))
    else none
  | 0x14, 1 =>
    if part t 3 1 = 0 ∧ part t 1 1 = 0 then
      some (.divR sw (fld a 0 6) (fld t 10 6) (fld t 4 6) (flag t 2) (flag t 0))
    else none
  | 0x14, 2 =>
    if part t 25 1 = 0 ∧ part t 23 1 = 0 then
      some (.divI sw (fld a 0 6) (fld t 26 6) (flag t 24) (flag t 22) (fld t 0 22))
    else none
  | 0x15, 1 =>
    if part t 3 1 = 0 ∧ part t 1 1 = 0 then
      some (.remR sw (fld a 0 6) (fld t 10 6) (fld t 4 6) (flag t 2) (flag t 0))
    else none
  | 0x15, 2 =>
    if part t 25 1 = 0 ∧ part t 23 1 = 0 then
      some (.remI sw (fld a 0 6) (fld t 26 6) (flag t 24) (flag t 22) (fld t 0 22))
    else none
  | 0x16, 1 =>
    if part t 3 1 = 0 ∧ part t 0 2 = 0 then
      some (.andR sw (fld a 0 6) (fld t 10 6) (fld t 4 6) (flag t 2))
    else none
  | 0x16, 2 =>
    if part t 25 1 = 0 ∧ part t 22 2 = 0 then
      some (.andI sw (fld a 0 6) (fld t 26 6) (flag t 24) (fld t 0 22))
    else none
  | 0x17, 1 =>
    if part t 3 1 = 0 ∧ part t 0 2 = 0 then
      some (.orR sw (fld a 0 6) (fld t 10 6) (fld t 4 6) (flag t 2))
    else none
  | 0x17, 2 =>
    if part t 25 1 = 0 ∧ part t 22 2 = 0 then
      some (.orI sw (fld a 0 6) (fld t 26 6) (flag t 24) (fld t 0 22))
    else none
  | 0x18, 1 =>
    if part t 3 1 = 0 ∧ part t 0 2 = 0 then
      some (.xorR sw (fld a 0 6) (fld t 10 6) (fld t 4 6) (flag t 2))
    else none
  | 0x18, 2 =>
    if part t 25 1 = 0 ∧ part t 22 2 = 0 then
      some (.xorI sw (fld a 0 6) (fld t 26 6) (flag t 24) (fld t 0 22))
    else none
  | 0x19, 1 =>
    if part t 3 1 = 0 ∧ part t 0 2 = 0 then
      some (.andnR sw (fld a 0 6) (fld t 10 6) (fld t 4 6) (flag t 2))
    else none
  | 0x19, 2 =>
    if part t 25 1 = 0 ∧ part t 22 2 = 0 then
      some (.andnI sw (fld a 0 6) (fld t 26 6) (flag t 24) (fld t 0 22))
    else none
  | 0x1a, 1 =>
    if part t 3 1 = 0 ∧ part t 0 2 = 0 then
      some (.shlR sw (fld a 0 6) (fld t 10 6) (fld t 4 6) (flag t 2))
    else none
  | 0x1a, 2 =>
    if part t 25 1 = 0 ∧ part t 22 2 = 0 then
      some (.shlI sw (fld a 0 6) (fld t 26 6) (flag t 24) (fld t 0 22))
    else none
  | 0x1b, 1 =>
    if part t 3 1 = 0 ∧ part t 0 2 = 0 then
      some (.shrR sw (fld a 0 6) (fld t 10 6) (fld t 4 6) (flag t 2))
    else none
  | 0x1b, 2 =>
    if part t 25 1 = 0 ∧ part t 22 2 = 0 then
      some (.shrI sw (fld a 0 6) (fld t 26 6) (flag t 24) (fld t 0 22))
    else none
  | 0x1c, 1 =>
    if part t 3 1 = 0 ∧ part t 0 2 = 0 then
      some (.sraR sw (fld a 0 6) (fld t 10 6) (fld t 4 6) (flag t 2))
    else none
  | 0x1c, 2 =>
    if part t 25 1 = 0 ∧ part t 22 2 = 0 then
      some (.sraI sw (fld a 0 6) (fld t 26 6) (flag t 24) (fld t 0 22))
    else none
  | 0x1d, 1 =>
    if part t 3 1 = 0 ∧ part t 1 1 = 0 then
      some (.minR sw (fld a 0 6) (fld t 10 6) (fld t 4 6) (flag t 2) (flag t 0))
    else none
  | 0x1d, 2 =>
    if part t 25 1 = 0 ∧ part t 23 1 = 0 then
      some (.minI sw (fld a 0 6) (fld t 26 6) (flag t 24) (flag t 22) (fld t 0 22))
    else none
  | 0x1e, 1 =>
    if part t 3 1 = 0 ∧ part t 1 1 = 0 then
      some (.maxR sw (fld a 0 6) (fld t 10 6) (fld t 4 6) (flag t 2) (flag t 0))
    else none
  | 0x1e, 2 =>
    if part t 25 1 = 0 ∧ part t 23 1 = 0 then
      some (.maxI sw (fld a 0 6) (fld t 26 6) (flag t 24) (flag t 22) (fld t 0 22))
    else none
  | 0x1f, 2 =>
    if part t 0 14 = 0 then
      some (.sel sw (fld a 0 6) (fld t 26 6) (fld t 20 6) (fld t 14 6))
    else none
  | _, _ => none

/-- Group 2 of the opcode map (R91): head parts and tail to an instruction. -/
def decodeGroup2 (sw : Bool) (maj tl a t : Nat) : Option Instr :=
  match maj, tl with
  | 0x20, 1 =>
    some (.li16 sw (fld a 0 6) (fld t 0 16))
  | 0x20, 2 =>
    some (.li32 sw (fld a 0 6) (fld t 0 32))
  | 0x20, 3 =>
    some (.li64 sw (fld a 0 6) (fld t 0 64))
  | 0x21, 2 =>
    some (.lih sw (fld a 0 6) (fld t 0 32))
  | 0x22, 1 =>
    if part t 3 1 = 0 then
      some (.cmpR sw (fld a 0 6) (fld t 10 6) (fld t 4 6) (fld t 0 3))
    else none
  | 0x22, 2 =>
    if part t 25 1 = 0 then
      some (.cmpI sw (fld a 0 6) (fld t 26 6) (fld t 22 3) (fld t 0 22))
    else none
  | 0x23, 1 =>
    if part t 6 4 = 0 ∧ part t 0 4 = 0 then
      some (.clz sw (fld a 0 6) (fld t 10 6) (fld t 4 2))
    else
    if part t 6 4 = 0 ∧ part t 0 4 = 1 then
      some (.ctz sw (fld a 0 6) (fld t 10 6) (fld t 4 2))
    else
    if part t 6 4 = 0 ∧ part t 0 4 = 2 then
      some (.popc sw (fld a 0 6) (fld t 10 6) (fld t 4 2))
    else
    if part t 6 4 = 0 ∧ part t 0 4 = 3 then
      some (.sext sw (fld a 0 6) (fld t 10 6) (fld t 4 2))
    else
    if part t 6 4 = 0 ∧ part t 0 4 = 4 then
      some (.zext sw (fld a 0 6) (fld t 10 6) (fld t 4 2))
    else none
  | 0x24, 2 =>
    if part t 0 13 = 0 then
      some (.bfx sw (fld a 0 6) (fld t 26 6) (fld t 20 6) (fld t 14 6) (flag t 13))
    else none
  | 0x25, 2 =>
    if part t 0 14 = 0 then
      some (.bfi sw (fld a 0 6) (fld t 26 6) (fld t 20 6) (fld t 14 6))
    else none
  | 0x26, 1 =>
    if part t 0 4 = 0 then
      some (.paddR sw (fld a 0 6) (fld t 10 6) (fld t 4 6))
    else none
  | 0x26, 2 =>
    if part t 22 4 = 0 then
      some (.paddI sw (fld a 0 6) (fld t 26 6) (fld t 0 22))
    else none
  | 0x27, 1 =>
    if part t 0 4 = 0 then
      some (.psubR sw (fld a 0 6) (fld t 10 6) (fld t 4 6))
    else none
  | 0x27, 2 =>
    if part t 22 4 = 0 then
      some (.psubI sw (fld a 0 6) (fld t 26 6) (fld t 0 22))
    else none
  | 0x28, 2 =>
    if part t 0 16 = 0 then
      some (.ptag sw (fld a 0 6) (fld t 26 6) (fld t 20 6) (fld t 16 4))
    else none
  | 0x29, 1 =>
    if part t 2 8 = 0 then
      some (.pget sw (fld a 0 6) (fld t 10 6) (fld t 0 2))
    else none
  | 0x2a, 3 =>
    if part t 43 9 = 0 ∧ part t 39 3 = 0 ∧ part t 35 1 = 0 ∧ part t 0 34 = 0 then
      some (.fadd sw (fld a 0 6) (fld t 58 6) (fld t 52 6) (flag t 42) (fld t 36 3) (flag t 34))
    else
    if part t 43 9 = 1 ∧ part t 39 3 = 0 ∧ part t 35 1 = 0 ∧ part t 0 34 = 0 then
      some (.fsub sw (fld a 0 6) (fld t 58 6) (fld t 52 6) (flag t 42) (fld t 36 3) (flag t 34))
    else
    if part t 43 9 = 2 ∧ part t 39 3 = 0 ∧ part t 35 1 = 0 ∧ part t 0 34 = 0 then
      some (.fmul sw (fld a 0 6) (fld t 58 6) (fld t 52 6) (flag t 42) (fld t 36 3) (flag t 34))
    else
    if part t 43 9 = 3 ∧ part t 0 42 = 0 then
      some (.fmin sw (fld a 0 6) (fld t 58 6) (fld t 52 6) (flag t 42))
    else
    if part t 43 9 = 4 ∧ part t 0 42 = 0 then
      some (.fmax sw (fld a 0 6) (fld t 58 6) (fld t 52 6) (flag t 42))
    else none
  | 0x2b, 3 =>
    if part t 43 3 = 0 ∧ part t 39 3 = 0 ∧ part t 35 1 = 0 ∧ part t 0 34 = 0 then
      some (.ffma sw (fld a 0 6) (fld t 58 6) (fld t 52 6) (fld t 46 6) (flag t 42) (fld t 36 3) (flag t 34))
    else none
  | 0x2c, 3 =>
    if part t 43 9 = 0 ∧ part t 39 3 = 0 ∧ part t 35 1 = 0 ∧ part t 0 34 = 0 then
      some (.fdiv sw (fld a 0 6) (fld t 58 6) (fld t 52 6) (flag t 42) (fld t 36 3) (flag t 34))
    else
    if part t 43 15 = 1 ∧ part t 39 3 = 0 ∧ part t 35 1 = 0 ∧ part t 0 34 = 0 then
      some (.fsqrt sw (fld a 0 6) (fld t 58 6) (flag t 42) (fld t 36 3) (flag t 34))
    else none
  | 0x2d, 1 =>
    if part t 3 1 = 0 then
      some (.fcmp sw (fld a 0 6) (fld t 10 6) (fld t 4 6) (fld t 1 2) (flag t 0))
    else none
  | 0x2e, 3 =>
    if part t 46 12 = 0 ∧ part t 39 3 = 0 ∧ part t 35 1 = 0 ∧ part t 4 30 = 0 then
      some (.fcvt sw (fld a 0 6) (fld t 58 6) (fld t 42 4) (fld t 36 3) (flag t 34) (fld t 0 4))
    else none
  | 0x2f, 1 =>
    if part t 1 9 = 0 then
      some (.fclass sw (fld a 0 6) (fld t 10 6) (flag t 0))
    else none
  | _, _ => none

/-- Group 3 of the opcode map (R92): head parts and tail to an instruction. -/
def decodeGroup3 (sw : Bool) (maj tl a t : Nat) : Option Instr :=
  match maj, tl with
  | 0x30, 2 =>
    if part t 25 1 = 0 then
      some (.ld sw (fld a 0 6) (fld t 26 6) (fld t 22 3) (fld t 0 22))
    else none
  | 0x31, 2 =>
    if part t 24 2 = 0 then
      some (.st sw (fld a 0 6) (fld t 26 6) (fld t 22 2) (fld t 0 22))
    else none
  | 0x32, 2 =>
    if part t 22 4 = 0 then
      some (.ldf sw (fld a 0 6) (fld t 26 6) (fld t 0 22))
    else none
  | 0x33, 2 =>
    if part t 22 4 = 0 then
      some (.ldfe sw (fld a 0 6) (fld t 26 6) (fld t 0 22))
    else none
  | 0x34, 2 =>
    if part t 22 4 = 0 then
      some (.stf sw (fld a 0 6) (fld t 26 6) (fld t 0 22))
    else none
  | 0x35, 1 =>
    if part t 0 10 = 0 then
      some (.sete sw (fld a 0 6) (fld t 10 6))
    else
    if part t 0 10 = 1 then
      some (.setf sw (fld a 0 6) (fld t 10 6))
    else none
  | 0x36, 1 =>
    if part t 0 10 = 0 then
      some (.caddR sw (fld a 0 6) (fld t 10 6))
    else none
  | 0x36, 2 =>
    if part t 21 11 = 0 then
      some (.caddI sw (fld a 0 6) (fld t 0 21))
    else none
  | 0x37, 1 =>
    if part t 0 10 = 0 then
      some (.cread sw (fld a 0 6) (fld t 10 6))
    else none
  | 0x38, 1 =>
    if part t 0 10 = 0 then
      some (.waitc sw (fld a 0 6) (fld t 10 6))
    else none
  | 0x39, 1 =>
    if part t 0 10 = 0 then
      some (.cexpectR sw (fld a 0 6) (fld t 10 6))
    else none
  | 0x39, 2 =>
    if part t 21 11 = 0 then
      some (.cexpectI sw (fld a 0 6) (fld t 0 21))
    else none
  | 0x3a, 1 =>
    if part t 0 10 = 0 then
      some (.bainitR sw (fld a 0 6) (fld t 10 6))
    else none
  | 0x3a, 2 =>
    if part t 21 11 = 0 then
      some (.bainitI sw (fld a 0 6) (fld t 0 21))
    else none
  | 0x3b, 1 =>
    if part t 0 10 = 0 then
      some (.barrive sw (fld a 0 6) (fld t 10 6))
    else none
  | 0x3c, 1 =>
    if part t 0 10 = 0 then
      some (.badrop sw (fld a 0 6) (fld t 10 6))
    else none
  | 0x3d, 3 =>
    if part t 0 46 = 0 then
      some (.trigarm sw (fld a 0 6) (fld t 58 6) (fld t 52 6) (fld t 46 6))
    else
    if part t 0 64 = 4398046511104 then
      some (.trigdis sw (fld a 0 6))
    else none
  | 0x3e, 3 =>
    if part a 0 6 = 0 ∧ part t 0 46 = 0 then
      some (.mbcfg sw (fld t 58 6) (fld t 52 6) (fld t 46 6))
    else
    if part a 0 6 = 0 ∧ part t 0 52 = 4398046511104 then
      some (.mbpost sw (fld t 58 6) (fld t 52 6))
    else
    if part t 0 58 = 8796093022208 then
      some (.mbtake sw (fld a 0 6) (fld t 58 6))
    else none
  | 0x3f, 3 =>
    if part t 0 42 = 0 then
      some (.lsamo sw (fld a 0 6) (fld t 58 6) (fld t 52 6) (fld t 46 6) (fld t 42 4))
    else none
  | _, _ => none

/-- Group 4 of the opcode map (R95): head parts and tail to an instruction. -/
def decodeGroup4 (sw : Bool) (maj tl a t : Nat) : Option Instr :=
  match maj, tl with
  | 0x40, 2 =>
    if part a 5 1 = 0 ∧ part t 31 1 = 0 ∧ part t 25 1 = 0 ∧ part t 9 1 = 0 ∧ part t 0 7 = 0 then
      some (.vadd sw (fld a 0 5) (fld t 26 5) (fld t 20 5) (fld t 16 4) (fld t 13 3) (fld t 10 3) (flag t 8) (flag t 7))
    else none
  | 0x41, 2 =>
    if part a 5 1 = 0 ∧ part t 31 1 = 0 ∧ part t 25 1 = 0 ∧ part t 9 1 = 0 ∧ part t 0 7 = 0 then
      some (.vsub sw (fld a 0 5) (fld t 26 5) (fld t 20 5) (fld t 16 4) (fld t 13 3) (fld t 10 3) (flag t 8) (flag t 7))
    else none
  | 0x42, 2 =>
    if part a 5 1 = 0 ∧ part t 31 1 = 0 ∧ part t 25 1 = 0 ∧ part t 9 1 = 0 ∧ part t 0 7 = 0 then
      some (.vmul sw (fld a 0 5) (fld t 26 5) (fld t 20 5) (fld t 16 4) (fld t 13 3) (fld t 10 3) (flag t 8) (flag t 7))
    else none
  | 0x43, 3 =>
    if part a 5 1 = 0 ∧ part t 63 1 = 0 ∧ part t 57 1 = 0 ∧ part t 51 1 = 0 ∧ part t 35 1 = 0 ∧ part t 8 26 = 0 ∧ part t 0 7 = 0 then
      some (.vfma sw (fld a 0 5) (fld t 58 5) (fld t 52 5) (fld t 46 5) (fld t 42 4) (fld t 39 3) (fld t 36 3) (flag t 34) (flag t 7))
    else none
  | 0x44, 2 =>
    if part a 5 1 = 0 ∧ part t 31 1 = 0 ∧ part t 25 1 = 0 ∧ part t 8 5 = 0 ∧ part t 0 7 = 0 then
      some (.vmin sw (fld a 0 5) (fld t 26 5) (fld t 20 5) (fld t 16 4) (fld t 13 3) (flag t 7))
    else none
  | 0x45, 2 =>
    if part a 5 1 = 0 ∧ part t 31 1 = 0 ∧ part t 25 1 = 0 ∧ part t 8 5 = 0 ∧ part t 0 7 = 0 then
      some (.vmax sw (fld a 0 5) (fld t 26 5) (fld t 20 5) (fld t 16 4) (fld t 13 3) (flag t 7))
    else none
  | 0x46, 2 =>
    if part a 5 1 = 0 ∧ part t 31 1 = 0 ∧ part t 20 6 = 0 ∧ part t 9 4 = 0 ∧ part t 0 7 = 0 then
      some (.vabs sw (fld a 0 5) (fld t 26 5) (fld t 16 4) (fld t 13 3) (flag t 8) (flag t 7))
    else
    if part a 5 1 = 0 ∧ part t 31 1 = 0 ∧ part t 20 6 = 0 ∧ part t 9 4 = 0 ∧ part t 0 7 = 1 then
      some (.vneg sw (fld a 0 5) (fld t 26 5) (fld t 16 4) (fld t 13 3) (flag t 8) (flag t 7))
    else none
  | 0x47, 2 =>
    if part a 5 1 = 0 ∧ part t 31 1 = 0 ∧ part t 25 1 = 0 ∧ part t 9 1 = 0 ∧ part t 0 7 = 0 then
      some (.vdiv sw (fld a 0 5) (fld t 26 5) (fld t 20 5) (fld t 16 4) (fld t 13 3) (fld t 10 3) (flag t 8) (flag t 7))
    else none
  | 0x48, 2 =>
    if part a 5 1 = 0 ∧ part t 31 1 = 0 ∧ part t 20 6 = 0 ∧ part t 9 1 = 0 ∧ part t 0 7 = 0 then
      some (.vrcp sw (fld a 0 5) (fld t 26 5) (fld t 16 4) (fld t 13 3) (fld t 10 3) (flag t 8) (flag t 7))
    else
    if part a 5 1 = 0 ∧ part t 31 1 = 0 ∧ part t 20 6 = 0 ∧ part t 9 1 = 0 ∧ part t 0 7 = 1 then
      some (.vrsq sw (fld a 0 5) (fld t 26 5) (fld t 16 4) (fld t 13 3) (fld t 10 3) (flag t 8) (flag t 7))
    else
    if part a 5 1 = 0 ∧ part t 31 1 = 0 ∧ part t 20 6 = 0 ∧ part t 9 1 = 0 ∧ part t 0 7 = 2 then
      some (.vsqrt sw (fld a 0 5) (fld t 26 5) (fld t 16 4) (fld t 13 3) (fld t 10 3) (flag t 8) (flag t 7))
    else none
  | 0x49, 2 =>
    if part a 5 1 = 0 ∧ part t 31 1 = 0 ∧ part t 20 6 = 0 ∧ part t 9 1 = 0 ∧ part t 0 7 = 0 then
      some (.vexp2 sw (fld a 0 5) (fld t 26 5) (fld t 16 4) (fld t 13 3) (fld t 10 3) (flag t 8) (flag t 7))
    else
    if part a 5 1 = 0 ∧ part t 31 1 = 0 ∧ part t 20 6 = 0 ∧ part t 9 1 = 0 ∧ part t 0 7 = 1 then
      some (.vlog2 sw (fld a 0 5) (fld t 26 5) (fld t 16 4) (fld t 13 3) (fld t 10 3) (flag t 8) (flag t 7))
    else none
  | 0x4a, 2 =>
    if part a 5 1 = 0 ∧ part t 31 1 = 0 ∧ part t 25 1 = 0 ∧ part t 8 5 = 0 ∧ part t 0 7 = 0 then
      some (.vand sw (fld a 0 5) (fld t 26 5) (fld t 20 5) (fld t 16 4) (fld t 13 3) (flag t 7))
    else
    if part a 5 1 = 0 ∧ part t 31 1 = 0 ∧ part t 25 1 = 0 ∧ part t 8 5 = 0 ∧ part t 0 7 = 1 then
      some (.vor sw (fld a 0 5) (fld t 26 5) (fld t 20 5) (fld t 16 4) (fld t 13 3) (flag t 7))
    else
    if part a 5 1 = 0 ∧ part t 31 1 = 0 ∧ part t 25 1 = 0 ∧ part t 8 5 = 0 ∧ part t 0 7 = 2 then
      some (.vxor sw (fld a 0 5) (fld t 26 5) (fld t 20 5) (fld t 16 4) (fld t 13 3) (flag t 7))
    else
    if part a 5 1 = 0 ∧ part t 31 1 = 0 ∧ part t 25 1 = 0 ∧ part t 8 5 = 0 ∧ part t 0 7 = 3 then
      some (.vandn sw (fld a 0 5) (fld t 26 5) (fld t 20 5) (fld t 16 4) (fld t 13 3) (flag t 7))
    else none
  | 0x4b, 2 =>
    if part a 5 1 = 0 ∧ part t 31 1 = 0 ∧ part t 25 1 = 0 ∧ part t 8 5 = 0 ∧ part t 0 7 = 0 then
      some (.vshl sw (fld a 0 5) (fld t 26 5) (fld t 20 5) (fld t 16 4) (fld t 13 3) (flag t 7))
    else
    if part a 5 1 = 0 ∧ part t 31 1 = 0 ∧ part t 25 1 = 0 ∧ part t 8 5 = 0 ∧ part t 0 7 = 1 then
      some (.vshr sw (fld a 0 5) (fld t 26 5) (fld t 20 5) (fld t 16 4) (fld t 13 3) (flag t 7))
    else
    if part a 5 1 = 0 ∧ part t 31 1 = 0 ∧ part t 25 1 = 0 ∧ part t 8 5 = 0 ∧ part t 0 7 = 2 then
      some (.vsra sw (fld a 0 5) (fld t 26 5) (fld t 20 5) (fld t 16 4) (fld t 13 3) (flag t 7))
    else none
  | 0x4c, 2 =>
    if part a 3 3 = 0 ∧ part t 31 1 = 0 ∧ part t 25 1 = 0 ∧ part t 3 10 = 0 then
      some (.vcmp sw (fld a 0 3) (fld t 26 5) (fld t 20 5) (fld t 16 4) (fld t 13 3) (fld t 0 3))
    else none
  | 0x4d, 2 =>
    if part a 5 1 = 0 ∧ part t 31 1 = 0 ∧ part t 25 1 = 0 ∧ part t 0 13 = 0 then
      some (.vsel sw (fld a 0 5) (fld t 26 5) (fld t 20 5) (fld t 16 4) (fld t 13 3))
    else none
  | 0x4e, 2 =>
    if part t 31 1 = 0 ∧ part t 20 6 = 0 ∧ part t 9 1 = 0 ∧ part t 3 5 = 0 then
      some (.vred sw (fld a 0 6) (fld t 26 5) (fld t 16 4) (fld t 13 3) (fld t 10 3) (flag t 8) (fld t 0 3))
    else none
  | 0x4f, 2 =>
    if part a 5 1 = 0 ∧ part t 31 1 = 0 ∧ part t 20 6 = 0 ∧ part t 9 1 = 0 ∧ part t 2 5 = 0 then
      some (.vscan sw (fld a 0 5) (fld t 26 5) (fld t 16 4) (fld t 13 3) (fld t 10 3) (flag t 8) (flag t 7) (fld t 0 2))
    else none
  | _, _ => none

/-- Group 5 of the opcode map (R96): head parts and tail to an instruction. -/
def decodeGroup5 (sw : Bool) (maj tl a t : Nat) : Option Instr :=
  match maj, tl with
  | 0x50, 2 =>
    if part a 5 1 = 0 ∧ part t 22 4 = 0 then
      some (.vld sw (fld a 0 5) (fld t 26 6) (fld t 0 22))
    else none
  | 0x51, 2 =>
    if part a 5 1 = 0 ∧ part t 22 4 = 0 then
      some (.vst sw (fld a 0 5) (fld t 26 6) (fld t 0 22))
    else none
  | 0x52, 2 =>
    if part a 5 1 = 0 ∧ part t 22 4 = 0 then
      some (.vldf sw (fld a 0 5) (fld t 26 6) (fld t 0 22))
    else none
  | 0x53, 2 =>
    if part a 5 1 = 0 ∧ part t 22 4 = 0 then
      some (.vstf sw (fld a 0 5) (fld t 26 6) (fld t 0 22))
    else none
  | 0x54, 3 =>
    if part a 5 1 = 0 ∧ part t 57 1 = 0 ∧ part t 46 6 = 0 ∧ part t 8 31 = 0 ∧ part t 0 7 = 0 then
      some (.vgath sw (fld a 0 5) (fld t 58 6) (fld t 52 5) (fld t 42 4) (fld t 39 3) (flag t 7))
    else none
  | 0x55, 3 =>
    if part a 5 1 = 0 ∧ part t 57 1 = 0 ∧ part t 46 6 = 0 ∧ part t 0 39 = 0 then
      some (.vscat sw (fld a 0 5) (fld t 58 6) (fld t 52 5) (fld t 42 4) (fld t 39 3))
    else none
  | 0x56, 2 =>
    if part a 5 1 = 0 ∧ part t 20 6 = 0 ∧ part t 8 5 = 0 ∧ part t 0 7 = 0 then
      some (.vbcast sw (fld a 0 5) (fld t 26 6) (fld t 16 4) (fld t 13 3) (flag t 7))
    else none
  | 0x57, 1 =>
    if part t 15 1 = 0 then
      some (.vextr sw (fld a 0 6) (fld t 10 5) (fld t 4 6) (fld t 0 4))
    else none
  | 0x58, 2 =>
    if part a 5 1 = 0 ∧ part t 31 1 = 0 ∧ part t 25 1 = 0 ∧ part t 8 5 = 0 ∧ part t 0 7 = 0 then
      some (.vperm sw (fld a 0 5) (fld t 26 5) (fld t 20 5) (fld t 16 4) (fld t 13 3) (flag t 7))
    else none
  | 0x59, 3 =>
    if part a 5 1 = 0 ∧ part t 63 1 = 0 ∧ part t 46 12 = 0 ∧ part t 35 1 = 0 ∧ part t 12 22 = 0 ∧ part t 4 3 = 0 then
      some (.vcvt sw (fld a 0 5) (fld t 58 5) (fld t 42 4) (fld t 39 3) (fld t 36 3) (flag t 34) (fld t 8 4) (flag t 7) (fld t 0 4))
    else none
  | 0x5a, 2 =>
    if part a 5 1 = 0 ∧ part t 31 1 = 0 ∧ part t 9 1 = 0 ∧ part t 0 7 = 0 then
      some (.vscale sw (fld a 0 5) (fld t 26 5) (fld t 20 6) (fld t 16 4) (fld t 13 3) (fld t 10 3) (flag t 8) (flag t 7))
    else none
  | 0x5b, 3 =>
    if part a 5 1 = 0 ∧ part t 63 1 = 0 ∧ part t 51 7 = 0 ∧ part t 39 3 = 0 ∧ part t 16 20 = 0 ∧ part t 0 8 = 0 then
      some (.vqnt sw (fld a 0 5) (fld t 58 5) (fld t 46 5) (fld t 42 4) (fld t 36 3) (fld t 12 4) (fld t 8 4))
    else none
  | 0x5c, 3 =>
    if part a 5 1 = 0 ∧ part t 63 1 = 0 ∧ part t 51 7 = 0 ∧ part t 35 1 = 0 ∧ part t 16 18 = 0 ∧ part t 0 7 = 0 then
      some (.vdqnt sw (fld a 0 5) (fld t 58 5) (fld t 46 5) (fld t 42 4) (fld t 39 3) (fld t 36 3) (flag t 34) (fld t 12 4) (fld t 8 4) (flag t 7))
    else none
  | 0x5d, 3 =>
    if part a 5 1 = 0 ∧ part t 63 1 = 0 ∧ part t 42 16 = 0 ∧ part t 35 1 = 0 ∧ part t 22 12 = 0 ∧ part t 12 4 = 0 ∧ part t 0 7 = 0 then
      some (.vcbdec sw (fld a 0 5) (fld t 58 5) (fld t 39 3) (fld t 36 3) (flag t 34) (fld t 16 6) (fld t 8 4) (flag t 7))
    else
    if part a 0 6 = 0 ∧ part t 0 58 = 4398046511104 then
      some (.vcbdecLoad sw (fld t 58 6))
    else none
  | 0x5e, 2 =>
    if part a 3 3 = 0 ∧ part t 31 1 = 0 ∧ part t 20 6 = 0 ∧ part t 7 6 = 0 then
      some (.vclass sw (fld a 0 3) (fld t 26 5) (fld t 16 4) (fld t 13 3) (flag t 6) (fld t 0 6))
    else none
  | 0x5f, 1 =>
    if part a 3 3 = 0 ∧ part t 13 3 = 0 ∧ part t 7 3 = 0 ∧ part t 0 4 = 0 then
      some (.qand sw (fld a 0 3) (fld t 10 3) (fld t 4 3))
    else
    if part a 3 3 = 0 ∧ part t 13 3 = 0 ∧ part t 7 3 = 0 ∧ part t 0 4 = 1 then
      some (.qor sw (fld a 0 3) (fld t 10 3) (fld t 4 3))
    else
    if part a 3 3 = 0 ∧ part t 13 3 = 0 ∧ part t 7 3 = 0 ∧ part t 0 4 = 2 then
      some (.qxor sw (fld a 0 3) (fld t 10 3) (fld t 4 3))
    else
    if part a 3 3 = 0 ∧ part t 13 3 = 0 ∧ part t 0 10 = 3 then
      some (.qnot sw (fld a 0 3) (fld t 10 3))
    else
    if part a 3 3 = 0 ∧ part t 13 3 = 0 ∧ part t 0 10 = 4 then
      some (.qmov sw (fld a 0 3) (fld t 10 3))
    else
    if part t 13 3 = 0 ∧ part t 0 10 = 5 then
      some (.qcnt sw (fld a 0 6) (fld t 10 3))
    else none
  | _, _ => none

/-- Group 6 of the opcode map (R97): head parts and tail to an instruction. -/
def decodeGroup6 (sw : Bool) (maj tl a t : Nat) : Option Instr :=
  match maj, tl with
  | 0x60, 2 =>
    if part a 4 2 = 0 ∧ part t 0 15 = 0 then
      some (.mma sw (fld a 0 4) (fld t 29 3) (fld t 26 3) (fld t 22 4) (fld t 16 6) (flag t 15))
    else none
  | 0x61, 2 =>
    if part a 4 2 = 0 ∧ part t 0 12 = 0 then
      some (.mmag sw (fld a 0 4) (fld t 29 3) (fld t 26 3) (fld t 22 4) (fld t 16 6) (flag t 15) (fld t 12 3))
    else none
  | 0x62, 2 =>
    if part a 4 2 = 0 ∧ part a 0 1 = 0 ∧ part t 22 4 = 7 ∧ part t 0 15 = 0 then
      some (.dmma sw (fld a 1 3) (fld t 29 3) (fld t 26 3) (fld t 16 6) (flag t 15))
    else none
  | 0x63, 1 =>
    if part a 3 3 = 0 ∧ part t 0 10 = 0 then
      some (.ringcfg sw (fld a 0 3) (fld t 10 6))
    else none
  | 0x64, 1 =>
    if part a 3 3 = 0 ∧ part t 0 10 = 0 then
      some (.rpub sw (fld a 0 3) (fld t 10 6))
    else none
  | 0x65, 1 =>
    if part t 3 13 = 0 then
      some (.rstat sw (fld a 0 6) (fld t 0 3))
    else none
  | 0x66, 0 =>
    if part a 3 3 = 0 then
      some (.rreset sw (fld a 0 3))
    else none
  | 0x67, 0 =>
    if part a 4 2 = 0 then
      some (.accz sw (fld a 0 4))
    else none
  | 0x68, 2 =>
    if part a 5 1 = 0 ∧ part t 26 6 = 0 ∧ part t 5 17 = 0 then
      some (.accrd sw (fld a 0 5) (fld t 22 4) (fld t 0 5))
    else none
  | 0x69, 2 =>
    if part a 5 1 = 0 ∧ part t 26 6 = 0 ∧ part t 5 17 = 0 then
      some (.accwr sw (fld a 0 5) (fld t 22 4) (fld t 0 5))
    else none
  | 0x6a, 1 =>
    if part a 4 2 = 0 ∧ part t 0 10 = 0 then
      some (.accscl sw (fld a 0 4) (fld t 10 6))
    else none
  | 0x6b, 0 =>
    if part a 4 2 = 0 then
      some (.mwake sw (fld a 0 4))
    else none
  | 0x6c, 1 =>
    if part a 4 2 = 0 ∧ part t 0 10 = 0 then
      some (.mgate sw (fld a 0 4) (fld t 10 6))
    else none
  | 0x6d, 1 =>
    if part a 3 3 = 0 ∧ part t 4 12 = 0 then
      some (.sclcfg sw (fld a 0 3) (flag t 3) (fld t 0 3))
    else none
  | 0x6e, 0 =>
    some (.mwait sw (fld a 0 6))
  | _, _ => none

/-- Group 7 of the opcode map (R99): head parts and tail to an instruction. -/
def decodeGroup7 (sw : Bool) (maj tl a t : Nat) : Option Instr :=
  match maj, tl with
  | 0x70, 2 =>
    if part t 6 16 = 0 then
      some (.send sw (fld a 0 6) (fld t 26 6) (fld t 22 4) (fld t 0 6))
    else none
  | 0x71, 3 =>
    if part t 32 14 = 0 ∧ part t 0 16 = 0 then
      some (.bqfetch sw (fld a 0 6) (fld t 58 6) (fld t 52 6) (fld t 46 6) (fld t 24 8) (fld t 16 8))
    else
    if part t 32 14 = 1024 ∧ part t 0 16 = 0 then
      some (.bqstore sw (fld a 0 6) (fld t 58 6) (fld t 52 6) (fld t 46 6) (fld t 24 8) (fld t 16 8))
    else
    if part t 32 14 = 2048 ∧ part t 0 16 = 0 then
      some (.bqtile sw (fld a 0 6) (fld t 58 6) (fld t 52 6) (fld t 46 6) (fld t 24 8) (fld t 16 8))
    else
    if part t 32 14 = 3072 ∧ part t 0 16 = 0 then
      some (.bqgath sw (fld a 0 6) (fld t 58 6) (fld t 52 6) (fld t 46 6) (fld t 24 8) (fld t 16 8))
    else
    if part t 32 20 = 4096 ∧ part t 4 12 = 0 then
      some (.bqamo sw (fld a 0 6) (fld t 58 6) (fld t 52 6) (fld t 24 8) (fld t 16 8) (fld t 0 4))
    else
    if part t 32 14 = 5120 ∧ part t 0 16 = 0 then
      some (.bqcas sw (fld a 0 6) (fld t 58 6) (fld t 52 6) (fld t 46 6) (fld t 24 8) (fld t 16 8))
    else none
  | 0x72, 3 =>
    if part a 0 6 = 0 ∧ part t 32 14 = 0 ∧ part t 0 16 = 0 then
      some (.lscopy sw (fld t 58 6) (fld t 52 6) (fld t 46 6) (fld t 24 8) (fld t 16 8))
    else
    if part a 0 6 = 0 ∧ part t 32 14 = 1024 ∧ part t 12 4 = 0 then
      some (.xcopy sw (fld t 58 6) (fld t 52 6) (fld t 46 6) (fld t 24 8) (fld t 16 8) (fld t 0 12))
    else none
  | 0x73, 1 =>
    if part a 0 6 = 0 ∧ part t 0 5 = 0 then
      some (.fence sw (fld t 13 3) (fld t 11 2) (fld t 5 6))
    else none
  | 0x74, 1 =>
    if part t 0 10 = 0 then
      some (.tagalloc sw (fld a 0 6) (fld t 10 6))
    else
    if part a 0 6 = 0 ∧ part t 0 4 = 1 then
      some (.tagfree sw (fld t 10 6) (fld t 4 6))
    else
    if part t 0 10 = 2 then
      some (.tagbind sw (fld a 0 6) (fld t 10 6))
    else none
  | 0x75, 3 =>
    if part t 63 1 = 0 ∧ part t 46 12 = 0 ∧ part t 0 42 = 0 then
      some (.meet sw (fld a 0 6) (fld t 58 5) (fld t 42 4))
    else none
  | 0x76, 3 =>
    if part t 0 46 = 0 then
      some (.exroute sw (fld a 0 6) (fld t 58 6) (fld t 52 6) (fld t 46 6))
    else
    if part t 0 52 = 4398046511104 then
      some (.exrepl0 sw (fld a 0 6) (fld t 58 6) (fld t 52 6))
    else
    if part t 0 46 = 4398046511105 then
      some (.exrepl1 sw (fld a 0 6) (fld t 58 6) (fld t 52 6) (fld t 46 6))
    else
    if part t 0 52 = 8796093022208 then
      some (.exretire0 sw (fld a 0 6) (fld t 58 6) (fld t 52 6))
    else
    if part t 0 52 = 8796093022209 then
      some (.exretire1 sw (fld a 0 6) (fld t 58 6) (fld t 52 6))
    else
    if part t 0 58 = 13194139533312 then
      some (.exstep0 sw (fld a 0 6) (fld t 58 6))
    else
    if part t 0 52 = 13194139533313 then
      some (.exstep1 sw (fld a 0 6) (fld t 58 6) (fld t 52 6))
    else
    if part t 0 52 = 17592186044416 then
      some (.exstat sw (fld a 0 6) (fld t 58 6) (fld t 52 6))
    else
    if part t 0 52 = 21990232555520 then
      some (.exlook sw (fld a 0 6) (fld t 58 6) (fld t 52 6))
    else none
  | 0x77, 3 =>
    if part t 0 52 = 0 then
      some (.gfork sw (fld a 0 6) (fld t 58 6) (fld t 52 6))
    else
    if part a 0 6 = 0 ∧ part t 0 52 = 4398046511104 then
      some (.greward sw (fld t 58 6) (fld t 52 6))
    else
    if part a 0 6 = 0 ∧ part t 0 52 = 8796093022208 then
      some (.gcancel sw (fld t 58 6) (fld t 52 6))
    else
    if part t 0 58 = 13194139533312 then
      some (.gcfgConfigure sw (fld a 0 6) (fld t 58 6))
    else
    if part t 58 6 = 0 ∧ part t 0 52 = 13194139533312 then
      some (.gcfgRelease sw (fld a 0 6) (fld t 52 6))
    else
    if part t 0 52 = 17592186044416 then
      some (.gstat sw (fld a 0 6) (fld t 58 6) (fld t 52 6))
    else none
  | 0x78, 1 =>
    if part t 0 10 = 0 then
      some (.tspawn sw (fld a 0 6) (fld t 10 6))
    else
    if part t 0 4 = 1 then
      some (.tspawnat sw (fld a 0 6) (fld t 10 6) (fld t 4 6))
    else none
  | 0x79, 2 =>
    if part t 6 26 = 0 then
      some (.qpush sw (fld a 0 6) (fld t 0 6))
    else
    if part t 6 20 = 65536 then
      some (.qpop sw (fld a 0 6) (fld t 26 6) (fld t 0 6))
    else none
  | 0x7a, 1 =>
    if part t 0 16 = 0 then
      some (.wlpush sw (fld a 0 6))
    else
    if part t 0 10 = 1 then
      some (.wlpop sw (fld a 0 6) (fld t 10 6))
    else none
  | 0x7b, 2 =>
    if part t 0 32 = 4194313 then
      some (.seedWrite sw (fld a 0 6))
    else
    if part t 10 22 = 0 then
      some (.sysr sw (fld a 0 6) (fld t 0 10))
    else
    if part t 10 22 = 4096 then
      some (.sysw sw (fld a 0 6) (fld t 0 10))
    else none
  | 0x7c, 2 =>
    if part t 10 22 = 0 then
      some (.capr sw (fld a 0 6) (fld t 0 10))
    else none
  | 0x7d, 3 =>
    if part a 0 6 = 0 ∧ part t 45 13 = 0 ∧ part t 10 32 = 0 ∧ part t 5 3 = 0 then
      some (.rfcfg sw (fld t 58 6) (fld t 42 3) (fld t 8 2) (fld t 0 5))
    else none
  | 0x7e, 1 =>
    if part t 0 10 = 0 then
      some (.tlbinv sw (fld a 0 6) (fld t 10 6))
    else
    if part t 0 4 = 1 then
      some (.ctxsave sw (fld a 0 6) (fld t 10 6) (fld t 4 6))
    else
    if part t 0 4 = 2 then
      some (.ctxload sw (fld a 0 6) (fld t 10 6) (fld t 4 6))
    else
    if part t 0 4 = 3 then
      some (.lpmap sw (fld a 0 6) (fld t 10 6) (fld t 4 6))
    else
    if part t 0 4 = 4 then
      some (.vfcfgConfigure sw (fld a 0 6) (fld t 10 6) (fld t 4 6))
    else none
  | 0x7f, 3 =>
    if part a 3 3 = 0 ∧ part t 4 42 = 0 then
      some (.winset sw (fld a 0 3) (fld t 58 6) (fld t 52 6) (fld t 46 6) (fld t 0 4))
    else
    if part a 3 3 = 0 ∧ part t 0 64 = 4398046511104 then
      some (.winclr sw (fld a 0 3))
    else none
  | _, _ => none

/-- The head value of R24 from its parts: S, T, MAJ and A. -/
def headOf (sw : Bool) (tl maj a : Nat) : Nat := sw.toNat * 0x8000 + tl * 0x2000 + maj * 0x40 + a

/-- The words of an instruction, head and tail, from the tables of R89 to R99; an event has none. -/
def encode : Instr → Option Words
  | .nop sw =>
    some ⟨headOf sw 0 0x0 (0x1), 0⟩
  | .nopT1 sw x =>
    some ⟨headOf sw 1 0x0 (0x1), x.toNat⟩
  | .nopT2 sw x =>
    some ⟨headOf sw 2 0x0 (0x1), x.toNat⟩
  | .nopT3 sw x =>
    some ⟨headOf sw 3 0x0 (0x1), x.toNat⟩
  | .j sw off =>
    some ⟨headOf sw 2 0x1 (0), off.toNat⟩
  | .jal sw l off =>
    some ⟨headOf sw 2 0x2 (l.toNat), off.toNat⟩
  | .jr sw t =>
    some ⟨headOf sw 0 0x3 (t.toNat), 0⟩
  | .beq sw a b off =>
    some ⟨headOf sw 2 0x4 (a.toNat), b.toNat * 0x4000000 + off.toNat * 0x2⟩
  | .bne sw a b off =>
    some ⟨headOf sw 2 0x5 (a.toNat), b.toNat * 0x4000000 + off.toNat * 0x2⟩
  | .blt sw a b off =>
    some ⟨headOf sw 2 0x6 (a.toNat), b.toNat * 0x4000000 + off.toNat * 0x2⟩
  | .bge sw a b off =>
    some ⟨headOf sw 2 0x7 (a.toNat), b.toNat * 0x4000000 + off.toNat * 0x2⟩
  | .bltn sw a b off =>
    some ⟨headOf sw 2 0x8 (a.toNat), b.toNat * 0x4000000 + off.toNat * 0x2⟩
  | .bgen sw a b off =>
    some ⟨headOf sw 2 0x9 (a.toNat), b.toNat * 0x4000000 + off.toNat * 0x2⟩
  | .loop sw c o =>
    some ⟨headOf sw 1 0xa (c.toNat), o.toNat⟩
  | .hend sw =>
    some ⟨headOf sw 0 0xb (0), 0⟩
  | .chunk sw =>
    some ⟨headOf sw 0 0xc (0), 0⟩
  | .trap sw code =>
    some ⟨headOf sw 0 0xd (code.toNat), 0⟩
  | .trapArg sw code arg =>
    some ⟨headOf sw 1 0xd (code.toNat), arg.toNat⟩
  | .sysret sw =>
    some ⟨headOf sw 0 0xe (0), 0⟩
  | .addR sw d b c w =>
    some ⟨headOf sw 1 0x10 (d.toNat), b.toNat * 0x400 + c.toNat * 0x10 + w.toNat * 0x4⟩
  | .addI sw d b w imm =>
    some ⟨headOf sw 2 0x10 (d.toNat), b.toNat * 0x4000000 + w.toNat * 0x1000000 + imm.toNat⟩
  | .subR sw d b c w =>
    some ⟨headOf sw 1 0x11 (d.toNat), b.toNat * 0x400 + c.toNat * 0x10 + w.toNat * 0x4⟩
  | .subI sw d b w imm =>
    some ⟨headOf sw 2 0x11 (d.toNat), b.toNat * 0x4000000 + w.toNat * 0x1000000 + imm.toNat⟩
  | .mulR sw d b c w =>
    some ⟨headOf sw 1 0x12 (d.toNat), b.toNat * 0x400 + c.toNat * 0x10 + w.toNat * 0x4⟩
  | .mulI sw d b w imm =>
    some ⟨headOf sw 2 0x12 (d.toNat), b.toNat * 0x4000000 + w.toNat * 0x1000000 + imm.toNat⟩
  | .mulhR sw d b c w n =>
    some ⟨headOf sw 1 0x13 (d.toNat), b.toNat * 0x400 + c.toNat * 0x10 + w.toNat * 0x4 + n.toNat⟩
  | .mulhI sw d b w n imm =>
    some ⟨headOf sw 2 0x13 (d.toNat), b.toNat * 0x4000000 + w.toNat * 0x1000000 + n.toNat * 0x400000 + imm.toNat⟩
  | .divR sw d b c w n =>
    some ⟨headOf sw 1 0x14 (d.toNat), b.toNat * 0x400 + c.toNat * 0x10 + w.toNat * 0x4 + n.toNat⟩
  | .divI sw d b w n imm =>
    some ⟨headOf sw 2 0x14 (d.toNat), b.toNat * 0x4000000 + w.toNat * 0x1000000 + n.toNat * 0x400000 + imm.toNat⟩
  | .remR sw d b c w n =>
    some ⟨headOf sw 1 0x15 (d.toNat), b.toNat * 0x400 + c.toNat * 0x10 + w.toNat * 0x4 + n.toNat⟩
  | .remI sw d b w n imm =>
    some ⟨headOf sw 2 0x15 (d.toNat), b.toNat * 0x4000000 + w.toNat * 0x1000000 + n.toNat * 0x400000 + imm.toNat⟩
  | .andR sw d b c w =>
    some ⟨headOf sw 1 0x16 (d.toNat), b.toNat * 0x400 + c.toNat * 0x10 + w.toNat * 0x4⟩
  | .andI sw d b w imm =>
    some ⟨headOf sw 2 0x16 (d.toNat), b.toNat * 0x4000000 + w.toNat * 0x1000000 + imm.toNat⟩
  | .orR sw d b c w =>
    some ⟨headOf sw 1 0x17 (d.toNat), b.toNat * 0x400 + c.toNat * 0x10 + w.toNat * 0x4⟩
  | .orI sw d b w imm =>
    some ⟨headOf sw 2 0x17 (d.toNat), b.toNat * 0x4000000 + w.toNat * 0x1000000 + imm.toNat⟩
  | .xorR sw d b c w =>
    some ⟨headOf sw 1 0x18 (d.toNat), b.toNat * 0x400 + c.toNat * 0x10 + w.toNat * 0x4⟩
  | .xorI sw d b w imm =>
    some ⟨headOf sw 2 0x18 (d.toNat), b.toNat * 0x4000000 + w.toNat * 0x1000000 + imm.toNat⟩
  | .andnR sw d b c w =>
    some ⟨headOf sw 1 0x19 (d.toNat), b.toNat * 0x400 + c.toNat * 0x10 + w.toNat * 0x4⟩
  | .andnI sw d b w imm =>
    some ⟨headOf sw 2 0x19 (d.toNat), b.toNat * 0x4000000 + w.toNat * 0x1000000 + imm.toNat⟩
  | .shlR sw d b c w =>
    some ⟨headOf sw 1 0x1a (d.toNat), b.toNat * 0x400 + c.toNat * 0x10 + w.toNat * 0x4⟩
  | .shlI sw d b w imm =>
    some ⟨headOf sw 2 0x1a (d.toNat), b.toNat * 0x4000000 + w.toNat * 0x1000000 + imm.toNat⟩
  | .shrR sw d b c w =>
    some ⟨headOf sw 1 0x1b (d.toNat), b.toNat * 0x400 + c.toNat * 0x10 + w.toNat * 0x4⟩
  | .shrI sw d b w imm =>
    some ⟨headOf sw 2 0x1b (d.toNat), b.toNat * 0x4000000 + w.toNat * 0x1000000 + imm.toNat⟩
  | .sraR sw d b c w =>
    some ⟨headOf sw 1 0x1c (d.toNat), b.toNat * 0x400 + c.toNat * 0x10 + w.toNat * 0x4⟩
  | .sraI sw d b w imm =>
    some ⟨headOf sw 2 0x1c (d.toNat), b.toNat * 0x4000000 + w.toNat * 0x1000000 + imm.toNat⟩
  | .minR sw d b c w n =>
    some ⟨headOf sw 1 0x1d (d.toNat), b.toNat * 0x400 + c.toNat * 0x10 + w.toNat * 0x4 + n.toNat⟩
  | .minI sw d b w n imm =>
    some ⟨headOf sw 2 0x1d (d.toNat), b.toNat * 0x4000000 + w.toNat * 0x1000000 + n.toNat * 0x400000 + imm.toNat⟩
  | .maxR sw d b c w n =>
    some ⟨headOf sw 1 0x1e (d.toNat), b.toNat * 0x400 + c.toNat * 0x10 + w.toNat * 0x4 + n.toNat⟩
  | .maxI sw d b w n imm =>
    some ⟨headOf sw 2 0x1e (d.toNat), b.toNat * 0x4000000 + w.toNat * 0x1000000 + n.toNat * 0x400000 + imm.toNat⟩
  | .sel sw d b c k =>
    some ⟨headOf sw 2 0x1f (d.toNat), b.toNat * 0x4000000 + c.toNat * 0x100000 + k.toNat * 0x4000⟩
  | .li16 sw d imm =>
    some ⟨headOf sw 1 0x20 (d.toNat), imm.toNat⟩
  | .li32 sw d imm =>
    some ⟨headOf sw 2 0x20 (d.toNat), imm.toNat⟩
  | .li64 sw d imm =>
    some ⟨headOf sw 3 0x20 (d.toNat), imm.toNat⟩
  | .lih sw d imm =>
    some ⟨headOf sw 2 0x21 (d.toNat), imm.toNat⟩
  | .cmpR sw d b c k =>
    some ⟨headOf sw 1 0x22 (d.toNat), b.toNat * 0x400 + c.toNat * 0x10 + k.toNat⟩
  | .cmpI sw d b k imm =>
    some ⟨headOf sw 2 0x22 (d.toNat), b.toNat * 0x4000000 + k.toNat * 0x400000 + imm.toNat⟩
  | .clz sw d b w =>
    some ⟨headOf sw 1 0x23 (d.toNat), b.toNat * 0x400 + w.toNat * 0x10⟩
  | .ctz sw d b w =>
    some ⟨headOf sw 1 0x23 (d.toNat), b.toNat * 0x400 + w.toNat * 0x10 + 0x1⟩
  | .popc sw d b w =>
    some ⟨headOf sw 1 0x23 (d.toNat), b.toNat * 0x400 + w.toNat * 0x10 + 0x2⟩
  | .sext sw d b w =>
    some ⟨headOf sw 1 0x23 (d.toNat), b.toNat * 0x400 + w.toNat * 0x10 + 0x3⟩
  | .zext sw d b w =>
    some ⟨headOf sw 1 0x23 (d.toNat), b.toNat * 0x400 + w.toNat * 0x10 + 0x4⟩
  | .bfx sw d b pos len sg =>
    some ⟨headOf sw 2 0x24 (d.toNat), b.toNat * 0x4000000 + pos.toNat * 0x100000 + len.toNat * 0x4000 + sg.toNat * 0x2000⟩
  | .bfi sw d b pos len =>
    some ⟨headOf sw 2 0x25 (d.toNat), b.toNat * 0x4000000 + pos.toNat * 0x100000 + len.toNat * 0x4000⟩
  | .paddR sw d b c =>
    some ⟨headOf sw 1 0x26 (d.toNat), b.toNat * 0x400 + c.toNat * 0x10⟩
  | .paddI sw d b imm =>
    some ⟨headOf sw 2 0x26 (d.toNat), b.toNat * 0x4000000 + imm.toNat⟩
  | .psubR sw d b c =>
    some ⟨headOf sw 1 0x27 (d.toNat), b.toNat * 0x400 + c.toNat * 0x10⟩
  | .psubI sw d b imm =>
    some ⟨headOf sw 2 0x27 (d.toNat), b.toNat * 0x4000000 + imm.toNat⟩
  | .ptag sw d b fmt blog =>
    some ⟨headOf sw 2 0x28 (d.toNat), b.toNat * 0x4000000 + fmt.toNat * 0x100000 + blog.toNat * 0x10000⟩
  | .pget sw d b k =>
    some ⟨headOf sw 1 0x29 (d.toNat), b.toNat * 0x400 + k.toNat⟩
  | .fadd sw d b c p rnd sat =>
    some ⟨headOf sw 3 0x2a (d.toNat), b.toNat * 0x400000000000000 + c.toNat * 0x10000000000000 + p.toNat * 0x40000000000 + rnd.toNat * 0x1000000000 + sat.toNat * 0x400000000⟩
  | .fsub sw d b c p rnd sat =>
    some ⟨headOf sw 3 0x2a (d.toNat), b.toNat * 0x400000000000000 + c.toNat * 0x10000000000000 + 0x80000000000 + p.toNat * 0x40000000000 + rnd.toNat * 0x1000000000 + sat.toNat * 0x400000000⟩
  | .fmul sw d b c p rnd sat =>
    some ⟨headOf sw 3 0x2a (d.toNat), b.toNat * 0x400000000000000 + c.toNat * 0x10000000000000 + 0x100000000000 + p.toNat * 0x40000000000 + rnd.toNat * 0x1000000000 + sat.toNat * 0x400000000⟩
  | .fmin sw d b c p =>
    some ⟨headOf sw 3 0x2a (d.toNat), b.toNat * 0x400000000000000 + c.toNat * 0x10000000000000 + 0x180000000000 + p.toNat * 0x40000000000⟩
  | .fmax sw d b c p =>
    some ⟨headOf sw 3 0x2a (d.toNat), b.toNat * 0x400000000000000 + c.toNat * 0x10000000000000 + 0x200000000000 + p.toNat * 0x40000000000⟩
  | .ffma sw d b c e p rnd sat =>
    some ⟨headOf sw 3 0x2b (d.toNat), b.toNat * 0x400000000000000 + c.toNat * 0x10000000000000 + e.toNat * 0x400000000000 + p.toNat * 0x40000000000 + rnd.toNat * 0x1000000000 + sat.toNat * 0x400000000⟩
  | .fdiv sw d b c p rnd sat =>
    some ⟨headOf sw 3 0x2c (d.toNat), b.toNat * 0x400000000000000 + c.toNat * 0x10000000000000 + p.toNat * 0x40000000000 + rnd.toNat * 0x1000000000 + sat.toNat * 0x400000000⟩
  | .fsqrt sw d b p rnd sat =>
    some ⟨headOf sw 3 0x2c (d.toNat), b.toNat * 0x400000000000000 + 0x80000000000 + p.toNat * 0x40000000000 + rnd.toNat * 0x1000000000 + sat.toNat * 0x400000000⟩
  | .fcmp sw d b c k p =>
    some ⟨headOf sw 1 0x2d (d.toNat), b.toNat * 0x400 + c.toNat * 0x10 + k.toNat * 0x2 + p.toNat⟩
  | .fcvt sw d b dst rnd sat src =>
    some ⟨headOf sw 3 0x2e (d.toNat), b.toNat * 0x400000000000000 + dst.toNat * 0x40000000000 + rnd.toNat * 0x1000000000 + sat.toNat * 0x400000000 + src.toNat⟩
  | .fclass sw d b p =>
    some ⟨headOf sw 1 0x2f (d.toNat), b.toNat * 0x400 + p.toNat⟩
  | .ld sw d b w imm =>
    some ⟨headOf sw 2 0x30 (d.toNat), b.toNat * 0x4000000 + w.toNat * 0x400000 + imm.toNat⟩
  | .st sw a b w imm =>
    some ⟨headOf sw 2 0x31 (a.toNat), b.toNat * 0x4000000 + w.toNat * 0x400000 + imm.toNat⟩
  | .ldf sw d b imm =>
    some ⟨headOf sw 2 0x32 (d.toNat), b.toNat * 0x4000000 + imm.toNat⟩
  | .ldfe sw d b imm =>
    some ⟨headOf sw 2 0x33 (d.toNat), b.toNat * 0x4000000 + imm.toNat⟩
  | .stf sw a b imm =>
    some ⟨headOf sw 2 0x34 (a.toNat), b.toNat * 0x4000000 + imm.toNat⟩
  | .sete sw a l =>
    some ⟨headOf sw 1 0x35 (a.toNat), l.toNat * 0x400⟩
  | .setf sw a l =>
    some ⟨headOf sw 1 0x35 (a.toNat), l.toNat * 0x400 + 0x1⟩
  | .caddR sw c b =>
    some ⟨headOf sw 1 0x36 (c.toNat), b.toNat * 0x400⟩
  | .caddI sw c imm =>
    some ⟨headOf sw 2 0x36 (c.toNat), imm.toNat⟩
  | .cread sw d c =>
    some ⟨headOf sw 1 0x37 (d.toNat), c.toNat * 0x400⟩
  | .waitc sw c t =>
    some ⟨headOf sw 1 0x38 (c.toNat), t.toNat * 0x400⟩
  | .cexpectR sw c b =>
    some ⟨headOf sw 1 0x39 (c.toNat), b.toNat * 0x400⟩
  | .cexpectI sw c imm =>
    some ⟨headOf sw 2 0x39 (c.toNat), imm.toNat⟩
  | .bainitR sw c b =>
    some ⟨headOf sw 1 0x3a (c.toNat), b.toNat * 0x400⟩
  | .bainitI sw c imm =>
    some ⟨headOf sw 2 0x3a (c.toNat), imm.toNat⟩
  | .barrive sw c p =>
    some ⟨headOf sw 1 0x3b (c.toNat), p.toNat * 0x400⟩
  | .badrop sw c p =>
    some ⟨headOf sw 1 0x3c (c.toNat), p.toNat * 0x400⟩
  | .trigarm sw e b c d =>
    some ⟨headOf sw 3 0x3d (e.toNat), b.toNat * 0x400000000000000 + c.toNat * 0x10000000000000 + d.toNat * 0x400000000000⟩
  | .trigdis sw e =>
    some ⟨headOf sw 3 0x3d (e.toNat), 0x40000000000⟩
  | .mbcfg sw b c d =>
    some ⟨headOf sw 3 0x3e (0), b.toNat * 0x400000000000000 + c.toNat * 0x10000000000000 + d.toNat * 0x400000000000⟩
  | .mbpost sw b c =>
    some ⟨headOf sw 3 0x3e (0), b.toNat * 0x400000000000000 + c.toNat * 0x10000000000000 + 0x40000000000⟩
  | .mbtake sw d b =>
    some ⟨headOf sw 3 0x3e (d.toNat), b.toNat * 0x400000000000000 + 0x80000000000⟩
  | .lsamo sw d b c e op =>
    some ⟨headOf sw 3 0x3f (d.toNat), b.toNat * 0x400000000000000 + c.toNat * 0x10000000000000 + e.toNat * 0x400000000000 + op.toNat * 0x40000000000⟩
  | .vadd sw d b c fmt q rnd sat z =>
    some ⟨headOf sw 2 0x40 (d.toNat), b.toNat * 0x4000000 + c.toNat * 0x100000 + fmt.toNat * 0x10000 + q.toNat * 0x2000 + rnd.toNat * 0x400 + sat.toNat * 0x100 + z.toNat * 0x80⟩
  | .vsub sw d b c fmt q rnd sat z =>
    some ⟨headOf sw 2 0x41 (d.toNat), b.toNat * 0x4000000 + c.toNat * 0x100000 + fmt.toNat * 0x10000 + q.toNat * 0x2000 + rnd.toNat * 0x400 + sat.toNat * 0x100 + z.toNat * 0x80⟩
  | .vmul sw d b c fmt q rnd sat z =>
    some ⟨headOf sw 2 0x42 (d.toNat), b.toNat * 0x4000000 + c.toNat * 0x100000 + fmt.toNat * 0x10000 + q.toNat * 0x2000 + rnd.toNat * 0x400 + sat.toNat * 0x100 + z.toNat * 0x80⟩
  | .vmin sw d b c fmt q z =>
    some ⟨headOf sw 2 0x44 (d.toNat), b.toNat * 0x4000000 + c.toNat * 0x100000 + fmt.toNat * 0x10000 + q.toNat * 0x2000 + z.toNat * 0x80⟩
  | .vmax sw d b c fmt q z =>
    some ⟨headOf sw 2 0x45 (d.toNat), b.toNat * 0x4000000 + c.toNat * 0x100000 + fmt.toNat * 0x10000 + q.toNat * 0x2000 + z.toNat * 0x80⟩
  | .vfma sw d b c e fmt q rnd sat z =>
    some ⟨headOf sw 3 0x43 (d.toNat), b.toNat * 0x400000000000000 + c.toNat * 0x10000000000000 + e.toNat * 0x400000000000 + fmt.toNat * 0x40000000000 + q.toNat * 0x8000000000 + rnd.toNat * 0x1000000000 + sat.toNat * 0x400000000 + z.toNat * 0x80⟩
  | .vabs sw d b fmt q sat z =>
    some ⟨headOf sw 2 0x46 (d.toNat), b.toNat * 0x4000000 + fmt.toNat * 0x10000 + q.toNat * 0x2000 + sat.toNat * 0x100 + z.toNat * 0x80⟩
  | .vneg sw d b fmt q sat z =>
    some ⟨headOf sw 2 0x46 (d.toNat), b.toNat * 0x4000000 + fmt.toNat * 0x10000 + q.toNat * 0x2000 + sat.toNat * 0x100 + z.toNat * 0x80 + 0x1⟩
  | .vdiv sw d b c fmt q rnd sat z =>
    some ⟨headOf sw 2 0x47 (d.toNat), b.toNat * 0x4000000 + c.toNat * 0x100000 + fmt.toNat * 0x10000 + q.toNat * 0x2000 + rnd.toNat * 0x400 + sat.toNat * 0x100 + z.toNat * 0x80⟩
  | .vrcp sw d b fmt q rnd sat z =>
    some ⟨headOf sw 2 0x48 (d.toNat), b.toNat * 0x4000000 + fmt.toNat * 0x10000 + q.toNat * 0x2000 + rnd.toNat * 0x400 + sat.toNat * 0x100 + z.toNat * 0x80⟩
  | .vrsq sw d b fmt q rnd sat z =>
    some ⟨headOf sw 2 0x48 (d.toNat), b.toNat * 0x4000000 + fmt.toNat * 0x10000 + q.toNat * 0x2000 + rnd.toNat * 0x400 + sat.toNat * 0x100 + z.toNat * 0x80 + 0x1⟩
  | .vsqrt sw d b fmt q rnd sat z =>
    some ⟨headOf sw 2 0x48 (d.toNat), b.toNat * 0x4000000 + fmt.toNat * 0x10000 + q.toNat * 0x2000 + rnd.toNat * 0x400 + sat.toNat * 0x100 + z.toNat * 0x80 + 0x2⟩
  | .vexp2 sw d b fmt q rnd sat z =>
    some ⟨headOf sw 2 0x49 (d.toNat), b.toNat * 0x4000000 + fmt.toNat * 0x10000 + q.toNat * 0x2000 + rnd.toNat * 0x400 + sat.toNat * 0x100 + z.toNat * 0x80⟩
  | .vlog2 sw d b fmt q rnd sat z =>
    some ⟨headOf sw 2 0x49 (d.toNat), b.toNat * 0x4000000 + fmt.toNat * 0x10000 + q.toNat * 0x2000 + rnd.toNat * 0x400 + sat.toNat * 0x100 + z.toNat * 0x80 + 0x1⟩
  | .vand sw d b c fmt q z =>
    some ⟨headOf sw 2 0x4a (d.toNat), b.toNat * 0x4000000 + c.toNat * 0x100000 + fmt.toNat * 0x10000 + q.toNat * 0x2000 + z.toNat * 0x80⟩
  | .vor sw d b c fmt q z =>
    some ⟨headOf sw 2 0x4a (d.toNat), b.toNat * 0x4000000 + c.toNat * 0x100000 + fmt.toNat * 0x10000 + q.toNat * 0x2000 + z.toNat * 0x80 + 0x1⟩
  | .vxor sw d b c fmt q z =>
    some ⟨headOf sw 2 0x4a (d.toNat), b.toNat * 0x4000000 + c.toNat * 0x100000 + fmt.toNat * 0x10000 + q.toNat * 0x2000 + z.toNat * 0x80 + 0x2⟩
  | .vandn sw d b c fmt q z =>
    some ⟨headOf sw 2 0x4a (d.toNat), b.toNat * 0x4000000 + c.toNat * 0x100000 + fmt.toNat * 0x10000 + q.toNat * 0x2000 + z.toNat * 0x80 + 0x3⟩
  | .vshl sw d b c fmt q z =>
    some ⟨headOf sw 2 0x4b (d.toNat), b.toNat * 0x4000000 + c.toNat * 0x100000 + fmt.toNat * 0x10000 + q.toNat * 0x2000 + z.toNat * 0x80⟩
  | .vshr sw d b c fmt q z =>
    some ⟨headOf sw 2 0x4b (d.toNat), b.toNat * 0x4000000 + c.toNat * 0x100000 + fmt.toNat * 0x10000 + q.toNat * 0x2000 + z.toNat * 0x80 + 0x1⟩
  | .vsra sw d b c fmt q z =>
    some ⟨headOf sw 2 0x4b (d.toNat), b.toNat * 0x4000000 + c.toNat * 0x100000 + fmt.toNat * 0x10000 + q.toNat * 0x2000 + z.toNat * 0x80 + 0x2⟩
  | .vcmp sw d b c fmt q k =>
    some ⟨headOf sw 2 0x4c (d.toNat), b.toNat * 0x4000000 + c.toNat * 0x100000 + fmt.toNat * 0x10000 + q.toNat * 0x2000 + k.toNat⟩
  | .vsel sw d b c fmt q =>
    some ⟨headOf sw 2 0x4d (d.toNat), b.toNat * 0x4000000 + c.toNat * 0x100000 + fmt.toNat * 0x10000 + q.toNat * 0x2000⟩
  | .vred sw d b fmt q rnd sat op =>
    some ⟨headOf sw 2 0x4e (d.toNat), b.toNat * 0x4000000 + fmt.toNat * 0x10000 + q.toNat * 0x2000 + rnd.toNat * 0x400 + sat.toNat * 0x100 + op.toNat⟩
  | .vscan sw d b fmt q rnd sat z op =>
    some ⟨headOf sw 2 0x4f (d.toNat), b.toNat * 0x4000000 + fmt.toNat * 0x10000 + q.toNat * 0x2000 + rnd.toNat * 0x400 + sat.toNat * 0x100 + z.toNat * 0x80 + op.toNat⟩
  | .vld sw d b imm =>
    some ⟨headOf sw 2 0x50 (d.toNat), b.toNat * 0x4000000 + imm.toNat⟩
  | .vst sw a b imm =>
    some ⟨headOf sw 2 0x51 (a.toNat), b.toNat * 0x4000000 + imm.toNat⟩
  | .vldf sw d b imm =>
    some ⟨headOf sw 2 0x52 (d.toNat), b.toNat * 0x4000000 + imm.toNat⟩
  | .vstf sw a b imm =>
    some ⟨headOf sw 2 0x53 (a.toNat), b.toNat * 0x4000000 + imm.toNat⟩
  | .vgath sw d b c fmt q z =>
    some ⟨headOf sw 3 0x54 (d.toNat), b.toNat * 0x400000000000000 + c.toNat * 0x10000000000000 + fmt.toNat * 0x40000000000 + q.toNat * 0x8000000000 + z.toNat * 0x80⟩
  | .vscat sw a b c fmt q =>
    some ⟨headOf sw 3 0x55 (a.toNat), b.toNat * 0x400000000000000 + c.toNat * 0x10000000000000 + fmt.toNat * 0x40000000000 + q.toNat * 0x8000000000⟩
  | .vbcast sw d b fmt q z =>
    some ⟨headOf sw 2 0x56 (d.toNat), b.toNat * 0x4000000 + fmt.toNat * 0x10000 + q.toNat * 0x2000 + z.toNat * 0x80⟩
  | .vextr sw d b c fmt =>
    some ⟨headOf sw 1 0x57 (d.toNat), b.toNat * 0x400 + c.toNat * 0x10 + fmt.toNat⟩
  | .vperm sw d b c fmt q z =>
    some ⟨headOf sw 2 0x58 (d.toNat), b.toNat * 0x4000000 + c.toNat * 0x100000 + fmt.toNat * 0x10000 + q.toNat * 0x2000 + z.toNat * 0x80⟩
  | .vcvt sw d b dst q rnd sat src z part =>
    some ⟨headOf sw 3 0x59 (d.toNat), b.toNat * 0x400000000000000 + dst.toNat * 0x40000000000 + q.toNat * 0x8000000000 + rnd.toNat * 0x1000000000 + sat.toNat * 0x400000000 + src.toNat * 0x100 + z.toNat * 0x80 + part.toNat⟩
  | .vscale sw d b c fmt q rnd sat z =>
    some ⟨headOf sw 2 0x5a (d.toNat), b.toNat * 0x4000000 + c.toNat * 0x100000 + fmt.toNat * 0x10000 + q.toNat * 0x2000 + rnd.toNat * 0x400 + sat.toNat * 0x100 + z.toNat * 0x80⟩
  | .vqnt sw d b e efmt rnd blog src =>
    some ⟨headOf sw 3 0x5b (d.toNat), b.toNat * 0x400000000000000 + e.toNat * 0x400000000000 + efmt.toNat * 0x40000000000 + rnd.toNat * 0x1000000000 + blog.toNat * 0x1000 + src.toNat * 0x100⟩
  | .vdqnt sw d b e efmt q rnd sat blog dst z =>
    some ⟨headOf sw 3 0x5c (d.toNat), b.toNat * 0x400000000000000 + e.toNat * 0x400000000000 + efmt.toNat * 0x40000000000 + q.toNat * 0x8000000000 + rnd.toNat * 0x1000000000 + sat.toNat * 0x400000000 + blog.toNat * 0x1000 + dst.toNat * 0x100 + z.toNat * 0x80⟩
  | .vcbdec sw d b q rnd sat w ofmt z =>
    some ⟨headOf sw 3 0x5d (d.toNat), b.toNat * 0x400000000000000 + q.toNat * 0x8000000000 + rnd.toNat * 0x1000000000 + sat.toNat * 0x400000000 + w.toNat * 0x10000 + ofmt.toNat * 0x100 + z.toNat * 0x80⟩
  | .vcbdecLoad sw b =>
    some ⟨headOf sw 3 0x5d (0), b.toNat * 0x400000000000000 + 0x40000000000⟩
  | .vclass sw d b fmt q nfs set =>
    some ⟨headOf sw 2 0x5e (d.toNat), b.toNat * 0x4000000 + fmt.toNat * 0x10000 + q.toNat * 0x2000 + nfs.toNat * 0x40 + set.toNat⟩
  | .qand sw d b c =>
    some ⟨headOf sw 1 0x5f (d.toNat), b.toNat * 0x400 + c.toNat * 0x10⟩
  | .qor sw d b c =>
    some ⟨headOf sw 1 0x5f (d.toNat), b.toNat * 0x400 + c.toNat * 0x10 + 0x1⟩
  | .qxor sw d b c =>
    some ⟨headOf sw 1 0x5f (d.toNat), b.toNat * 0x400 + c.toNat * 0x10 + 0x2⟩
  | .qnot sw d b =>
    some ⟨headOf sw 1 0x5f (d.toNat), b.toNat * 0x400 + 0x3⟩
  | .qmov sw d b =>
    some ⟨headOf sw 1 0x5f (d.toNat), b.toNat * 0x400 + 0x4⟩
  | .qcnt sw d b =>
    some ⟨headOf sw 1 0x5f (d.toNat), b.toNat * 0x400 + 0x5⟩
  | .mma sw m ga gb fmt steps zf =>
    some ⟨headOf sw 2 0x60 (m.toNat), ga.toNat * 0x20000000 + gb.toNat * 0x4000000 + fmt.toNat * 0x400000 + steps.toNat * 0x10000 + zf.toNat * 0x8000⟩
  | .mmag sw m ga gb fmt steps zf wc =>
    some ⟨headOf sw 2 0x61 (m.toNat), ga.toNat * 0x20000000 + gb.toNat * 0x4000000 + fmt.toNat * 0x400000 + steps.toNat * 0x10000 + zf.toNat * 0x8000 + wc.toNat * 0x1000⟩
  | .dmma sw m ga gb steps zf =>
    some ⟨headOf sw 2 0x62 (m.toNat * 0x2), ga.toNat * 0x20000000 + gb.toNat * 0x4000000 + 0x1c00000 + steps.toNat * 0x10000 + zf.toNat * 0x8000⟩
  | .ringcfg sw g b =>
    some ⟨headOf sw 1 0x63 (g.toNat), b.toNat * 0x400⟩
  | .rpub sw g b =>
    some ⟨headOf sw 1 0x64 (g.toNat), b.toNat * 0x400⟩
  | .rstat sw d g =>
    some ⟨headOf sw 1 0x65 (d.toNat), g.toNat⟩
  | .rreset sw g =>
    some ⟨headOf sw 0 0x66 (g.toNat), 0⟩
  | .sclcfg sw g link h =>
    some ⟨headOf sw 1 0x6d (g.toNat), link.toNat * 0x8 + h.toNat⟩
  | .accz sw m =>
    some ⟨headOf sw 0 0x67 (m.toNat), 0⟩
  | .accrd sw d m row =>
    some ⟨headOf sw 2 0x68 (d.toNat), m.toNat * 0x400000 + row.toNat⟩
  | .accwr sw a m row =>
    some ⟨headOf sw 2 0x69 (a.toNat), m.toNat * 0x400000 + row.toNat⟩
  | .accscl sw m b =>
    some ⟨headOf sw 1 0x6a (m.toNat), b.toNat * 0x400⟩
  | .mgate sw k b =>
    some ⟨headOf sw 1 0x6c (k.toNat), b.toNat * 0x400⟩
  | .mwake sw k =>
    some ⟨headOf sw 0 0x6b (k.toNat), 0⟩
  | .mwait sw d =>
    some ⟨headOf sw 0 0x6e (d.toNat), 0⟩
  | .send sw a b n h =>
    some ⟨headOf sw 2 0x70 (a.toNat), b.toNat * 0x4000000 + n.toNat * 0x400000 + h.toNat⟩
  | .bqfetch sw a b c d dc sc =>
    some ⟨headOf sw 3 0x71 (a.toNat), b.toNat * 0x400000000000000 + c.toNat * 0x10000000000000 + d.toNat * 0x400000000000 + dc.toNat * 0x1000000 + sc.toNat * 0x10000⟩
  | .bqstore sw a b c d dc sc =>
    some ⟨headOf sw 3 0x71 (a.toNat), b.toNat * 0x400000000000000 + c.toNat * 0x10000000000000 + d.toNat * 0x400000000000 + 0x40000000000 + dc.toNat * 0x1000000 + sc.toNat * 0x10000⟩
  | .bqtile sw a b c d dc sc =>
    some ⟨headOf sw 3 0x71 (a.toNat), b.toNat * 0x400000000000000 + c.toNat * 0x10000000000000 + d.toNat * 0x400000000000 + 0x80000000000 + dc.toNat * 0x1000000 + sc.toNat * 0x10000⟩
  | .bqgath sw a b c d dc sc =>
    some ⟨headOf sw 3 0x71 (a.toNat), b.toNat * 0x400000000000000 + c.toNat * 0x10000000000000 + d.toNat * 0x400000000000 + 0xc0000000000 + dc.toNat * 0x1000000 + sc.toNat * 0x10000⟩
  | .bqamo sw a b c dc sc op =>
    some ⟨headOf sw 3 0x71 (a.toNat), b.toNat * 0x400000000000000 + c.toNat * 0x10000000000000 + 0x100000000000 + dc.toNat * 0x1000000 + sc.toNat * 0x10000 + op.toNat⟩
  | .bqcas sw a b c d dc sc =>
    some ⟨headOf sw 3 0x71 (a.toNat), b.toNat * 0x400000000000000 + c.toNat * 0x10000000000000 + d.toNat * 0x400000000000 + 0x140000000000 + dc.toNat * 0x1000000 + sc.toNat * 0x10000⟩
  | .lscopy sw b c d dc sc =>
    some ⟨headOf sw 3 0x72 (0), b.toNat * 0x400000000000000 + c.toNat * 0x10000000000000 + d.toNat * 0x400000000000 + dc.toNat * 0x1000000 + sc.toNat * 0x10000⟩
  | .xcopy sw b c d dc sc stream =>
    some ⟨headOf sw 3 0x72 (0), b.toNat * 0x400000000000000 + c.toNat * 0x10000000000000 + d.toNat * 0x400000000000 + 0x40000000000 + dc.toNat * 0x1000000 + sc.toNat * 0x10000 + stream.toNat⟩
  | .fence sw scope order r =>
    some ⟨headOf sw 1 0x73 (0), scope.toNat * 0x2000 + order.toNat * 0x800 + r.toNat * 0x20⟩
  | .tagalloc sw d n =>
    some ⟨headOf sw 1 0x74 (d.toNat), n.toNat * 0x400⟩
  | .tagfree sw t n =>
    some ⟨headOf sw 1 0x74 (0), t.toNat * 0x400 + n.toNat * 0x10 + 0x1⟩
  | .tagbind sw t r =>
    some ⟨headOf sw 1 0x74 (t.toNat), r.toNat * 0x400 + 0x2⟩
  | .meet sw t b n =>
    some ⟨headOf sw 3 0x75 (t.toNat), b.toNat * 0x400000000000000 + n.toNat * 0x40000000000⟩
  | .exroute sw a b c d =>
    some ⟨headOf sw 3 0x76 (a.toNat), b.toNat * 0x400000000000000 + c.toNat * 0x10000000000000 + d.toNat * 0x400000000000⟩
  | .exrepl0 sw a b c =>
    some ⟨headOf sw 3 0x76 (a.toNat), b.toNat * 0x400000000000000 + c.toNat * 0x10000000000000 + 0x40000000000⟩
  | .exrepl1 sw a b c d =>
    some ⟨headOf sw 3 0x76 (a.toNat), b.toNat * 0x400000000000000 + c.toNat * 0x10000000000000 + d.toNat * 0x400000000000 + 0x40000000000 + 0x1⟩
  | .exretire0 sw a b c =>
    some ⟨headOf sw 3 0x76 (a.toNat), b.toNat * 0x400000000000000 + c.toNat * 0x10000000000000 + 0x80000000000⟩
  | .exretire1 sw a b c =>
    some ⟨headOf sw 3 0x76 (a.toNat), b.toNat * 0x400000000000000 + c.toNat * 0x10000000000000 + 0x80000000000 + 0x1⟩
  | .exstep0 sw a b =>
    some ⟨headOf sw 3 0x76 (a.toNat), b.toNat * 0x400000000000000 + 0xc0000000000⟩
  | .exstep1 sw a b c =>
    some ⟨headOf sw 3 0x76 (a.toNat), b.toNat * 0x400000000000000 + c.toNat * 0x10000000000000 + 0xc0000000000 + 0x1⟩
  | .exstat sw a b c =>
    some ⟨headOf sw 3 0x76 (a.toNat), b.toNat * 0x400000000000000 + c.toNat * 0x10000000000000 + 0x100000000000⟩
  | .exlook sw a b c =>
    some ⟨headOf sw 3 0x76 (a.toNat), b.toNat * 0x400000000000000 + c.toNat * 0x10000000000000 + 0x140000000000⟩
  | .gfork sw a b c =>
    some ⟨headOf sw 3 0x77 (a.toNat), b.toNat * 0x400000000000000 + c.toNat * 0x10000000000000⟩
  | .greward sw b c =>
    some ⟨headOf sw 3 0x77 (0), b.toNat * 0x400000000000000 + c.toNat * 0x10000000000000 + 0x40000000000⟩
  | .gcancel sw b c =>
    some ⟨headOf sw 3 0x77 (0), b.toNat * 0x400000000000000 + c.toNat * 0x10000000000000 + 0x80000000000⟩
  | .gcfgConfigure sw a b =>
    some ⟨headOf sw 3 0x77 (a.toNat), b.toNat * 0x400000000000000 + 0xc0000000000⟩
  | .gcfgRelease sw a c =>
    some ⟨headOf sw 3 0x77 (a.toNat), c.toNat * 0x10000000000000 + 0xc0000000000⟩
  | .gstat sw a b c =>
    some ⟨headOf sw 3 0x77 (a.toNat), b.toNat * 0x400000000000000 + c.toNat * 0x10000000000000 + 0x100000000000⟩
  | .tspawn sw a b =>
    some ⟨headOf sw 1 0x78 (a.toNat), b.toNat * 0x400⟩
  | .tspawnat sw a b c =>
    some ⟨headOf sw 1 0x78 (a.toNat), b.toNat * 0x400 + c.toNat * 0x10 + 0x1⟩
  | .qpush sw a qn =>
    some ⟨headOf sw 2 0x79 (a.toNat), qn.toNat⟩
  | .qpop sw a b qn =>
    some ⟨headOf sw 2 0x79 (a.toNat), b.toNat * 0x4000000 + 0x400000 + qn.toNat⟩
  | .wlpush sw a =>
    some ⟨headOf sw 1 0x7a (a.toNat), 0⟩
  | .wlpop sw a b =>
    some ⟨headOf sw 1 0x7a (a.toNat), b.toNat * 0x400 + 0x1⟩
  | .sysr sw d num =>
    some ⟨headOf sw 2 0x7b (d.toNat), num.toNat⟩
  | .sysw sw a num =>
    some ⟨headOf sw 2 0x7b (a.toNat), 0x400000 + num.toNat⟩
  | .seedWrite sw a =>
    some ⟨headOf sw 2 0x7b (a.toNat), 0x400000 + 0x9⟩
  | .hdecideResume sw a =>
    some ⟨headOf sw 2 0x7b (a.toNat), 0x400000 + 0x207⟩
  | .hdecideEndContinuation sw a =>
    some ⟨headOf sw 2 0x7b (a.toNat), 0x400000 + 0x207⟩
  | .hdecideEndLaunch sw a =>
    some ⟨headOf sw 2 0x7b (a.toNat), 0x400000 + 0x207⟩
  | .capr sw d num =>
    some ⟨headOf sw 2 0x7c (d.toNat), num.toNat⟩
  | .rfcfg sw b op ty w =>
    some ⟨headOf sw 3 0x7d (0), b.toNat * 0x400000000000000 + op.toNat * 0x40000000000 + ty.toNat * 0x100 + w.toNat⟩
  | .tlbinv sw a b =>
    some ⟨headOf sw 1 0x7e (a.toNat), b.toNat * 0x400⟩
  | .ctxsave sw k b c =>
    some ⟨headOf sw 1 0x7e (k.toNat), b.toNat * 0x400 + c.toNat * 0x10 + 0x1⟩
  | .ctxload sw k b c =>
    some ⟨headOf sw 1 0x7e (k.toNat), b.toNat * 0x400 + c.toNat * 0x10 + 0x2⟩
  | .lpmap sw d b c =>
    some ⟨headOf sw 1 0x7e (d.toNat), b.toNat * 0x400 + c.toNat * 0x10 + 0x3⟩
  | .vfcfgConfigure sw d b c =>
    some ⟨headOf sw 1 0x7e (d.toNat), b.toNat * 0x400 + c.toNat * 0x10 + 0x4⟩
  | .vfcfgActivate sw d b c =>
    some ⟨headOf sw 1 0x7e (d.toNat), b.toNat * 0x400 + c.toNat * 0x10 + 0x4⟩
  | .vfcfgDeactivate sw d b c =>
    some ⟨headOf sw 1 0x7e (d.toNat), b.toNat * 0x400 + c.toNat * 0x10 + 0x4⟩
  | .winset sw k b c d rights =>
    some ⟨headOf sw 3 0x7f (k.toNat), b.toNat * 0x400000000000000 + c.toNat * 0x10000000000000 + d.toNat * 0x400000000000 + rights.toNat⟩
  | .winclr sw k =>
    some ⟨headOf sw 3 0x7f (k.toNat), 0x40000000000⟩
  | .parkPoint _ _ => none
  | .deferredResultLanding _ => none
  | .fullWaitSatisfied _ _ => none
  | .implicitBoundary _ _ => none
  | .commitGrant _ _ => none
  | .budgetExceeded _ _ => none
  | .conflictAbort _ _ => none
  | .seatTransferTake _ _ => none
  | .seatTransferReturn _ => none
  | .seatTakeWork _ _ => none
  | .priorityPullReturn _ => none
  | .recordReady _ => none
  | .loadLevelling _ => none
  | .levelledRecordArrival _ => none
  | .counterUpdateAtOwner _ => none
  | .waitcArmAtOwner _ => none
  | .triggerArmAtOwner _ => none
  | .lsamoExecute _ => none
  | .mailboxOperation _ => none
  | .messageArrival _ => none
  | .messageQueueRetry _ => none
  | .bqEntry _ => none
  | .bqPacketComplete _ _ _ => none
  | .bqEntryComplete _ _ => none
  | .sourceEndAdd _ _ => none
  | .region3Delivery _ => none
  | .streamerAtomic _ _ => none
  | .translationWalk _ => none
  | .lineFetch _ _ => none
  | .raftersResult _ => none
  | .horizonReduction _ => none
  | .horizonResult _ => none
  | .taskCommit _ _ => none
  | .taskRerun _ _ => none
  | .tagfreeAtLarder _ => none
  | .tagPurge _ => none
  | .bindArrival _ => none
  | .meetOperandArrival _ => none
  | .meetCreationCheck _ _ => none
  | .meetNakRetry _ _ => none
  | .meetExpiry _ _ => none
  | .routeStart _ _ => none
  | .entryCacheFill _ => none
  | .expertClaim _ => none
  | .claimReply _ => none
  | .metadataLanding _ => none
  | .directoryOperation _ => none
  | .setBound _ => none
  | .directoryCountAdd _ => none
  | .gforkTaken _ => none
  | .grewardTaken _ => none
  | .gcancelTaken _ => none
  | .gcfgTaken _ => none
  | .gstatTaken _ => none
  | .groupDeadline _ _ => none
  | .groupResultWrite _ => none
  | .initialRecordSend _ => none
  | .larderPush _ => none
  | .larderPop _ => none
  | .priorityPull _ => none
  | .queueExtension _ => none
  | .energyBudgetReached _ => none
  | .droopEvent _ => none
  | .sliceEnd _ _ => none
  | .hallServiceEntry _ _ => none
  | .trapRecordPost _ => none
  | .deferredTrapArrival _ => none
  | .stopArrival _ => none
  | .coreSave _ => none
  | .saveFailed _ _ => none
  | .contextRestore _ => none
  | .xcopyStreamEntry _ => none
  | .xcopyPacketArrival _ => none
  | .xcopyAck _ => none
  | .portDown _ => none
  | .portUp _ => none
  | .createContext _ _ _ _ => none
  | .destroyContext _ _ => none
  | .map _ _ _ _ _ => none
  | .loadImage _ _ _ _ _ => none
  | .launch _ _ _ => none
  | .wait _ _ _ _ _ _ => none
  | .waitTimeout _ => none
  | .readCounters _ _ _ => none
  | .telemetry _ _ _ => none
  | .debugAttach _ _ _ _ => none
  | .quickHalt _ _ _ => none
  | .settledHalt _ _ _ => none
  | .debugRead _ _ _ _ _ => none
  | .debugWrite _ _ _ _ _ => none
  | .debugResume _ _ _ => none
  | .debugDetach _ _ => none
  | .debugTrace _ _ _ => none
  | .parityUpdate _ => none
  | .patrolScrub _ => none
  | .sramScrub _ _ => none
  | .coreRetirement _ => none
  | .subarrayGate _ _ => none
  | .subarrayWake _ _ => none
  | .matrixStepStart _ _ => none
  | .matrixStepEnd _ => none
  | .gangForm _ => none
  | .codebookLoadStart _ => none
  | .codebookLoadDone _ => none
  | .corePark _ => none
  | .coreUnpark _ => none
  | .corePowerOff _ => none
  | .packageIdle => none
  | .packageWake => none
  | .powerOnReset => none
  | .lifecycleMove _ => none
  | .packageIdWrite _ => none
  | .powerCap _ => none
  | .attestation _ => none
  | .accumulatorInstructionDone _ _ => none
  | .pathEffectAcknowledgement _ => none
  | .interfaceRetry _ => none
  | .mirrorGranuleCopy _ => none

/-- A head and its tail to the instruction they spell, before the checks of Instr.wf. -/
def decodeRaw (h t : Nat) : Option Instr :=
  let sw := flag h 15
  let tl := part h 13 2
  let maj := part h 6 7
  let a := part h 0 6
  match maj / 16 with
  | 0 => decodeGroup0 sw maj tl a t
  | 1 => decodeGroup1 sw maj tl a t
  | 2 => decodeGroup2 sw maj tl a t
  | 3 => decodeGroup3 sw maj tl a t
  | 4 => decodeGroup4 sw maj tl a t
  | 5 => decodeGroup5 sw maj tl a t
  | 6 => decodeGroup6 sw maj tl a t
  | 7 => decodeGroup7 sw maj tl a t
  | _ => none

/-- Steps 1 to 3 of R87 in their order: the instruction of a head and tail, or the reason there is none. -/
def decode (h t : Nat) : Except DecodeError Instr :=
  let maj := part h 6 7
  if maj = 0x0F ∨ maj = 0x6F ∨ (maj = 0 ∧ part h 0 6 ≠ 1) then .error .reservedMajor
  else if tailAccepted maj (part h 13 2) = false then .error .tailLength
  else
    match decodeRaw h t with
    | some i => if i.wf then .ok i else .error .field
    | none => .error .field

/-- A byte of a line; a line is 64 bytes (R19), and a byte past a list's end reads as zero. -/
def lineByte (l : List (BitVec 8)) (i : Nat) : Nat := (l.getD i 0).toNat

/-- The little-endian number in n halfwords of a line from byte a up (R20). -/
def lineHalfwords (l : List (BitVec 8)) (a : Nat) : Nat → Nat
  | 0 => 0
  | n + 1 => lineByte l a + 256 * lineByte l (a + 1) + 65536 * lineHalfwords l (a + 2) n

/-- What the scan of R21 finds at a slot. -/
inductive Slot where
  /-- END, the line's last head -/
  | done
  /-- a head whose tail would reach into the head area; the line's last head -/
  | malformed (head : Nat)
  /-- an instruction's head and tail -/
  | words (w : Words)
deriving DecidableEq, Repr

/-- The scan of R21 from slot i, with `used` tail halfwords already placed. -/
def scanFrom (l : List (BitVec 8)) : Nat → Nat → Nat → List Slot
  | 0, _, _ => []
  | fuel + 1, i, used =>
    if 2 * i = 64 - 2 * used then []
    else
      let h := lineHalfwords l (2 * i) 1
      if h = 0 then [.done]
      else
        let n := tailHalfwords (part h 13 2)
        if 64 < 2 * (used + n) + 2 * (i + 1) then [.malformed h]
        else .words ⟨h, lineHalfwords l (64 - 2 * (used + n)) n⟩ :: scanFrom l fuel (i + 1) (used + n)

/-- The heads of a line in order (R21). -/
def scanLine (l : List (BitVec 8)) : List Slot := scanFrom l 32 0 0

/-- The slot at a byte of a line, when that byte is a head (R23). -/
def slotAt (l : List (BitVec 8)) (byte : Nat) : Option Slot :=
  if byte % 2 = 0 then (scanLine l)[byte / 2]? else none

/-- n little-endian halfwords of a number as bytes. -/
def halfwordBytes : Nat → Nat → List (BitVec 8)
  | 0, _ => []
  | n + 1, v => BitVec.ofNat 8 v :: BitVec.ofNat 8 (v / 256) :: halfwordBytes n (v / 65536)

/-- The tails of a line from its lowest byte up: the last instruction's tail stands lowest (R20). -/
def tailBytes : List Words → List (BitVec 8)
  | [] => []
  | w :: ws => tailBytes ws ++ halfwordBytes (tailHalfwords (part w.head 13 2)) w.tail

/-- A line that holds the instructions in order, filled with zero between its heads and its tails (R16, R19, R20). -/
def packLine (ws : List Words) : List (BitVec 8) :=
  let heads := ws.flatMap fun w => halfwordBytes 1 w.head
  let tails := tailBytes ws
  heads ++ List.replicate (64 - heads.length - tails.length) 0 ++ tails

/-- Whether the instructions fit one line (R19). -/
def fitsLine (ws : List Words) : Bool :=
  decide (2 * ws.length + (tailBytes ws).length ≤ 64)

/-- Source order to lines (R17): a new line starts where the next head and tail would no longer fit. -/
def packLinesFrom (open_ : List Words) : List Words → List (List (BitVec 8))
  | [] => if open_.isEmpty then [] else [packLine open_]
  | w :: ws =>
    if fitsLine (open_ ++ [w]) then packLinesFrom (open_ ++ [w]) ws
    else packLine open_ :: packLinesFrom [w] ws

/-- The words of a row of spec/opcode_table.json with nbits bits: the table numbers a row with its tail in the
low bits and its head in the top sixteen; tail bits the row does not have are zero. -/
def tableWords (nbits w : Nat) : Words :=
  let tb := nbits - 16
  { head := w / 2 ^ tb % 65536, tail := w % 2 ^ tb }

/-- The instruction the decoder reads from a table word laid out as a line of its own. -/
def decodeTableWord (nbits w : Nat) : Option Instr :=
  match slotAt (packLine [tableWords nbits w]) 0 with
  | some (.words ws) => (decode ws.head ws.tail).toOption
  | _ => none


end Sys2Proof
end

