-- ==== Sys2Proof/Machine/Parts.lean ====
section
/-!
DEFINITION. The parts that the state is made of: registers, records, held effects, engine entries, the objects a
core keeps (R7), and the items in transit between agents (R278).  Plain data only.
-/
namespace Sys2Proof.Machine

/-- A core of the package: 0 to 2,047 are compute cores by linear index (R2), 2,048 + 4d + k is hall d.k (R4). -/
abbrev CoreId := Nat

/-- Byte memory: addresses strictly rising, no entry equal to what an unlisted address reads as. -/
abbrev Mem := List Host.Cell

/-- A register of a seat's three files (R41). -/
inductive Reg where
  | x (r : BitVec 6)
  | v (r : BitVec 5)
  | q (r : BitVec 3)
  deriving DecidableEq, Repr

/-- A value a register held or is to hold; bits above the register's width mean nothing. -/
structure RegVal where
  reg : Reg
  val : Vec
  deriving DecidableEq, Repr

/-- What a seat keeps per chunk start and restores at an abort (R45, R187, R209): the three files, the PC, NF, RMODE,
SEED and the matrix status. -/
structure Regs where
  x : Vector Word 64
  v : Vector Vec 32
  q : Vector Mask 8
  pc : BitVec 48
  nf : BitVec 6
  rmode : BitVec 3
  seed : Word
  fin : BitVec 16
  woke : Bool
  wrap : Bool
  deriving DecidableEq, Repr

/-- A continuation record of eight words (R188), with the value it brings into x7 (R190), the continuation it belongs to
(0 before its first start), the ring slot its clip handler is to publish (R224), and the core that committed the chunk
before it (R280). -/
structure Record where
  w0 : Word
  w1 : Word
  w2 : Word
  a1 : Word
  a2 : Word
  a3 : Word
  a4 : Word
  a5 : Word
  x7 : Word
  cid : Nat
  clip : Option (BitVec 3 × Nat)
  last : Option CoreId
  deriving DecidableEq, Repr

/-- An entry of the result buffer (R35): a group result with the cc it is ready, whether its value is still to come
(ACCRD), whether a later immediate write killed it (R33), and the flags it brings to NF (R71). -/
structure GroupResult where
  reg : Option Reg
  val : Vec
  readyAt : Nat
  waits : Nat
  live : Bool
  nf : BitVec 6
  deriving DecidableEq, Repr

/-- The units that deliver deferred results (R32, R205). -/
inductive IssuingUnit where
  | blockQueue
  | counterOwner
  | mailbox
  | tagTable
  | expertUnit
  | groupUnit
  | larder
  | workList
  | service
  deriving DecidableEq, Repr

/-- A pending deferred result (R37, R205): its register, the issuing unit and the tag of its operation there, and whether an
earlier chunk issued it. -/
structure Deferred where
  reg : Reg
  unit : IssuingUnit
  tag : Nat
  old : Bool
  deriving DecidableEq, Repr

/-- A change of full/empty bits over a range of words (R213, R247), newest first in a chunk. -/
structure FeChange where
  lo : Nat
  words : Nat
  full : Bool
  deriving DecidableEq, Repr

/-- The counter operations that execute at an owner (R229 to R231). -/
inductive CounterOp where
  | add (v : Word)
  | expect (k : Word)
  | bainit (n : Word)
  | arrive (p : Word)
  | drop (p : Word)
  deriving DecidableEq, Repr

/-- The forms an engine command takes (R261, R265). -/
inductive EngineKind where
  | fetch
  | store
  | tile
  | gath
  | amo (op : Nat)
  | cas
  | lscopy
  | xcopy (stream : Nat)
  deriving DecidableEq, Repr

/-- An engine command with its operand values, counters (255 for none) and issuing home (R261). -/
structure EngineCmd where
  kind : EngineKind
  b : Word
  c : Word
  d : Word
  dc : Nat
  sc : Nat
  home : CoreId
  deriving DecidableEq, Repr

/-- The scope, order and rectangle of a fence (R267). -/
structure FenceSpec where
  scope : Nat
  order : Nat
  rect : Word
  deriving DecidableEq, Repr

/-- The operations on the expert directory (R333 to R344), with their operand values. -/
inductive ExpertOp where
  | route (b c d : Word)
  | repl0 (b : Word) (words : List Word)
  | repl1 (b c d : Word)
  | retire0 (b c : Word)
  | retire1 (b c : Word)
  | step0 (b : Word)
  | step1 (b c : Word)
  | stat (b c : Word)
  | look (b c : Word)
  deriving DecidableEq, Repr

/-- The operations on the sample-group unit (R349 to R354), with their operand values; a fork carries the count of its first
sibling's spawn id once its commit has issued it (R378). -/
inductive GroupOp where
  | fork (b : Word) (words : List Word) (first : Option (BitVec 32))
  | reward (b c : Word)
  | cancel (b c : Word)
  | configure (words : List Word)
  | release (c : Word)
  | stat (b c : Word)
  deriving DecidableEq, Repr

/-- The effects a chunk holds until its commit (R196, R412). -/
inductive Held where
  | send (dst : CoreId) (hid : Nat) (words : List Word)
  | counter (addr : Word) (core : CoreId) (idx : BitVec 8) (op : CounterOp)
  | engine (cmd : EngineCmd)
  | trigArm (core : CoreId) (e : BitVec 6) (idx : BitVec 8) (thr : Word) (record : Nat)
  | trigDis (core : CoreId) (e : BitVec 6)
  | mailboxConfig (core : CoreId) (k : Nat) (idx : BitVec 8) (expected : Nat)
  | mailboxPost (core : CoreId) (val : Word)
  | lsamo (ptr : Word) (core : CoreId) (counter : Bool) (off : Nat) (op : Nat) (v w : Word)
  | tagBind (tag : Word) (record : List Word)
  | meet (tag : Word) (operand : List Word)
  | expert (home : CoreId) (op : ExpertOp)
  | group (home : CoreId) (op : GroupOp)
  | spawn (prio : Bool) (record : List Word) (key : Word) (dst : CoreId)
  | queuePush (qn addr : Nat)
  | workPush (record : List Word)
  | raftersConfig (op ty width : Nat) (rect : Word)
  | ringConfig (g : BitVec 3) (w0 w1 : Word)
  | ringPublish (g : BitVec 3) (count : Word)
  | ringReset (g : BitVec 3)
  | scaleLink (g h : BitVec 3) (link : Bool)
  | codebookLoad (ptr : Word)
  | tlbInv (addr control : Word)
  | ctxSave (counter ctx rect : Word)
  | ctxLoad (counter ctx rect : Word)
  | lpMap (b c : Word)
  | vfcfg (vf op : Nat) (descriptor : List Byte)
  deriving DecidableEq, Repr

/-- The unit that a held effect's deferred result comes from (R32). -/
def Held.unit : Held → IssuingUnit
  | .engine _ => .blockQueue
  | .lsamo .. => .counterOwner
  | .expert .. => .expertUnit
  | .group .. => .groupUnit
  | _ => .service

/-- A held effect with the instruction that issued it and the tag of its operation (R196, R405). -/
structure HeldEffect where
  ia : BitVec 48
  tag : Nat
  body : Held
  deriving DecidableEq, Repr

/-- Effects that take place with a commit's drain and are not counted as held: WINSET and WINCLR (R214), TAGFREE (R313). -/
inductive CommitOp where
  | window (k : BitVec 3) (w0 w1 : Word)
  | tagFree (tag n : Word)
  deriving DecidableEq, Repr

/-- The states of a seat (R192). -/
inductive SeatState where
  | free
  | running
  | parked
  | stalled
  | committing
  | lent
  | trapped
  deriving DecidableEq, Repr

/-- The boundary a parked chunk ends at (R195); a WAITC's with the address of the instruction (R401). -/
inductive Boundary where
  | chunk
  | fence (f : FenceSpec)
  | hend
  | waitc (addr : Word) (core : CoreId) (idx : BitVec 8) (thr : Word) (ia : BitVec 48)
  | implicit
  deriving DecidableEq, Repr

/-- A deferred trap a seat has received (R405). -/
structure DeferredTrap where
  cause : Nat
  arg : Word
  ia : BitVec 48
  cpc : BitVec 48
  deriving DecidableEq, Repr

/-- A ring of the operand ring unit (R171 to R173): descriptor words, state word fields, the number of tiles published (the
tail sequence modulo 2^16), the slots reserved for engine deliveries from the tail on, each under an id with the bits still to
land, and the numbers of data tiles that scale tiles carry: given to a delivery under its id, then held by its slot (R85,
R223). -/
structure Ring where
  base : Word
  shape : Word
  cfg : Bool
  eng : Bool
  lnk : Bool
  sring : BitVec 3
  held : Nat
  ready : Nat
  hseq : BitVec 16
  tail : Nat
  head : Nat
  pubs : Nat
  filling : List (Nat × Nat)
  given : List (Nat × BitVec 16)
  tags : List (Nat × BitVec 16)
  deriving DecidableEq, Repr

/-- What an abort of a chunk puts back in the matrix array (R174, R177): how many tiles the chunk popped from each ring,
and the tiles as they were before the chunk's first write of each. -/
structure MatrixUndo where
  pops : List (BitVec 3 × Nat)
  tiles : List (Nat × List Byte)
  deriving DecidableEq, Repr

/-- A speculative or in-place timestamped task on a seat (R385 to R388). -/
structure TaskState where
  stamp : Word
  spawnId : Word
  inPlace : Bool
  finished : Bool
  readSig : Vec
  writeSig : Vec
  deriving DecidableEq, Repr

/-- The registers of a hall seat (R398, R400). -/
structure HallRegs where
  hvec : BitVec 48
  hepc : BitVec 48
  hcause : BitVec 8
  hctx : BitVec 16
  service : Bool
  sliceEnd : Bool
  deriving DecidableEq, Repr

/-- A pop that the running chunk issued: the tag of its operation, its queue (none for the work list), and the record once
it has been taken (R381, R382). -/
structure Popped where
  tag : Nat
  queue : Option (Nat × Nat)
  record : Option Record
  deriving DecidableEq, Repr

/-- The unit classes of R193. -/
inductive UnitClass where
  | scalar
  | vector
  | memory
  deriving DecidableEq, Repr

/-- One seat of a core (R192): its registers and chunk-start registers, everything the running chunk has pending, and, while it runs
a migrated chunk, its own NF, RMODE and SEED (R45); `place` is the number of its place in the commit order (R272), and `arriveAt`
the cc at which the access that it waits with reaches its home core (R191). -/
structure Seat where
  st : SeatState
  regs : Regs
  snap : Regs
  past : List RegVal
  delivered : List (BitVec 5)
  record : Record
  cid : Nat
  results : List GroupResult
  deferred : List Deferred
  wbuf : List Host.Cell
  wtotal : Nat
  fe : List FeChange
  held : List HeldEffect
  commitOps : List CommitOp
  count : Nat
  startAt : Nat
  started : Bool
  boundary : Option Boundary
  grantAt : Nat
  granted : Bool
  place : Nat
  resumeAt : Nat
  arriveAt : Option Nat
  waitFull : Option (List Nat × Bool)
  filter : Option Vec
  conflict : Bool
  conflictRow : Nat
  undo : MatrixUndo
  trap : Option DeferredTrap
  more : Nat
  ticket : Nat
  origin : Option (CoreId × Nat)
  kept : Option (BitVec 6 × BitVec 3 × Word)
  lentTo : Option CoreId
  lastCommit : Option CoreId
  task : Option TaskState
  allocated : List (Word × Word)
  popped : List Popped
  rerun : Option (List Nat)
  stop : Bool
  haltedAt : Option Nat
  hall : HallRegs
  hallSnap : HallRegs
  hallUndo : List (Nat × Nat × Word)
  budget : Nat
  lastIssue : Nat
  lastClass : UnitClass
  deriving DecidableEq, Repr

/-- A counter and its shadow word (R228). -/
structure Counter where
  value : Word
  shadow : Word
  deriving DecidableEq, Repr

/-- A record parked on a counter (R233), with the core it goes home to. -/
structure Waiter where
  idx : BitVec 8
  thr : Word
  record : Record
  home : CoreId
  lid : Nat
  spilled : Bool
  deriving DecidableEq, Repr

/-- An entry of the trigger table (R234). -/
structure Trigger where
  armed : Bool
  idx : BitVec 8
  thr : Word
  record : Nat
  lid : Nat
  deriving DecidableEq, Repr

/-- A message (R236, R259). -/
structure Message where
  hid : Nat
  words : List Word
  src : CoreId
  seq : Word
  lid : Nat
  clip : Option (BitVec 3 × Nat)
  deriving DecidableEq, Repr

/-- The score mailbox (R237): entries in rank order. -/
structure Mailbox where
  k : Nat
  idx : BitVec 8
  expected : Nat
  posts : Nat
  entries : List Word
  deriving DecidableEq, Repr

/-- A window register (R214). -/
structure Window where
  w0 : Word
  w1 : Word
  deriving DecidableEq, Repr

/-- Where an engine reads or writes: zeros, a number of bits past a pointer's address, or past the start of the ring slot
reserved under an id (R224, R225, R61). -/
inductive Place where
  | zero
  | ptr (p : Word) (bit : Nat)
  | slot (g : BitVec 3) (id : Nat) (bit : Nat)
  deriving DecidableEq, Repr

/-- One contiguous piece of an engine's work, with its value once it has been read ahead of its packet (R282). -/
structure Move where
  src : Place
  dst : Place
  bits : Nat
  got : Option Nat
  deriving DecidableEq, Repr

/-- A packet of a block-queue entry (R218): the number that orders it, its moves, the device virtual page it touches with
the frame that page is translated to, what it has read, the number that dates the read and whether it came late, whether it
waits, whether a part of it has landed (R282), how it ended, the bits it writes, and when it can act. -/
structure Packet where
  key : Nat
  moves : List Move
  page : Option Nat
  frame : Option Nat
  data : Option (List Nat)
  sentAt : Nat
  late : Bool
  waiting : Bool
  begun : Bool
  code : Option Nat
  bits : Nat
  due : Nat
  deriving DecidableEq, Repr

/-- The clip message an entry posts when it ends (R224). -/
structure ClipInfo where
  hid : Nat
  slot : Option (BitVec 3 × Nat)
  w1 : Word
  w2 : Word
  w3 : Word
  w4 : Word
  deriving DecidableEq, Repr

/-- An entry of the block queue (R217 to R220): the code of an entry that ended at entry, whether elements were
clipped, the core whose counter file holds its destination counter, and whether a migrated chunk issued it (R401). -/
structure BqEntry where
  id : Nat
  cmd : EngineCmd
  tag : Nat
  cid : Nat
  seat : Nat
  lid : Nat
  ctx : Nat
  mig : Bool
  ia : BitVec 48
  cpc : BitVec 48
  packets : List Packet
  entryCode : Option Nat
  clipped : Bool
  clip : Option ClipInfo
  owner : CoreId
  srcAdded : Bool
  deriving DecidableEq, Repr

/-- An instruction in the matrix queue (R176). -/
inductive MatrixOp where
  | mma (m : BitVec 4) (ga gb : BitVec 3) (fmt : BitVec 4) (steps : Nat) (zf : Bool) (wc : Nat)
  | accz (m : BitVec 4)
  | accrd (m : BitVec 4) (row : BitVec 5)
  | accwr (m : BitVec 4) (row : BitVec 5) (val : Vec)
  | accscl (m : BitVec 4) (scale : BitVec 32)
  deriving DecidableEq, Repr

/-- A queued matrix instruction: its seat, steps done, and the number of the gang it has joined, 0 before one has formed (R176,
R182, R183). -/
structure MatrixEntry where
  id : Nat
  seat : Nat
  ia : BitVec 48
  op : MatrixOp
  done : Nat
  gang : Nat
  readyAt : Nat
  deriving DecidableEq, Repr

/-- The step the sub-arrays run (R176), with the tiles it popped (R174). -/
structure MatrixStep where
  id : Nat
  endAt : Nat
  a : List Byte
  b : List Byte
  sa : List Byte
  sb : List Byte
  blogA : Nat
  blogB : Nat
  fmtA : Nat
  fmtB : Nat
  deriving DecidableEq, Repr

/-- A sub-array (R186). -/
structure SubArray where
  awake : Bool
  wakeAt : Option Nat
  idle : Nat
  idleSince : Nat
  deriving DecidableEq, Repr

/-- A seat that waits for the line of a head: the seat, the head, the frame that the line's address is translated to, once it is,
and the cc at which its bytes are there (R10, R22, R423, R426). -/
structure LineWait where
  seat : Nat
  head : Nat
  frame : Option Nat
  due : Nat
  deriving DecidableEq, Repr

/-- A core's rafters port (R238, R409): its configuration, and the submissions a save has withdrawn, each with its round and
the operation, type and width it was made with. -/
structure RaftersPort where
  rect : Option Word
  op : Nat
  ty : Nat
  width : Nat
  withdrawn : List (Nat × (Nat × Nat × Nat) × List Word)
  deriving DecidableEq, Repr

/-- A codebook table load that waits or runs, with the number that orders it among the core's instructions (R165). -/
structure CodebookLoad where
  issued : Nat
  started : Bool
  dueAt : Nat
  data : List Byte
  deriving DecidableEq, Repr

end Sys2Proof.Machine
end

