-- ==== Sys2Proof/Machine/Transit.lean ====
section
/-!
DEFINITION. The parts of the state beyond one core: meeting units, sample groups, the expert directory, launches and the
larder, contexts, translation, the package edge, the service, reliability and power, and what travels between them.
-/
namespace Sys2Proof.Machine

/-- A sample-group slot (R346): state code, configuration record, siblings (0 unsettled, 1 rewarded, 2 cancelled,
3 non-finite, 4 missing) with their rewards, flag, deadline and counts (R354); a free slot that a commit has reserved at its
grant holds the tag of the configure (R350). -/
structure GroupSlot where
  state : Nat
  c0 : Word
  c1 : Word
  c2 : Word
  c3 : Word
  lid : Nat
  siblings : List (Nat × BitVec 32)
  nonFinite : Bool
  deadline : Option Nat
  paused : Option Nat
  dup : Nat
  late : Nat
  stray : Nat
  reserved : Nat
  deriving DecidableEq, Repr

/-- A bind taken by a meeting unit, in absolute form (R316, R317). -/
structure Bind where
  dest : Word
  stat : Word
  ctr : Word
  mask : BitVec 16
  tmo : Nat
  cnt : Nat
  op : Nat
  deriving DecidableEq, Repr

/-- An entry of a meeting unit (R315): the tag, the bind, the arrived mask, the prefix with the parties in it, the operands
held outside it, the creation time, what the creation check has read of the tag table, and the state of that check. -/
structure MeetEntry where
  lid : Nat
  id : Nat
  gen : Nat
  bind : Option Bind
  arrived : BitVec 16
  included : BitVec 16
  folded : List Vec
  waiting : List (Nat × List Vec)
  count : Nat
  created : Nat
  checkAt : Nat
  live : Bool
  checked : Bool
  expired : Bool
  paused : Option Nat
  deriving DecidableEq, Repr

/-- An operand awaiting acceptance at a core's interface (R318, R320). -/
structure MeetOperand where
  lid : Nat
  id : Nat
  gen : Nat
  party : Nat
  data : List Vec
  op : Nat
  router : CoreId
  backoff : Nat
  retryAt : Nat
  expiry : Option Nat
  inFlight : Bool
  deriving DecidableEq, Repr

/-- A directory entry of an expert (R328). -/
structure DirEntry where
  w0 : Word
  w1 : Word
  w2 : Word
  slots : Vector (BitVec 104) 8
  deriving DecidableEq, Repr

/-- An entry of a core's expert cache with its estimates, most recently used first in the cache (R331). -/
structure CachedEntry where
  name : Nat
  entry : DirEntry
  est : Vector Nat 8
  deriving DecidableEq, Repr

/-- What a route in flight waits for (R335, R337): its start, its entry, a claim's reply, the translation of its row, or the
commit of its task with a row or an overflow message still to send. -/
inductive RouteStage where
  | queued
  | fill
  | claim (slot : Nat)
  | copy (slot : Nat) (k : Nat)
  | heldRow (slot : Nat) (k : Nat)
  | heldOverflow
  deriving DecidableEq, Repr

/-- A route of the expert-routing unit (R335), with the entry it goes by, the candidates left, the number that dates its last
claim (R337), for each of its row's pages so far the frame it has been translated to, or the code it failed with, and when the row's
bytes are there once all are (R10). -/
structure Route where
  id : Nat
  name : Nat
  row : Word
  mword : Word
  tag : Nat
  cid : Nat
  seat : Nat
  home : CoreId
  lid : Nat
  ia : BitVec 48
  cpc : BitVec 48
  mig : Bool
  refresh : Nat
  entry : DirEntry
  cand : List Nat
  claimNo : Nat
  frames : List (Option Nat × Nat)
  due : Nat
  stage : RouteStage
  spec : Bool
  aborted : Bool
  deriving DecidableEq, Repr

/-- The meeting statistics of a launch (R325), each saturating at 0xFFFF_FFFF. -/
structure MeetStats where
  stale : Nat
  duplicate : Nat
  stray : Nat
  mismatch : Nat
  rebind : Nat
  late : Nat
  unbound : Nat
  orphan : Nat
  badFree : Nat
  nak : Nat
  deriving DecidableEq, Repr

/-- A record in a priority queue: its larder and key when it is a task (R377). -/
structure Queued where
  larder : Nat
  record : Record
  deriving DecidableEq, Repr

/-- A round of the rafters over one rectangle (R239): members, items submitted with the configuration each was made with,
and the cc its result lands. -/
structure Round where
  id : Nat
  ctx : Nat
  rect : Word
  members : List CoreId
  items : List (CoreId × (Nat × Nat × Nat) × List Word)
  dueAt : Option Nat
  deriving DecidableEq, Repr

/-- A horizon reduction on its way (R386): the least key, when it started and when it arrives. -/
structure Reduction where
  key : Nat × Nat
  startedAt : Nat
  dueAt : Nat
  deriving DecidableEq, Repr

/-- A launch (R373) and everything that lives for it outside the cores. -/
structure Launch where
  lid : Nat
  ctx : Nat
  handlers : List Word
  rect : Word
  prio : Nat
  noMig : Bool
  energy : Nat
  drops : Nat
  levint : Nat
  window : Nat
  startAt : Nat
  pending : List Record
  tagGens : List (Nat × Nat)
  tagBlocks : List (Nat × Nat)
  meetStats : MeetStats
  fifos : List ((Nat × Nat) × List Record)
  prio0 : List Queued
  prio1 : List Queued
  extended : List ((Nat × Nat) × Nat)
  horizon : Option (Nat × Nat)
  horizonFrom : Nat
  horizonAt : Nat
  reductions : List Reduction
  issuedKeys : List (Nat × (Nat × Nat))
  topStamp : Option Nat
  levelAt : Nat
  servedLast : Nat
  deriving DecidableEq, Repr

/-- An undecided trap record (R403): of a trapped seat, or of a suspended record that went to the hall (R252, R362). -/
structure Ticket where
  id : Nat
  core : CoreId
  seat : Nat
  ctx : Nat
  record : Option Record
  deriving DecidableEq, Repr

/-- A virtual function (R415, R480): rectangles in scope form, traffic-class mask, seal, logical-to-physical overrides. -/
structure VirtualFunction where
  vf : Nat
  rects : List Word
  tcMask : BitVec 8
  isSealed : Bool
  key : Option Nat
  credential : Option Nat
  active : Bool
  lp : List (Nat × Option Nat)
  deriving DecidableEq, Repr

/-- A hall thread (R396): the context it belongs to, its class, its continuation, whether it waits for a seat, the record that it
goes on with once a counter has released it, its seat's state where it was taken off one with the cores that were saved then, where
it runs, and since when.  One that has ended, or waits on a counter, is on no seat and not ready. -/
structure HallThread where
  ctx : Nat
  prio : Nat
  cid : Nat
  ready : Bool
  record : Option Record
  kept : Option Seat
  saved : List CoreId
  place : Option (CoreId × Nat)
  since : Nat
  deriving DecidableEq, Repr

/-- What a walk is for (R423): a block-queue packet, a code line, an XCOPY landing at the edge, or a route's row. -/
inductive WalkFor where
  | packet (core : CoreId) (entry : Nat) (packet : Nat)
  | line (core : CoreId) (seat : Nat)
  | edge (flight : Nat)
  | route (core : CoreId) (route : Nat)
  deriving DecidableEq, Repr

/-- A page-table walk, pending or held on a fault (R424, R425), with the core whose caches it fills. -/
structure Walk where
  id : Nat
  core : CoreId
  ctx : Nat
  vf : Nat
  va : Nat
  access : Nat
  purpose : WalkFor
  held : Bool
  readyAt : Nat
  deriving DecidableEq, Repr

/-- A cached translation (R424): context, base of the page, its size in bytes and the leaf entry. -/
structure TlbEntry where
  ctx : Nat
  vf : Nat
  base : Nat
  size : Nat
  entry : Word
  deriving DecidableEq, Repr

/-- A die's shared cache (R424, R427): translations, pinned ones apart. -/
structure DieTlb where
  entries : List TlbEntry
  pinned : List TlbEntry
  deriving DecidableEq, Repr

/-- An export entry (R437) or a stream entry (R439): four words. -/
structure TableEntry where
  w0 : Word
  w1 : Word
  w2 : Word
  w3 : Word
  deriving DecidableEq, Repr

/-- A packet of an XCOPY on a stream (R440), or its marker (R441): which packet of how many it is, the set index it carries,
the port it goes by, the package it comes from, its traffic class, its space 3 address, and its arrival counter. -/
structure EdgePacket where
  xid : Nat
  index : Nat
  total : Nat
  stream : Nat
  set : Nat
  port : Option Nat
  source : Nat
  tc : Nat
  dst : Word
  data : List Byte
  marker : Bool
  dc : Nat
  ahead : List Nat := []
  deriving DecidableEq, Repr

/-- A packet at this package's edge: its XCOPY's source pointer and how far past it the packet's bytes begin, the pieces of device
memory that its pages have been translated to (R423), when its bytes are there once all are (R10), whether its bytes have been read,
whether it has left once, and whether it is out and not yet acknowledged (R442). -/
structure EdgeSend where
  id : Nat
  packet : EdgePacket
  src : Word
  off : Nat
  bytes : Nat
  frames : List (Nat × Nat)
  due : Nat
  read : Bool
  departed : Bool
  out : Bool
  deriving DecidableEq, Repr

/-- An XCOPY that leaves this package (R443): who issued it, the packets that have not left, and those not yet settled. -/
structure Outgoing where
  xid : Nat
  tag : Nat
  cid : Nat
  core : CoreId
  seat : Nat
  lid : Nat
  ctx : Nat
  home : CoreId
  ia : BitVec 48
  cpc : BitVec 48
  mig : Bool
  sc : Nat
  toLeave : Nat
  toSettle : Nat
  deriving DecidableEq, Repr

/-- An XCOPY that arrives here (R443): its source package, and the packets that have landed. -/
structure Incoming where
  source : Nat
  xid : Nat
  landed : Nat
  deriving DecidableEq, Repr

/-- A reply of the resident service (R445). -/
structure Reply where
  tag : Nat
  status : Nat
  body : List Word
  deriving DecidableEq, Repr

/-- A wait request not yet answered (R445). -/
structure ServiceWait where
  tag : Nat
  ctx : Nat
  core : CoreId
  idx : BitVec 8
  thr : Word
  deadline : Nat
  deriving DecidableEq, Repr

/-- A debug session (R473): level 0 none, 1 trace, 2 halt-own, 3 vendor; `halting` holds the requests of halts that are not reported
yet, each with its rectangle and whether it is a settled one. -/
structure Session where
  id : Nat
  requester : Nat
  level : Nat
  ctx : Nat
  quick : List CoreId
  settled : List CoreId
  notice : Bool
  vfCredential : Bool
  sampleAt : Option Nat
  samples : List Word
  halting : List (Nat × Word × Bool)
  deriving DecidableEq, Repr

/-- The package's lifecycle (R480). -/
inductive Lifecycle where
  | provisioning
  | deployed
  deriving DecidableEq, Repr

/-- A mirror table entry (R458). -/
structure Mirror where
  granule : Nat
  cellar : Nat
  clean : Bool
  deriving DecidableEq, Repr

/-- A parity update on its way to a parity line's streamer (R457). -/
structure ParityUpdate where
  id : Nat
  line : Nat
  offset : Nat
  delta : List Byte
  deriving DecidableEq, Repr

/-- An entry of a base die's error log (R462): kind 0 corrected, 1 rebuilt from parity, 2 rebuilt from the cellar,
3 poisoned, 4 parity recomputed. -/
structure ErrorRecord where
  stack : Nat
  line : Nat
  kind : Nat
  vf : Nat
  time : Nat
  deriving DecidableEq, Repr

/-- The power state of a core (R483); matrix-gated is read from its sub-arrays. -/
inductive CorePower where
  | active
  | parked
  | off
  deriving DecidableEq, Repr

/-- What pre-emption has made of a core: nothing, a stop, a save that has emptied it, a save or a load that failed, or a load
that waits for the other cores of its rectangle (R406 to R411). -/
inductive CoreHold where
  | none
  | stopping
  | saved
  | reserved
  | loading
  deriving DecidableEq, Repr

/-- A physical core whose retirement is due (R468), with the contexts and their cores that its first step saves, once it has begun. -/
structure Retirement where
  core : Nat
  saving : Option (List (Nat × List CoreId))
  deriving DecidableEq, Repr

/-- A CTXSAVE or a CTXLOAD under way (R414): its context, its counter on its hall core, its cores, those
still to finish, and when the storing of a core's area ends (R407). -/
structure SaveJob where
  id : Nat
  ctx : Nat
  hall : CoreId
  idx : BitVec 8
  load : Bool
  cores : List CoreId
  waiting : List CoreId
  storing : List (CoreId × Nat)
  deriving DecidableEq, Repr

/-- A trap record (R401), eight words, with where it is to be posted: a context's ring, or hall 0.0's. -/
structure TrapRecord where
  ctx : Nat
  words : List Word
  deriving DecidableEq, Repr

/-- A seat transfer (R205): the chunk-start state of a continuation with its record and pending results. -/
structure Transfer where
  regs : Regs
  record : Record
  cid : Nat
  deferred : List Deferred
  core : CoreId
  seat : Nat
  target : CoreId
  lastCommit : Option CoreId
  task : Option TaskState
  retired : Bool
  trap : Option DeferredTrap
  more : Nat
  deriving DecidableEq, Repr

/-- What a load makes of the bytes it reads away from home (R191): a scalar under a width selector, a vector, or the elements of a
format for some lanes of one, the others as given (R156). -/
inductive LoadForm where
  | scalar (w : BitVec 3)
  | vector
  | gather (fmt : Nat) (lanes : List Nat) (kept : Vec)
  deriving DecidableEq, Repr

/-- What an item in flight does when it arrives; a fired engine command carries the address of its record (R235), and
an XCOPY the number that dates its chunk's place or its firing (R440, R450). -/
inductive Body where
  | effect (h : Held)
  | engineAdd (addr : Word) (idx : BitVec 8) (v : Word)
  | hallFire (t : Trigger)
  | cread (addr : Word) (idx : BitVec 8)
  | load (places : List Nat) (n : Nat) (own : List Host.Cell) (form : LoadForm)
  | mbtake (rank : Nat)
  | waitc (addr : Word) (idx : BitVec 8) (thr : Word) (record : Record)
  | message (m : Message)
  | deferred (tag : Nat) (val : Word)
  | record (r : Record)
  | spawned (r : Record)
  | initial (r : Record) (line : Option (Nat × List Byte))
  | levelled (r : Record)
  | transfer (t : Transfer)
  | transferBack (t : Transfer)
  | pull (larder : Nat)
  | pulled (r : Option Record)
  | nack (t : DeferredTrap)
  | ack
  | bqEntry (cmd : EngineCmd) (fired : Option Nat)
  | region3 (seat : Nat) (off : Nat) (data : List Byte) (entry : Nat) (packet : Nat)
  | tagFree (tag n : Word)
  | purge (id : Nat)
  | bind (id gen : Nat) (b : Bind) (backoff : Nat)
  | operand (o : MeetOperand)
  | fill (route : Nat)
  | claim (route name slot : Nat) (idx : BitVec 8) (gen cap : Nat)
  | claimReply (route : Nat) (answer : Option Nat) (stale : Bool)
  | metadata (w0 w1 : Word) (off : Nat) (actr : BitVec 8) (claim : Nat)
  | setBound (idx : BitVec 8) (kind : Nat) (gen cap : Nat)
  | countAdd (name slot : Nat)
  | groupWrite (adv : Word) (words : List Word) (stat status : Word) (ctr : Nat)
  | push (larder : Nat) (qn : Option Nat) (record : Record)
  | pop (larder qn : Nat) (dst : Word) (home : CoreId)
  | extend (larder : Nat) (qn : Option Nat) (record : Record)
  | trap (t : TrapRecord)
  | stop (job : Nat)
  | restore (job : Nat)
  | stream (cmd : EngineCmd) (fired : Option Nat) (order : Nat)
  | packet (p : EdgePacket)
  | xack (xid index : Nat) (refused : Option (Nat × Word))
  deriving DecidableEq, Repr

/-- An item in flight: the earliest cc it can be taken, the core it left and the core it goes to, the continuation and seat that
issued it, the tag of its operation, where its trap record would point (R405), its next backoff (R475), and whether a migrated chunk
issued it (R401). -/
structure Flight where
  id : Nat
  due : Nat
  src : CoreId
  dst : CoreId
  lid : Nat
  cid : Nat
  seat : Nat
  tag : Nat
  ia : BitVec 48
  cpc : BitVec 48
  backoff : Nat
  mig : Bool := false
  body : Body
  deriving DecidableEq, Repr

/-- An operation issued and not complete (R278), with what decides whether a fence's scope holds it (R268): the core of an
on-chip destination, HBM or the cellar, or another package.  A path effect stays until its acknowledgement (R280), marked
done once executed; `fenced` says that a release fence waits for it (R269). -/
structure OpenOp where
  tag : Nat
  cid : Nat
  place : Option CoreId
  remote : Bool
  path : Bool
  src : CoreId
  done : Bool
  fenced : Bool
  deriving DecidableEq, Repr

end Sys2Proof.Machine
end

