-- ==== Sys2Proof/Machine/State.lean ====
section
/-!
DEFINITION. The state of one package: its cores and seats, its memories, the items in transit, the launches and
contexts, and the environment's schedule; the reasons a step can stop; and the state right after reset.
-/
namespace Sys2Proof.Machine

/-- Why the machine stops.  No architected fault is here: every fault of R404 is a next state. -/
inductive Fault where
  /-- Raised by `step` when the schedule gives a turn to a core or seat that does not exist (R2, R4, R7). Safe. -/
  | noSuchSeat
  deriving DecidableEq, Repr

/-- Why a step is refused. -/
inductive Refusal where
  /-- Raised by `exec` for an instruction that has no meaning yet. Safe. -/
  | notModelled (mnemonic : String)
  deriving DecidableEq, Repr

/-- One core (R7): its four seats and every object that the core keeps. -/
structure Core where
  seat0 : Seat
  seat1 : Seat
  seat2 : Seat
  seat3 : Seat
  store : Mem
  full : List Nat
  reserved : List (Nat × CoreId × Nat)
  poison : List Nat
  counters : Vector Counter 256
  waiters : List Waiter
  windows : Vector Window 8
  triggers : Vector Trigger 64
  hallArms : List Trigger
  rings : Vector Ring 8
  matrix : List MatrixEntry
  mstep : Option MatrixStep
  tileHolds : List (Nat × Nat)
  popOrder : List (BitVec 3 × Nat)
  subs : Vector SubArray 4
  bq : List BqEntry
  msgq : List Message
  mailbox : Mailbox
  ready : List Record
  work : List Record
  tookMsg : Bool
  served : List Nat
  pulling : Bool
  priority : Option (CoreId × Nat)
  priorityQueue : List (CoreId × Nat)
  rafters : RaftersPort
  table : List Byte
  cbValid : Bool
  cbLoads : Nat
  cbPending : List CodebookLoad
  groups : Vector GroupSlot 4
  meets : List MeetEntry
  iface : List MeetOperand
  experts : List CachedEntry
  routes : List Route
  msgCounts : List (Nat × BitVec 32)
  spawnCounts : List (Nat × BitVec 32)
  lines : List (Nat × List Byte)
  lineWaits : List LineWait
  tlb : List TlbEntry
  droops : Word
  power : CorePower
  clockStep : Int
  arrivals : List (BitVec 8 × List (CoreId × Nat))
  clockMoves : List (BitVec 8 × CoreId × Int)
  ctx : Nat
  hold : CoreHold
  haltQuick : Bool
  haltSettled : Option Nat
  deriving DecidableEq, Repr

/-- A context (R396, R400, R422): its function, class and requester, its hall registers, the write index of its trap ring,
its root, and one that a CTXLOAD is to take, its expert directory, the cores it has saved (R407), and its NF, RMODE and SEED on the hall
seats it has left (R44). -/
structure Context where
  id : Nat
  vf : Nat
  prio : Nat
  requester : Nat
  budget : BitVec 32
  save : BitVec 48
  trq : BitVec 32
  ringNext : Nat
  root : Word
  nextRoot : Option Word
  directory : List (Nat × DirEntry)
  saved : List (CoreId × Core)
  pausedGroups : List (CoreId × Nat)
  hallSeats : List ((CoreId × Nat) × (BitVec 6 × BitVec 3 × Word))
  deriving DecidableEq, Repr

/-- One turn of the schedule, after a gap in cc: a seat's issue, an event of the table, a requester's message, by its header, the
length of its body and the request that the body stands for (R445), something that another package puts on a port (a packet of a
stream, or an acknowledgement: R440, R443, DESIGN CHOICE log 17), a word of an engine's packet that is read or lands ahead of the
rest of it (R282: the piece of one of its moves that holds one word), a word of an arriving packet that lands ahead of the rest
(R282), what a debug session does by itself (R475, R479), an error of a stored line, which its check can correct or not, or of a
word, which it cannot (R455, R463, DESIGN CHOICE log 18), or a change that the service makes to its guard map or its mirror table
(R457, R458, DESIGN CHOICE log 18). -/
inductive Turn where
  | issue (gap : Nat) (core : CoreId) (seat : Nat)
  | event (gap : Nat) (e : Instr)
  | request (gap requester : Nat) (header : List Byte) (length : Nat) (e : Instr)
  | packet (gap : Nat) (p : EdgePacket)
  | word (gap : Nat) (core : CoreId) (entry packet move word : Nat)
  | session (gap id : Nat)
  | edgeWord (gap flight word : Nat)
  | ack (gap : Nat) (xid index : Nat) (refused : Option (Nat × Word))
  | dramError (gap line : Nat) (hard : Bool)
  | sramError (gap : Nat) (core : CoreId) (word : Nat)
  | guard (gap region : Nat) (on : Bool)
  | mirror (gap granule : Nat) (cellar : Option Nat)
  deriving DecidableEq, Repr

/-- The package. -/
structure State where
  cycle : Nat
  curCore : CoreId
  curSeat : Nat
  agenda : List Turn
  fresh : Nat
  place : Nat × Nat
  cores : List (CoreId × Core)
  flights : List Flight
  openOps : List OpenOp
  ended : List (Nat × Record)
  dram : Mem
  contexts : List Context
  launches : List Launch
  rounds : List Round
  tickets : List Ticket
  vfs : List VirtualFunction
  runQueue : List HallThread
  hallRing : Nat
  saveJobs : List SaveJob
  walks : List Walk
  invs : List (Nat × List (Nat × Option Nat))
  dieTlbs : Vector DieTlb 4
  exports : List (Nat × TableEntry)
  streams : List (Nat × TableEntry)
  ports : Vector Bool 12
  pkgId : BitVec 12
  edgeOut : List EdgeSend
  outgoing : List Outgoing
  incoming : List Incoming
  replies : List Reply
  waits : List ServiceWait
  sessions : List Session
  lifecycle : Lifecycle
  guards : List Nat
  mirrors : List Mirror
  parityDue : List ParityUpdate
  poisonLines : List Nat
  badLines : List Nat
  weakLines : List Nat
  errlogs : List ErrorRecord
  repair : List (Nat × Option Nat)
  retired : List Nat
  storeFaults : List (Nat × Nat)
  retireDue : List Retirement
  powerCap : Nat
  idle : Bool
  requestAt : Nat
  deriving DecidableEq, Repr

/-- Registers with nothing in them: RMODE and NF 0, and SEED as at context creation (R45); the rest by DESIGN CHOICE log 1. -/
def Regs.init (seed : Word) : Regs :=
  { x := Vector.replicate 64 0, v := Vector.replicate 32 0, q := Vector.replicate 8 0, pc := 0, nf := 0, rmode := 0,
    seed := seed, fin := 0, woke := false, wrap := false }

/-- A record of zeros. -/
def Record.zero : Record :=
  { w0 := 0, w1 := 0, w2 := 0, a1 := 0, a2 := 0, a3 := 0, a4 := 0, a5 := 0, x7 := 0, cid := 0, clip := none, last := none }

/-- Hall registers as at reset (R400, DESIGN CHOICE log 1). -/
def HallRegs.zero : HallRegs :=
  { hvec := 0, hepc := 0, hcause := 0, hctx := 0, service := false, sliceEnd := false }

/-- SEED at context creation: a constant XOR four times the core's index plus the seat (R45). -/
def initialSeed (core seat : Nat) : Word := 0x9E3779B97F4A7C15 ^^^ BitVec.ofNat 64 (4 * core + seat)

/-- A free seat that has run nothing (R192, R45). -/
def Seat.init (core seat : Nat) : Seat :=
  { st := .free, regs := Regs.init (initialSeed core seat), snap := Regs.init (initialSeed core seat), past := [],
    delivered := [], record := Record.zero, cid := 0, results := [], deferred := [], wbuf := [], wtotal := 0, fe := [],
    held := [], commitOps := [], count := 0, startAt := 0, started := false, boundary := none, grantAt := 0, granted := false,
    place := 0, resumeAt := 0, arriveAt := none, waitFull := none, filter := none, conflict := false, conflictRow := 0,
    undo := { pops := [], tiles := [] }, trap := none, more := 0, ticket := 0, origin := none, kept := none,
    lentTo := none, lastCommit := none, task := none, allocated := [], popped := [],
    rerun := none, stop := false, haltedAt := none, hall := HallRegs.zero, hallSnap := HallRegs.zero,
    hallUndo := [], budget := 0, lastIssue := 0, lastClass := .scalar }

/-- A halt holds the seat (R474). -/
def Seat.halted (t : Seat) : Bool := t.haltedAt.isSome

/-- A ring that is not configured (R172). -/
def Ring.init : Ring :=
  { base := 0, shape := 0, cfg := false, eng := false, lnk := false, sring := 0, held := 0, ready := 0, hseq := 0,
    tail := 0, head := 0, pubs := 0, filling := [], given := [], tags := [] }

/-- A free sample-group slot (R346). -/
def GroupSlot.free : GroupSlot :=
  { state := 0, c0 := 0, c1 := 0, c2 := 0, c3 := 0, lid := 0, siblings := [], nonFinite := false, deadline := none,
    paused := none, dup := 0, late := 0, stray := 0, reserved := 0 }

/-- The mailbox at launch start: k = 32, counter 0 and E = 0 (R254). -/
def Mailbox.init : Mailbox := { k := 32, idx := 0, expected := 0, posts := 0, entries := [] }

/-- A core after boot: every counter and window zero, active, its sub-arrays gated with an idle count of 2,048 (R186,
R211, R228, R485).  It has taken from neither list of R201 yet, and takes the message queue first (DESIGN CHOICE log 99). -/
def Core.init (core : CoreId) : Core :=
  { seat0 := Seat.init core 0, seat1 := Seat.init core 1, seat2 := Seat.init core 2, seat3 := Seat.init core 3,
    store := [], full := [], reserved := [], poison := [],
    counters := Vector.replicate 256 { value := 0, shadow := 0 }, waiters := [],
    windows := Vector.replicate 8 { w0 := 0, w1 := 0 },
    triggers := Vector.replicate 64 { armed := false, idx := 0, thr := 0, record := 0, lid := 0 }, hallArms := [],
    rings := Vector.replicate 8 Ring.init, matrix := [], mstep := none, tileHolds := [], popOrder := [],
    subs := Vector.replicate 4 { awake := false, wakeAt := none, idle := 2048, idleSince := 0 },
    bq := [], msgq := [], mailbox := Mailbox.init, ready := [], work := [], tookMsg := false, served := [],
    pulling := false, priority := none, priorityQueue := [],
    rafters := { rect := none, op := 0, ty := 0, width := 0, withdrawn := [] },
    table := [], cbValid := false, cbLoads := 0, cbPending := [],
    groups := Vector.replicate 4 GroupSlot.free, meets := [], iface := [], experts := [], routes := [],
    msgCounts := [], spawnCounts := [], lines := [], lineWaits := [], tlb := [], droops := 0,
    power := .active, clockStep := 0, arrivals := [], clockMoves := [], ctx := 0, hold := .none, haltQuick := false,
    haltSettled := none }

/-- The machine right after reset: booted, with no context, launch or virtual function, and nothing in any memory
(R485, DESIGN CHOICE log 1, DESIGN CHOICE log 2, DESIGN CHOICE log 19). -/
def State.reset : State :=
  { cycle := 0, curCore := 0, curSeat := 0, agenda := [], fresh := 1, place := (0, 0), cores := [], flights := [], openOps := [],
    ended := [], dram := [], contexts := [], launches := [], rounds := [], tickets := [], vfs := [], runQueue := [],
      hallRing := 0, saveJobs := [],
    walks := [], invs := [], dieTlbs := Vector.replicate 4 { entries := [], pinned := [] }, exports := [], streams := [],
    ports := Vector.replicate 12 true, pkgId := 0, edgeOut := [], outgoing := [],
    incoming := [], replies := [], waits := [], sessions := [], lifecycle := .provisioning, guards := [], mirrors := [],
    parityDue := [], poisonLines := [], badLines := [], weakLines := [], errlogs := [], repair := [], retired := [],
      storeFaults := [], retireDue := [],
    powerCap := 0, idle := false, requestAt := 0 }

end Sys2Proof.Machine
end

