-- ==== Sys2Proof/Machine/Ops.lean ====
section
/-!
DEFINITION. The named operations over memory, cores, seats and registers, and the shared operation that takes an
exception: the abort of a chunk (R209), the trap record (R401), and the hall's service entry with its return (R398).
-/
namespace Sys2Proof.Machine

/-! ### Memory -/

/-- What a byte that nothing has written reads as (DESIGN CHOICE log 2). -/
def Mem.empty : Byte := 0

/-- The byte at an address. -/
def Mem.get : Mem → Nat → Byte
  | [], _ => Mem.empty
  | (a, b) :: r, x => if a = x then b else Mem.get r x

/-- Write one byte, keeping addresses rising and no entry equal to the empty byte. -/
def Mem.put : Mem → Nat → Byte → Mem
  | [], x, v => if v = Mem.empty then [] else [(x, v)]
  | (a, b) :: r, x, v =>
    if x < a then (if v = Mem.empty then (a, b) :: r else (x, v) :: (a, b) :: r)
    else if x = a then (if v = Mem.empty then r else (x, v) :: r)
    else (a, b) :: Mem.put r x v

/-- Addresses above `lo` rise strictly and no byte is the empty one. -/
def Mem.sortedFrom : Nat → Mem → Bool
  | _, [] => true
  | lo, (a, b) :: r => lo ≤ a && b != Mem.empty && Mem.sortedFrom (a + 1) r

/-- The canonical form. -/
def Mem.wf (m : Mem) : Bool := Mem.sortedFrom 0 m

/-- n bytes from an address up. -/
def Mem.bytes (m : Mem) (a n : Nat) : List Byte := (run a n).map m.get

/-- Write bytes from an address up. -/
def Mem.write (m : Mem) (a : Nat) : List Byte → Mem
  | [] => m
  | b :: r => Mem.write (m.put a b) (a + 1) r

/-- The eight-byte word at an address. -/
def Mem.word (m : Mem) (a : Nat) : Word := BitVec.ofNat 64 (bytesToNat (m.bytes a 8))

/-! ### Cores and seats -/

/-- The core under an index; a core that nothing has touched is as after boot. -/
def lookupCore : List (CoreId × Core) → CoreId → Core
  | [], c => Core.init c
  | (d, k) :: r, c => if d = c then k else lookupCore r c

/-- Replace the core under an index. -/
def storeCore : List (CoreId × Core) → CoreId → Core → List (CoreId × Core)
  | [], c, k => [(c, k)]
  | (d, j) :: r, c, k => if d = c then (c, k) :: r else (d, j) :: storeCore r c k

/-- Core c. -/
def State.core (s : State) (c : CoreId) : Core := lookupCore s.cores c

/-- The state with core c replaced. -/
def State.setCore (s : State) (c : CoreId) (k : Core) : State := { s with cores := storeCore s.cores c k }

/-- A core's state is away: saved, kept back, or not yet whole (R407, R408, R411). -/
def Core.away (k : Core) : Bool := k.hold != .none && k.hold != .stopping

/-- A core takes deliveries: it is active (R483), and neither away nor under a settled halt (R407, R475). -/
def Core.open' (k : Core) : Bool := k.power == .active && !k.away && k.haltSettled.isNone

/-- Seat n of a core, 0 to 3. -/
def Core.seat (k : Core) (n : Nat) : Seat :=
  match n with
  | 0 => k.seat0
  | 1 => k.seat1
  | 2 => k.seat2
  | _ => k.seat3

/-- The core with seat n replaced. -/
def Core.setSeat (k : Core) (n : Nat) (x : Seat) : Core :=
  match n with
  | 0 => { k with seat0 := x }
  | 1 => { k with seat1 := x }
  | 2 => { k with seat2 := x }
  | _ => { k with seat3 := x }

/-- Seat n of core c. -/
def State.seat (s : State) (c : CoreId) (n : Nat) : Seat := (s.core c).seat n

/-- The state with seat n of core c replaced. -/
def State.setSeat (s : State) (c : CoreId) (n : Nat) (x : Seat) : State :=
  s.setCore c ((s.core c).setSeat n x)

/-- The issuing seat. -/
def State.me (s : State) : Seat := s.seat s.curCore s.curSeat

/-- The state with the issuing seat replaced. -/
def State.setMe (s : State) (x : Seat) : State := s.setSeat s.curCore s.curSeat x

/-- The executing core. -/
def State.here (s : State) : Core := s.core s.curCore

/-- The state with the executing core replaced. -/
def State.setHere (s : State) (k : Core) : State := s.setCore s.curCore k

/-- A hall core's index (R4). -/
def isHall (c : CoreId) : Bool := 2048 ≤ c

/-- The home core of a seat's continuation (R191); a hall seat's home is its own core (R399). -/
def seatHome (c : CoreId) (x : Seat) : CoreId := if isHall c then c else x.record.w1.toNat % 2048

/-- The issuing continuation's home core. -/
def State.home (s : State) : CoreId := seatHome s.curCore s.me

/-- The column and row of a compute core (R2). -/
def coreCol (c : CoreId) : Nat := c % 64

def coreRow (c : CoreId) : Nat := c / 64

/-- The die of a core (R3, R4). -/
def coreDie (c : CoreId) : Nat :=
  if isHall c then (c - 2048) / 4 % 4
  else (if coreCol c < 32 then 0 else 1) + (if coreRow c < 16 then 0 else 2)

/-- A core has the F64 extension (R5). -/
def hasF64 (c : CoreId) : Bool := !isHall c && c % 8 == 7

/-- EXTSET (R4, R46). -/
def extensions (c : CoreId) : Nat := if isHall c then 0x23 else if hasF64 c then 0x1F else 0x0F

/-! ### Launches, contexts and flights -/

/-- The launch under an id. -/
def State.launch (s : State) (lid : Nat) : Option Launch := s.launches.find? (·.lid == lid)

/-- The state with f applied to a launch. -/
def State.modLaunch (s : State) (lid : Nat) (f : Launch → Launch) : State :=
  { s with launches := mapFirst (·.lid == lid) f s.launches }

/-- The context under an id. -/
def State.context (s : State) (id : Nat) : Option Context := s.contexts.find? (·.id == id)

/-- The state with f applied to a context. -/
def State.modContext (s : State) (id : Nat) (f : Context → Context) : State :=
  { s with contexts := mapFirst (·.id == id) f s.contexts }

/-- The budget of a context's chunks: 0 acts as 400,000 (R197, R400). -/
def State.contextBudget (s : State) (ctx : Nat) : Nat :=
  match s.context ctx with
  | some x => if x.budget = 0 then 400000 else x.budget.toNat
  | none => 400000

/-- The launch id a record carries (R188). -/
def Record.lid (r : Record) : Nat := r.w1.field 11 16

/-- The home core a record carries (R188). -/
def Record.home (r : Record) : CoreId := r.w1.field 0 11

/-- A record's words. -/
def Record.words (r : Record) : List Word := [r.w0, r.w1, r.w2, r.a1, r.a2, r.a3, r.a4, r.a5]

/-- The record that eight words hold. -/
def Record.ofWords (l : List Word) (x7 : Word) : Record :=
  { w0 := wordAt l 0, w1 := wordAt l 1, w2 := wordAt l 2, a1 := wordAt l 3, a2 := wordAt l 4, a3 := wordAt l 5,
    a4 := wordAt l 6, a5 := wordAt l 7, x7 := x7, cid := 0, clip := none, last := none }

/-- The launch id of a seat's continuation. -/
def Seat.lid (x : Seat) : Nat := x.record.lid

/-- The hall thread of a continuation (R396). -/
def State.thread (s : State) (cid : Nat) : Option HallThread := s.runQueue.find? (·.cid == cid)

/-- The context that a seat's continuation belongs to: its hall thread's, or its launch's. -/
def State.ctxOf (s : State) (c : CoreId) (x : Seat) : Nat :=
  if isHall c then ((s.thread x.cid).map (·.ctx)).getD 0 else
    match s.launch x.lid with
    | some l => l.ctx
    | none => (s.core c).ctx

/-- The context that an item of a core is for: that of the hall thread that issued it, or of its launch. -/
def State.itemCtx (s : State) (c : CoreId) (lid cid : Nat) : Nat :=
  match (if isHall c then s.thread cid else none) with
  | some h => h.ctx
  | none => ((s.launch lid).map (·.ctx)).getD (s.core c).ctx

/-- The launch rectangle of a launch in scope form; all ones where there is no such launch. -/
def State.launchRect (s : State) (lid : Nat) : Option Word := (s.launch lid).map (·.rect)

/-- A fresh number. -/
def State.tick (s : State) : State := { s with fresh := s.fresh + 1 }

/-- Put an item in flight, due after `delay` cc. -/
def State.send (s : State) (delay : Nat) (src dst : CoreId) (lid cid seat tag : Nat) (ia cpc : BitVec 48)
    (b : Body) (mig : Bool := false) : State :=
  { s with
    flights := s.flights ++ [{ id := s.fresh, due := s.cycle + delay, src := src, dst := dst, lid := lid, cid := cid,
                               seat := seat, tag := tag, ia := ia, cpc := cpc, backoff := 64, mig := mig, body := b }]
    fresh := s.fresh + 1 }

/-- The flight under an id. -/
def State.flight (s : State) (f : Nat) : Option Flight := s.flights.find? (·.id == f)

/-- The state without a flight. -/
def State.dropFlight (s : State) (f : Nat) : State := { s with flights := s.flights.filter (·.id != f) }

/-- An operation completes (R278): no fence waits for it any more; a path effect goes when it is acknowledged (R280). -/
def State.complete (s : State) (tag : Nat) : State :=
  { s with openOps := s.openOps.filterMap (fun o =>
      if o.tag == tag then (if o.path then some { o with done := true } else none) else some o) }

/-- A physical core: column in bits 4:0, row in bits 9:5, die in bits 11:10. -/
def physicalOf (c : CoreId) : Nat := coreDie c * 1024 + coreRow c % 16 * 32 + coreCol c % 32

/-- Where the repair map places a logical index. -/
def State.repairOf (s : State) (idx : Nat) : Option Nat := (assocGet s.repair idx).getD (some (physicalOf idx))

/-- Where a virtual function's table places a logical index. -/
def VirtualFunction.place (v : VirtualFunction) (idx : Nat) : Option Nat := (assocGet v.lp idx).getD (some (physicalOf idx))

/-- The position of a core on the logical mesh: a hall core counts as in the south row of its die (R4, DESIGN CHOICE log 16). -/
def meshPos (c : CoreId) : Nat × Nat :=
  if isHall c then
    let d := coreDie c
    ((if d % 2 = 0 then 0 else 32) + (c - 2048) % 4 * 8, if d < 2 then 15 else 31)
  else (coreCol c, coreRow c)

/-- Distance between two numbers. -/
def absDiff (a b : Nat) : Nat := (a - b) + (b - a)

/-- Logical hops between two cores. -/
def hops (a b : CoreId) : Nat :=
  absDiff (meshPos a).1 (meshPos b).1 + absDiff (meshPos a).2 (meshPos b).2

/-- The virtual function of a context. -/
def State.functionOf (s : State) (ctx : Nat) : Option VirtualFunction := (s.context ctx).bind (fun x => s.vfs.find? (·.vf == x.vf))

/-- The physical core of a context's logical index: by the table of its function, or by the repair map (R417, R465, R466) (DESIGN
CHOICE DESIGN CHOICE log 120). -/
def State.placeIn (s : State) (ctx : Nat) (c : CoreId) : Option Nat :=
  match s.functionOf ctx with
  | some v => v.place c
  | none => s.repairOf c

/-- The physical core of a logical index, for the context that its core holds. -/
def State.placeOf (s : State) (c : CoreId) : Option Nat := s.placeIn (s.core c).ctx c

/-- The position of a core on the physical mesh, whose dies have 17 rows each (R3, R465, R467); the die is the logical one's, and a
hall core stands below the last row of its die (R4) (DEDUCED log 87). -/
def State.physPos (s : State) (c : CoreId) : Nat × Nat :=
  let d := coreDie c
  if isHall c then ((meshPos c).1, d / 2 * 17 + 16)
  else
    let p := (s.placeOf c).getD (physicalOf c)
    (d % 2 * 32 + p % 32, d / 2 * 17 + p / 32 % 32)

/-- Physical hops between two cores (R9, R467): one more for the router of a hall core, south of its die's last row (R4, R406). -/
def State.hops (s : State) (a b : CoreId) : Nat :=
  let edge (c : CoreId) : Nat := if isHall c then 1 else 0
  if a = b then 0
  else absDiff (s.physPos a).1 (s.physPos b).1 + absDiff (s.physPos a).2 (s.physPos b).2 + edge a + edge b

/-- Die boundaries crossed on the XY path between two cores (R9). -/
def crossings (a b : CoreId) : Nat :=
  (if coreDie a % 2 = coreDie b % 2 then 0 else 1) + (if coreDie a / 2 = coreDie b / 2 then 0 else 1)

/-- A mesh transit in cc: 2 per hop and 24 per die boundary (R9). -/
def State.transit (s : State) (a b : CoreId) : Nat := 2 * s.hops a b + 24 * crossings a b

/-- A remote access adds the transit in each direction (R191, R242). -/
def State.roundTrip (s : State) (a b : CoreId) : Nat := 2 * s.transit a b

/-- The stack whose larder is nearest a core (R377). -/
def nearestLarder (c : CoreId) : Nat := 2 * coreDie c + (if 16 ≤ (meshPos c).1 % 32 then 1 else 0)

/-! ### Registers -/

/-- A seat's registers as bytes: x, v, q, then PC, NF, RMODE and SEED, eight bytes each; x0 reads as 0 and q0 as all ones
(R39). -/
def Regs.image (g : Regs) : List Byte :=
  wordBytes 0 ++ (g.x.toList.drop 1).flatMap wordBytes ++ g.v.toList.flatMap (fun v => natToBytes 128 v.toNat) ++
    natToBytes 16 (BitVec.allOnes 128).toNat ++ (g.q.toList.drop 1).flatMap (fun q => natToBytes 16 q.toNat) ++
      natToBytes 8 g.pc.toNat ++ natToBytes 8 g.nf.toNat ++
    natToBytes 8 g.rmode.toNat ++ wordBytes g.seed

/-- x[r] as the seat's operands read it (R34, R39). -/
def Seat.x (t : Seat) (r : BitVec 6) : Word := if r = 0 then 0 else t.regs.x[r.toFin]

/-- v[r]. -/
def Seat.v (t : Seat) (r : BitVec 5) : Vec := t.regs.v[r.toFin]

/-- q[r]; q0 reads all ones (R39). -/
def Seat.q (t : Seat) (r : BitVec 3) : Mask := if r = 0 then BitVec.allOnes 128 else t.regs.q[r.toFin]

/-- x[r] of the issuing seat. -/
def State.x (s : State) (r : BitVec 6) : Word := s.me.x r

/-- v[r] of the issuing seat. -/
def State.v (s : State) (r : BitVec 5) : Vec := s.me.v r

/-- q[r] of the issuing seat. -/
def State.q (s : State) (r : BitVec 3) : Mask := s.me.q r

/-- A destination that keeps nothing: x0 and q0 (R39). -/
def Reg.discards : Reg → Bool
  | .x r => r == 0
  | .v _ => false
  | .q r => r == 0

/-- The registers with one of them written; the value is cut to the register's width (R39). -/
def Regs.write (g : Regs) (r : Reg) (val : Vec) : Regs :=
  match r with
  | .x r => if r = 0 then g else { g with x := g.x.set r.toFin (val.setWidth 64) }
  | .v r => { g with v := g.v.set r.toFin val }
  | .q r => if r = 0 then g else { g with q := g.q.set r.toFin (val.setWidth 128) }

/-- What a register holds, as a vector's bits. -/
def Regs.read (g : Regs) (r : Reg) : Vec :=
  match r with
  | .x r => (g.x[r.toFin]).setWidth 1024
  | .v r => g.v[r.toFin]
  | .q r => (g.q[r.toFin]).setWidth 1024

/-- An earlier group result for the same register is overwritten (R33). -/
def killResult (r : Reg) (g : GroupResult) : GroupResult :=
  if g.reg = some r then { g with live := false } else g

/-- Write a register of a seat now, remembering what it held (R14) and killing an earlier group result for it (R33). -/
def Seat.put (t : Seat) (r : Reg) (val : Vec) : Seat :=
  { t with
    regs := t.regs.write r val
    past := { reg := r, val := t.regs.read r } :: t.past
    results := t.results.map (killResult r) }

/-- An immediate result into x[r] (R32). -/
def State.putX (s : State) (r : BitVec 6) (w : Word) : State := s.setMe (s.me.put (.x r) (w.setWidth 1024))

/-- Deliver a group result: `gres` of R40, with the cc from issue after which it is ready and its NF flags (R35, R71). -/
def Seat.result (t : Seat) (r : Reg) (val : Vec) (readyAt : Nat) (nf : BitVec 6) : Seat :=
  { t with results := t.results ++ [{ reg := if r.discards then none else some r, val := val, readyAt := readyAt,
                                      waits := 0, live := true, nf := nf }] }

/-- `gres` for the issuing seat. -/
def State.gres (s : State) (r : Reg) (val : Vec) (latency : Nat) (nf : BitVec 6 := 0) : State :=
  s.setMe (s.me.result r val (s.cycle + latency) nf)

/-- `gres` into x[r]. -/
def State.gresX (s : State) (r : BitVec 6) (w : Word) (latency : Nat) (nf : BitVec 6 := 0) : State :=
  s.gres (.x r) (w.setWidth 1024) latency nf

/-- Start a deferred result for a register, unless it is discarded (R37, R39).  An earlier group result for the register is
overwritten: the last writer in program order is this one (R33). -/
def Seat.await (t : Seat) (r : Reg) (unit : IssuingUnit) (tag : Nat) : Seat :=
  if r.discards then t
  else { t with deferred := t.deferred ++ [{ reg := r, unit := unit, tag := tag, old := false }], results := t.results.map (killResult r) }

/-! ### The chunk's view of its home store -/

/-- The byte a chunk sees at a home-space address: its write buffer over the committed store (R40, R196). -/
def chunkByte (k : Core) (t : Seat) (a : Nat) : Byte := (assocGet t.wbuf a).getD (k.store.get a)

/-- `home_ls` read by the issuing seat: n bytes from a home-space address up. -/
def State.readHome (s : State) (a n : Nat) : List Byte :=
  (run a n).map (chunkByte (s.core s.home) s.me)

/-- `home_ls` read as a number. -/
def State.readHomeNat (s : State) (a n : Nat) : Nat := bytesToNat (s.readHome a n)

/-- `home_ls` read of an eight-byte word. -/
def State.readHomeWord (s : State) (a : Nat) : Word := BitVec.ofNat 64 (s.readHomeNat a 8)

/-- Cells that bytes make from an address up. -/
def cells (a : Nat) : List Byte → List Host.Cell
  | [] => []
  | b :: r => (a, b) :: cells (a + 1) r

/-- Buffer bytes of a chunk: the newest write of an address stands first (R196). -/
def Seat.buffer (t : Seat) (a : Nat) (bs : List Byte) : Seat :=
  { t with wbuf := (cells a bs).reverse ++ t.wbuf, wtotal := t.wtotal + bs.length }

/-- `home_ls` write by the issuing seat. -/
def State.writeHome (s : State) (a : Nat) (bs : List Byte) : State := s.setMe (s.me.buffer a bs)

/-- A committed word's full bit (R211, R240). -/
def Core.isFull (k : Core) (a : Nat) : Bool := k.full.contains a

/-- Set or clear one word's full bit. -/
def Core.setFull (k : Core) (a : Nat) (full : Bool) : Core :=
  { k with full := if full then insertSorted a k.full else k.full.filter (· != a) }

/-- Set the full bits of the words that n bytes from a touch (R212). -/
def Core.fillWords (k : Core) (a n : Nat) : Core :=
  { k with full := (run (a / 8) ((a + n + 7) / 8 - a / 8)).foldl (fun l w => insertSorted (8 * w) l) k.full }

/-- An 8-byte write covering a poisoned word clears the mark (R463) (DEDUCED log 36). -/
def Core.clearPoison (k : Core) (a n : Nat) : Core :=
  { k with poison := k.poison.filter (fun p => !(a ≤ p && p + 8 ≤ a + n)) }

/-- An engine write: bytes land, and the words they touch are set full (R212). -/
def Core.land (k : Core) (a : Nat) (bs : List Byte) : Core :=
  let j := { k with store := k.store.write a bs }.clearPoison a bs.length
  if a < 0x80000 then j.fillWords a bs.length else j

/-- The newest change of a chunk to a word's bit. -/
def feChange (l : List FeChange) (a : Nat) : Option Bool :=
  match l with
  | [] => none
  | f :: r => if f.lo ≤ a && a < f.lo + 8 * f.words then some f.full else feChange r a

/-- `fe` of R40 as a chunk tests it (R213, R246): its own changes, then other chunks' reservations, then the committed
bit. -/
def wordFull (k : Core) (c : CoreId) (seat : Nat) (t : Seat) (a : Nat) : Bool :=
  match feChange t.fe a with
  | some b => b
  | none => !(k.reserved.any (fun r => r.1 == a && !(r.2.1 == c && r.2.2 == seat))) && k.isFull a

/-- The words a seat waits on test as it needs them. -/
def State.waitMet (s : State) (c : CoreId) (n : Nat) : Bool :=
  let t := s.seat c n
  let full (a : Nat) : Bool := wordFull (s.core (seatHome c t)) c n t a
  match t.waitFull with
  | some (l, true) => l.all full
  | some (l, false) => !l.any full
  | none => false

/-- A seat that comes first waits for one of the words too and finds what it waits for: tests of one word in one cc go by
the core's index, then by the seat (R213). -/
def State.testsAfter (s : State) (c : CoreId) (n : Nat) (home : CoreId) (words : List Nat) : Bool :=
  s.cores.any (fun p => (List.range 4).any (fun m =>
    let t := p.2.seat m
    (decide (p.1 < c) || (p.1 == c && decide (m < n))) && t.st == .stalled && seatHome p.1 t == home &&
      (match t.waitFull with | some (l, true) => l.any words.contains | _ => false) && s.waitMet p.1 m))

/-! ### Instruction addresses -/

/-- The line a core's cache holds for an address. -/
def Core.line (k : Core) (pc : Nat) : Option (List Byte) := assocGet k.lines (pc / 64 * 64)

/-- The slot at a byte of a cached line; a line whose fetch failed has no heads (R23, R426). -/
def lineSlot (bs : List Byte) (byte : Nat) : Option Slot := if bs = [] then none else slotAt bs byte

/-- `is_head` of R40 for an address whose line is cached (R23). -/
def Core.isHead (k : Core) (a : Nat) : Bool :=
  match k.line a with
  | none => false
  | some bs => (lineSlot bs (a % 64)).isSome

/-- `next(a)` of R40: the slot after a's when it holds an instruction, otherwise head 0 of the next line (R22).  After the last
instruction of the last line below 2^48 it wraps to address 0 (DESIGN CHOICE log 89). -/
def nextAddr (k : Core) (pc : BitVec 48) : BitVec 48 :=
  let a := pc.toNat
  let ahead := BitVec.ofNat 48 (a / 64 * 64 + 64)
  match k.line a with
  | none => pc + 2
  | some bs =>
    match lineSlot bs (a % 64 + 2) with
    | some (.words _) => pc + 2
    | some (.malformed _) => pc + 2
    | _ => ahead

/-! ### Taking an exception -/

/-- Why an instruction does not complete: a fault, a stall in place, a wait for a full word, an access that is on its way to a
home core some cc off (R191), a code line that is not cached, an extension that the core lacks, or an implicit boundary that comes
first. -/
inductive Stop where
  | trap (cause : Nat) (arg : Word)
  | stall
  | waitFull (words : List Nat) (full : Bool)
  | travel (cc : Nat)
  | line (addr : Nat)
  | migrate (bit : Nat)
  | boundary
  deriving DecidableEq, Repr

/-- Put a chunk's seat back to its chunk start (R209). -/
def Seat.abort (t : Seat) : Seat :=
  { t with
    regs := t.snap, results := [], deferred := t.deferred.filter (·.old), wbuf := [], wtotal := 0, fe := [],
    held := [], commitOps := [], count := 0, started := false, boundary := none, granted := false, waitFull := none,
    arriveAt := none, filter := none, conflict := false, undo := { pops := [], tiles := [] }, allocated := [], popped := [],
    hall := t.hallSnap, hallUndo := [], conflictRow := 0
    task := t.task.map (fun x => { x with finished := false, readSig := 0, writeSig := 0 }) }

/-- A seat gives up its home core's conflict priority, or its wait for it: the next in order takes it (R277). -/
def Core.yieldPriority (k : Core) (who : CoreId × Nat) : Core :=
  let rest := k.priorityQueue.filter (· != who)
  if k.priority = some who then { k with priority := rest.head?, priorityQueue := rest.drop 1 }
  else { k with priorityQueue := rest }

/-- A register of a context, by its number (R400). -/
def Context.setReg (x : Context) (num : Nat) (w : Word) : Context :=
  match num with
  | 0x204 => { x with budget := w.setWidth 32 }
  | 0x205 => { x with save := w.setWidth 48 }
  | 0x206 => { x with trq := w.setWidth 32 }
  | _ => x

/-- The context registers that a hall chunk wrote go back, newest first (R399). -/
def State.undoHall (s : State) : List (Nat × Nat × Word) → State
  | [] => s
  | (ctx, num, w) :: r => (s.modContext ctx (fun x => x.setReg num w)).undoHall r

/-- A ring with the chunk's pops undone (R174) (DEDUCED log 21). -/
def Ring.unpop (g : Ring) (n : Nat) : Ring :=
  let slots := g.shape.field 0 8
  { g with
    head := if slots = 0 then g.head else (g.head + slots * n - n) % slots
    hseq := g.hseq - BitVec.ofNat 16 n
    ready := g.ready + n
    held := g.held - n }

/-- Undo one chunk's ring pops. -/
def undoPops (rings : Vector Ring 8) : List (BitVec 3 × Nat) → Vector Ring 8
  | [] => rings
  | (g, n) :: r => undoPops (rings.set g.toFin ((rings[g.toFin]).unpop n)) r

/-- Put back a tile's bytes. -/
def undoTiles (m : Mem) : List (Nat × List Byte) → Mem
  | [] => m
  | (k, bs) :: r => undoTiles (m.write (0x90000 + 0x1000 * k) bs) r

/-- Undo a chunk's matrix work on its core: tiles, pops, queued instructions, holds (R177).  A step that the abort ends in this cc
has kept the sub-arrays from idling until now (R186). -/
def Core.undoMatrix (k : Core) (n cycle : Nat) : Core :=
  let t := k.seat n
  let mine := match k.mstep with
    | none => false
    | some m => k.matrix.any (fun e => e.id == m.id && e.seat == n)
  { k with
    subs := if mine then k.subs.map (fun a => { a with idleSince := cycle }) else k.subs
    store := undoTiles k.store t.undo.tiles
    rings := undoPops k.rings t.undo.pops
    matrix := k.matrix.filter (·.seat != n)
    mstep := if mine then none else k.mstep
    tileHolds := k.tileHolds.filter (·.2 != n)
    popOrder := k.popOrder.filter (·.2 != n) }

/-- The seats that a seat's abort takes with it: those that popped one of its rings after its first pop of it, be it for the
first time or again (R174).  The order lists every pop of an uncommitted chunk. -/
def laterPoppers (order : List (BitVec 3 × Nat)) (n : Nat) : List Nat :=
  match order with
  | [] => []
  | (g, m) :: r => if m = n then (r.filter (·.1 == g)).map (·.2) ++ laterPoppers r n else laterPoppers r n

/-- Close a set of seats under `laterPoppers`, with fuel. -/
def cascade (order : List (BitVec 3 × Nat)) : Nat → List Nat → List Nat
  | 0, l => l
  | f + 1, l => cascade order f ((l ++ l.flatMap (laterPoppers order)).eraseDups)

/-- Freed blocks of an aborted chunk go back to the tag table (R312). -/
def Launch.returnTags (l : Launch) (blocks : List (Word × Word)) : Launch :=
  { l with tagBlocks := l.tagBlocks.filter (fun b => !blocks.any (fun a => a.1.toNat % 2 ^ 24 == b.1)) }

/-- A popped record goes back to the head of its queue (R381). -/
def Launch.returnPopped (l : Launch) : List Popped → Launch
  | [] => l
  | p :: rest =>
    match p.queue, p.record with
    | some q, some r =>
      Launch.returnPopped { l with fifos := assocSet l.fifos q (r :: (assocGet l.fifos q).getD []) } rest
    | _, _ => Launch.returnPopped l rest

/-- The records that a chunk took from the core's work list (R382). -/
def poppedWork (l : List Popped) : List Record := l.filterMap (fun p => if p.queue.isNone then p.record else none)

/-- Seats of a core that stall in place look again (R192: the awaited event). -/
def Seat.wake (t : Seat) : Seat := if t.st = .stalled && t.waitFull.isNone && t.rerun.isNone then { t with st := .running } else t

/-- Wake the stalled seats of a core. -/
def Core.wake (k : Core) : Core :=
  { k with seat0 := k.seat0.wake, seat1 := k.seat1.wake, seat2 := k.seat2.wake, seat3 := k.seat3.wake }

/-- Wake the stalled seats of core c. -/
def State.wakeCore (s : State) (c : CoreId) : State := s.setCore c (s.core c).wake

/-- Seats homed on a core look again, wherever they run. -/
def State.wakeHomed (s : State) (home : CoreId) : State :=
  let fix (c : CoreId) (t : Seat) : Seat := if c = home || seatHome c t = home then t.wake else t
  { s with cores := s.cores.map (fun p =>
      (p.1, { p.2 with seat0 := fix p.1 p.2.seat0, seat1 := fix p.1 p.2.seat1, seat2 := fix p.1 p.2.seat2,
                       seat3 := fix p.1 p.2.seat3 })) }

/-- Abort the chunk of one seat, with no further outcome (R209): buffers, effects, registers, matrix work, reservations, allocated
tags, and popped records with what their pops still have to land.  A record popped from the work list returns to its head, the first
popped first, also where 32 records are there meanwhile (R207, R382, DESIGN CHOICE log 88).  The seat waits for no code line any
more, and the walk for one is forgotten (R209, R426).  The chunk gives up its home core's conflict priority unless `keep` says that
a conflict aborts it (R277).  Seats that wait for what the abort frees look again: a read filter (R275), a tile (R178), room in the
matrix queue (R176). -/
def State.abortOne (s : State) (c : CoreId) (n : Nat) (keep : Bool := false) : State :=
  let t := s.seat c n
  let home := seatHome c t
  let lid := t.lid
  let s := (s.undoHall t.hallUndo).modLaunch lid (fun l => (l.returnTags t.allocated).returnPopped t.popped)
  let s : State := { s with flights := s.flights.filter (fun f => !t.popped.any (·.tag == f.tag))
                            walks := s.walks.filter (·.purpose != .line c n) }
  let k := (s.core c).undoMatrix n s.cycle
  let k : Core := { k with
    work := (poppedWork t.popped).reverse ++ k.work
    lineWaits := k.lineWaits.filter (·.seat != n)
    routes := k.routes.map (fun r => if r.cid == t.cid && r.spec then { r with aborted := true } else r) }
  let s := s.setCore c (k.setSeat n t.abort)
  let h := s.core home
  let h := if keep then h else h.yieldPriority (c, n)
  let free (g : GroupSlot) : GroupSlot :=
    if g.reserved != 0 && t.held.any (·.tag == g.reserved) then { g with reserved := 0 } else g
  let s := s.setCore home { h with reserved := h.reserved.filter (fun r => !(r.2.1 == c && r.2.2 == n)),
                                   groups := h.groups.map free }
  (s.wakeHomed home).wakeHomed c

/-- A seat runs its chunk again from the start at once (R210). -/
def State.rerun (s : State) (c : CoreId) (n : Nat) : State :=
  s.setSeat c n { s.seat c n with st := .running }

/-- Abort a seat's chunk, and with it every later popper of its rings, which re-run at once (R174, R209); `keep` is that of
`State.abortOne`, for the seat itself. -/
def State.abort (s : State) (c : CoreId) (n : Nat) (keep : Bool := false) : State :=
  let others := (cascade (s.core c).popOrder 4 [n]).filter (· != n)
  others.foldl (fun s m => (s.abortOne c m).rerun c m) (s.abortOne c n keep)

/-- The free number at place i among 1, 2, … with the used ones skipped. -/
def skipUsed (i : Nat) : List Nat → Nat
  | [] => i
  | u :: r => if u ≤ i then skipUsed (i + 1) r else i

/-- A 16-bit handle that none of the used ones is, none of them 0; which one is open (DESIGN CHOICE log 3). -/
def freeHandle (used : List Nat) (seed kind : Nat) : Nat :=
  let sorted := used.foldl (fun l u => insertSorted u l) []
  skipUsed (1 + Config.pick seed kind % (65535 - sorted.length)) sorted

/-- The eight words of a trap record (R401); the time is filled in at the post. -/
def trapWords (ctx lid ticket more cause : Nat) (dfr mig : Bool) (seat : Nat) (ia : BitVec 48) (core : Nat)
    (cpc : BitVec 48) (arg rec0 rec1 seq : Word) : List Word :=
  [BitVec.ofNat 64 (ctx * 2 ^ 48 + lid * 2 ^ 32 + ticket * 2 ^ 16 + more * 2 ^ 8 + cause),
   BitVec.ofNat 64 ((if dfr then 2 ^ 55 else 0) + (if mig then 2 ^ 54 else 0) + seat % 4 * 2 ^ 52 + ia.toNat),
   BitVec.ofNat 64 (core % 2048 * 2 ^ 48 + cpc.toNat), arg, rec0, rec1, seq, 0]

/-- A seat's registers with its own NF, RMODE and SEED again where a migrated chunk has used the seat (R45). -/
def Seat.ownRegs (t : Seat) : Regs :=
  match t.kept with
  | some (nf, rmode, seed) => { t.regs with nf := nf, rmode := rmode, seed := seed }
  | none => t.regs

/-- A seat that its continuation has left: free, with the register files as they stand (R14, R45). -/
def Seat.freed (t : Seat) : Seat :=
  { t with
    st := .free, regs := t.ownRegs, snap := t.ownRegs, kept := none, results := [], deferred := [], wbuf := [], wtotal := 0,
      fe := [], held := [],
    commitOps := [], count := 0, started := false, boundary := none, granted := false, waitFull := none, filter := none,
    conflict := false, conflictRow := 0, undo := { pops := [], tiles := [] }, trap := none, more := 0,
    ticket := 0, origin := none, lentTo := none, lastCommit := none, task := none, allocated := [],
    popped := [], rerun := none, hallUndo := [] }

/-- A hall thread's place is given up; its context keeps the seat's NF, RMODE and SEED (R44, R45, R396). -/
def State.leaveHall (s : State) (c n : Nat) : State :=
  match s.runQueue.find? (fun h => h.place == some (c, n)) with
  | none => s
  | some h =>
    let g := (s.seat c n).regs
    let s := s.modContext h.ctx (fun x => { x with hallSeats := assocSet x.hallSeats (c, n) (g.nf, g.rmode, g.seed) })
    { s with runQueue := mapFirst (fun h => h.place == some (c, n)) (fun h => { h with place := none }) s.runQueue }

/-- A hall seat that no thread runs on is in no service (R398). -/
def HallRegs.idle (h : HallRegs) : HallRegs := { h with service := false, sliceEnd := false }

/-- Send a trap record on its way to a context's ring (R401, R402). -/
def State.postTrap (s : State) (ctx : Nat) (words : List Word) : State :=
  s.send 0 s.curCore 2048 0 0 0 0 0 0 (.trap { ctx := ctx, words := words })

/-- The seat becomes trapped with a ticket, and its record is posted (R210, R401, R403). -/
def State.trapSeat (s : State) (c : CoreId) (n cause : Nat) (arg : Word) (dfr mig : Bool) (ia : BitVec 48)
    (cpc : BitVec 48) (ranOn : CoreId) : State :=
  let t := s.seat c n
  let ctx := s.ctxOf c t
  let ticket := freeHandle (s.tickets.map (·.id)) s.fresh 1
  let more := if dfr then t.more else min 255 (t.more + (if t.trap.isSome then 1 else 0))
  let s := s.setSeat c n { t with st := .trapped, ticket := ticket, trap := none, more := 0 }
  let s : State := { s with tickets := s.tickets ++ [{ id := ticket, core := c, seat := n, ctx := ctx, record := none }]
                            fresh := s.fresh + 1 }
  s.postTrap ctx (trapWords ctx (if isHall c then 0 else t.lid) ticket more cause dfr mig n ia ranOn cpc arg
    t.record.w0 t.record.w1 (if isHall c then 0 else t.record.x7))

/-- The hall's service entry (R398): HEPC and HCAUSE are written and the seat goes on at HVEC. -/
def Seat.serviceEntry (t : Seat) (cause : Nat) (pc : BitVec 48) : Seat :=
  let h : HallRegs := { t.hall with hepc := pc, hcause := BitVec.ofNat 8 cause, service := true,
                                    sliceEnd := t.hall.sliceEnd && cause != 0xFF }
  let g : Regs := { t.regs with pc := t.hall.hvec }
  { t with st := .running, regs := g, snap := g, hall := h, hallSnap := h }

/-- TAKING AN EXCEPTION: `fault` of R40 for seat n of core c.  The chunk aborts (R209).  On a compute core the seat is
trapped with a ticket and its record goes to the context's ring (R210, R401).  A hall seat goes on at HVEC with HEPC the
chunk-start PC (R398); from inside the service it ends its thread and posts to hall 0.0 (R398). -/
def State.fault (s : State) (c : CoreId) (n cause : Nat) (arg : Word) (ia : BitVec 48) : State :=
  let s := s.abort c n
  let t := s.seat c n
  if isHall c then
    if t.hall.service then
      let ctx := s.ctxOf c t
      ((s.leaveHall c n).setSeat c n { t.freed with hall := t.hall.idle, hallSnap := t.hall.idle }).postTrap 0
        (trapWords ctx 0 0 0 cause false false n ia c t.regs.pc arg 0 0 0)
    else s.setSeat c n (t.serviceEntry cause t.regs.pc)
  else s.trapSeat c n cause arg false t.origin.isSome ia t.regs.pc c

/-- The return from the service (R114, R398): the PC alone changes. -/
def Seat.serviceReturn (t : Seat) : Seat :=
  { t with regs := { t.regs with pc := t.hall.hepc }, hall := { t.hall with service := false } }

/-! ### The end of an instruction -/

/-- The seat after an instruction that goes on at `pc`: counted, and parked when its head has S = 1 (R31, R44). -/
def Seat.retire (t : Seat) (sw : Bool) (pc : BitVec 48) (cycle : Nat) : Seat :=
  { t with
    regs := { t.regs with pc := pc }
    lastIssue := cycle + 1
    count := t.count + 1
    arriveAt := none
    st := if sw then .parked else t.st }

/-- An instruction of the issuing seat has issued and does not complete here: the seat has used its slot and moves to the end
of the order (R193, R194). -/
def State.issued (s : State) : State := s.setMe { s.me with lastIssue := s.cycle + 1 }

/-- The registers as a seat transfer carries them: the matrix status stays with the seat (R187, R205). -/
def Regs.shipped (g : Regs) : Regs := { g with fin := 0, woke := false, wrap := false }

/-- The registers that a transfer brings to a seat, beside the seat's own matrix status. -/
def Regs.taken (g : Regs) (own : Regs) : Regs := { g with fin := own.fin, woke := own.woke, wrap := own.wrap }

/-- The nearest core of a launch rectangle with the F64 extension (R204): by hops, then by index. -/
def nearestF64 (from' : CoreId) (members : List CoreId) : Option CoreId :=
  (members.filter hasF64).foldl (fun best c =>
    match best with
    | none => some c
    | some b => if hops from' c < hops from' b then some c else some b) none

/-- The cores of a rectangle in scope form, ascending (R203). -/
def rectCores (r : Word) : List CoreId :=
  let clo := r.field 0 6
  let rlo := r.field 6 5
  (run rlo (r.field 22 5 + 1 - rlo)).flatMap (fun row => (run clo (r.field 16 6 + 1 - clo)).map (fun col => row * 64 + col))

/-- A core lies in a rectangle in scope form. -/
def rectHas (r : Word) (c : CoreId) : Bool :=
  !isHall c && r.field 0 6 ≤ coreCol c && coreCol c ≤ r.field 16 6 && r.field 6 5 ≤ coreRow c && coreRow c ≤ r.field 22 5

/-- A physical core lies in one of the rectangles; the spare row belongs to every rectangle of its die (DEDUCED log 33). -/
def VirtualFunction.owns (v : VirtualFunction) (p : Nat) : Bool :=
  let col := field p 0 5 + 32 * (field p 10 2 % 2)
  let row := field p 5 5
  row == 16 || (row < 16 && v.rects.any (fun r => r != 0 && rectHas r ((row + 16 * (field p 10 2 / 2)) * 64 + col)))

/-- A logical index lies in a context's partition: its function's table places it on a core of the function's rectangles (R414,
R415, R417, R418); one that the table places nowhere counts where `gaps` says so. -/
def State.inPartition (s : State) (ctx : Nat) (gaps : Bool) (c : CoreId) : Bool :=
  match s.functionOf ctx with
  | none => false
  | some v => ((v.place c).map v.owns).getD gaps

/-- Migration of the issuing seat's chunk (R204): abort, then ship the chunk-start state and become lent; where it may not
migrate or no core has the extension, extension-missing. -/
def State.migrate (s : State) (bit : Nat) : State :=
  let c := s.curCore
  let n := s.curSeat
  let ia := s.me.regs.pc
  let launch := s.launch s.me.lid
  let barred := isHall c || s.me.record.w0.bit 51 || (launch.map (·.noMig)).getD true
  let target := if barred then none else nearestF64 c ((launch.map (fun l => rectCores l.rect)).getD [])
  match target with
  | none => s.fault c n 3 (BitVec.ofNat 64 bit) ia
  | some d =>
    let s := s.abort c n
    let t := s.me
    let s := s.setMe { t with st := .lent, lentTo := some d }
    s.send (s.transit c d + 82) c d t.lid t.cid n 0 0 0
      (.transfer { regs := t.regs.shipped, record := t.record, cid := t.cid, deferred := t.deferred, core := c, seat := n,
                   target := d, lastCommit := t.lastCommit, task := t.task, retired := false, trap := t.trap, more := t.more })

/-- A seat waits for the line of a head; a wait for the same head goes on. -/
def Core.awaitLine (k : Core) (n a : Nat) : Core :=
  if k.lineWaits.any (fun w => w.seat == n && w.head == a) then k
  else { k with lineWaits := { seat := n, head := a, frame := none, due := 0 } :: k.lineWaits.filter (·.seat != n) }

/-- What the outcome of a meaning's body makes of the state: the next instruction, or the stop the body met. -/
def settleTo (sw : Bool) (pc : State → BitVec 48) (s : State) (r : Except Stop State) :
    Host.Outcome State Fault Refusal :=
  match r with
  | .ok t => .next (t.setMe (t.me.retire sw (pc t) t.cycle))
  | .error (.trap cause arg) => .next (s.issued.fault s.curCore s.curSeat cause arg s.me.regs.pc)
  | .error .stall => .next (s.setMe { s.me with st := .stalled })
  | .error (.waitFull l b) => .next (s.setMe { s.me with st := .stalled, waitFull := some (l, b) })
  | .error (.travel n) => .next (s.setMe { s.me with arriveAt := some (s.cycle + n), resumeAt := s.cycle + n })
  | .error (.line a) =>
    .next ((s.setHere (s.here.awaitLine s.curSeat a)).setMe { s.me with st := .stalled })
  | .error (.migrate b) => .next (s.issued.migrate b)
  | .error .boundary => .next (s.setMe { s.me with st := .parked, boundary := some .implicit })

/-- The common case: execution goes on at `next(a)`. -/
def settle (sw : Bool) (s : State) (r : Except Stop State) : Host.Outcome State Fault Refusal :=
  settleTo sw (fun _ => nextAddr s.here s.me.regs.pc) s r

/-- Go on when the condition holds, otherwise fault (DESIGN CHOICE log 20). -/
def check (ok : Bool) (cause : Nat) (arg : Word) : Except Stop Unit :=
  if ok then .ok () else .error (.trap cause arg)

/-- A format-fault with its argument (R49). -/
def checkFormat (ok : Bool) (arg : Nat) : Except Stop Unit := check ok 0x09 (BitVec.ofNat 64 arg)

/-- Go on when the condition holds, otherwise stall in place (R192). -/
def ready (ok : Bool) : Except Stop Unit := if ok then .ok () else .error .stall

/-- An event whose condition does not hold changes nothing (DESIGN CHOICE log 5). -/
def event (s : State) (r : Option State) : Host.Outcome State Fault Refusal := .next (r.getD s)

end Sys2Proof.Machine
end

