-- ==== Sys2Proof/Machine/Arrival.lean ====
section
/-!
DEFINITION. Arrivals: which core takes an item in flight, and in which order a core's units take what arrives at them
(R229, R249, R260, R279, R280, R319, R349, R397, R407, R475).
-/
namespace Sys2Proof.Machine

/-! ### Where the effects of a commit act -/

/-- A path effect (R279). -/
def Held.isPath : Held → Bool
  | .send .. => true
  | .counter .. => true
  | .trigArm .. => true
  | .trigDis .. => true
  | .mailboxConfig .. => true
  | .mailboxPost .. => true
  | .lsamo .. => true
  | _ => false

/-- The core that owns what a path effect acts on. -/
def Held.owner (home : CoreId) : Held → CoreId
  | .send dst _ _ => dst
  | .counter _ core _ _ => core
  | .trigArm core .. => core
  | .trigDis core _ => core
  | .mailboxConfig core .. => core
  | .mailboxPost core _ => core
  | .lsamo _ core .. => core
  | _ => home

/-- The home core that a sample group's handle names (R348). -/
def handleHome (h : Word) : CoreId := h.field 0 11

/-- The core whose unit takes a group operation. -/
def GroupOp.unit (op : GroupOp) (issuer : CoreId) : CoreId :=
  match op with
  | .fork b _ _ => handleHome b
  | .reward b _ => handleHome b
  | .cancel b _ => handleHome b
  | .configure _ => issuer
  | .release c => handleHome c
  | .stat b _ => handleHome b

/-! ### What a core takes, and when -/

/-- A granted chunk of the counter's core holds the message unit for the counters that its held effects name, from its check
to their issue (R249). -/
def Core.counterHeld (k : Core) (c : CoreId) (idx : BitVec 8) : Bool :=
  (List.range 4).any (fun n => (k.seat n).granted && (k.seat n).held.any (fun h =>
    match h.body with
    | .counter _ core i _ => core == c && i == idx
    | .lsamo _ core true off .. => core == c && BitVec.ofNat 8 off == idx
    | _ => false))

/-- The order class of an item in flight: 1 the path of R279, 2 engine-posted messages (R260), 3 expert claims (R335), 4 the
set-bounds of directory operations (R339), 0 no order. -/
def Body.orderClass : Body → Nat
  | .effect (.counter ..) => 1
  | .effect (.trigArm ..) => 1
  | .effect (.trigDis ..) => 1
  | .effect (.mailboxConfig ..) => 1
  | .effect (.mailboxPost ..) => 1
  | .effect (.lsamo ..) => 1
  | .waitc .. => 1
  | .message m => if m.seq.bit 63 then 2 else 1
  | .claim .. => 3
  | .setBound .. => 4
  | _ => 0

/-- No earlier item of its class from one source to one owner is still in flight (R260, R279); the set-bounds at an owner come
in the order of the larder's operations, whoever issued them (R339, R343). -/
def State.pathClear (s : State) (f : Flight) : Bool :=
  f.body.orderClass == 0 ||
    !s.flights.any (fun g => g.id < f.id && (g.src == f.src || f.body.orderClass == 4) && g.dst == f.dst &&
      g.body.orderClass == f.body.orderClass)

/-- Under a settled halt a core takes only what was in flight when the halt began (R475). -/
def Core.lands (k : Core) (n : Nat) : Bool :=
  match k.haltSettled with
  | some h => n < h
  | none => true

/-- An item that changes a core's store, a counter or its message queue (R475). -/
def Body.changes : Body → Bool
  | .effect _ => true
  | .engineAdd .. => true
  | .waitc .. => true
  | .message _ => true
  | .region3 .. => true
  | .claim .. => true
  | .metadata .. => true
  | .setBound .. => true
  | .groupWrite .. => true
  | .pop .. => true
  | _ => false

/-- The launch of an item in flight has its context on the core (R397, R407). -/
def State.atHome (s : State) (x : Flight) : Bool :=
  isHall x.dst || (match s.launch x.lid with
    | some l => (s.core x.dst).ctx == l.ctx
    | none => true)

/-- A core takes the landings of a context: it is open, and holds that context (R397, R407). -/
def State.holds (s : State) (c : CoreId) (ctx : Nat) : Bool := (s.core c).open' && (isHall c || (s.core c).ctx == ctx)

/-- What the chunks that still run when a stop arrives need to reach their boundary: their results, reads of a store or of a
counter, and room at an interface (R318, R406). -/
def Body.needed : Body → Bool
  | .deferred .. => true
  | .nack _ => true
  | .load .. => true
  | .cread .. => true
  | .mbtake _ => true
  | .bind .. => true
  | .operand _ => true
  | _ => false

/-- A core takes an item: it is active (R483), it is not stopped for a save, but for what its running chunks need (R406, R407), no
settled halt refuses the item (R475), and it holds the item's context. -/
def State.takes (s : State) (x : Flight) : Bool :=
  let hold := (s.core x.dst).hold
  (s.core x.dst).power == .active && (hold == .none || (hold == .stopping && x.body.needed)) &&
    (!x.body.changes || (s.core x.dst).lands x.id) && s.atHome x

/-- The unit of a core that takes items one at a time in the order of their arrival: 1 the message unit (R229, R253, R254,
R256, R330, R336), 2 the sample-group unit (R349), 3 the meeting router (R319); 0 for the rest. -/
def Body.unit : Body → Nat
  | .effect (.counter ..) => 1
  | .effect (.trigArm ..) => 1
  | .effect (.trigDis ..) => 1
  | .effect (.mailboxConfig ..) => 1
  | .effect (.mailboxPost ..) => 1
  | .effect (.lsamo ..) => 1
  | .engineAdd .. => 1
  | .hallFire _ => 1
  | .cread .. => 1
  | .mbtake _ => 1
  | .waitc .. => 1
  | .claim .. => 1
  | .setBound .. => 1
  | .effect (.group ..) => 2
  | .bind .. => 3
  | .operand _ => 3
  | _ => 0

/-- The input of the owner's router that an item comes by: north 0, east 1, south 2, west 3; XY routing leaves the column leg
last (R229). -/
def inputPort (owner src : CoreId) : Nat :=
  let a := meshPos src
  let b := meshPos owner
  if a.2 < b.2 then 0 else if b.2 < a.2 then 2 else if b.1 < a.1 then 1 else if a.1 < b.1 then 3 else 2

/-- An item comes from a compute core: a chunk's, or its trigger table's (R229, R235). -/
def Flight.ofCore (f : Flight) : Bool :=
  !isHall f.src && (match f.body with
    | .engineAdd .. => f.seat == 4
    | .hallFire _ => false
    | .setBound .. => false
    | _ => true)

/-- The place of a source among the arrivals of one cc: compute cores by linear index, then the others by their input port
(R229). -/
def Flight.rank (f : Flight) : Nat := if f.ofCore then f.src else 4096 + inputPort f.dst f.src

/-- A commit holds the counter that an item acts on (R249). -/
def State.commitHolds (s : State) (f : Flight) : Bool :=
  match f.body with
  | .waitc _ idx _ _ => (s.core f.dst).counterHeld f.dst idx
  | .cread _ idx => (s.core f.dst).counterHeld f.dst idx
  | .effect (.counter _ core idx _) => (s.core core).counterHeld core idx
  | .effect (.lsamo _ core true off ..) => (s.core core).counterHeld core (BitVec.ofNat 8 off)
  | .engineAdd _ idx _ => (s.core f.dst).counterHeld f.dst idx
  | .claim _ _ _ idx _ _ => (s.core f.dst).counterHeld f.dst idx
  | .setBound idx _ _ _ => (s.core f.dst).counterHeld f.dst idx
  | _ => false

/-- An item that could be taken now, its turn among other sources apart. -/
def State.waiting (s : State) (x : Flight) : Bool :=
  x.due ≤ s.cycle && s.pathClear x && s.takes x && !s.commitHolds x

/-- An item that arrived before one at its unit still waits there: in an earlier cc, or in the same cc from a source that
comes first (R229, R319, R336, R349). -/
def State.preceded (s : State) (due rank : Nat) (dst : CoreId) (unit : Nat) : Bool :=
  s.flights.any (fun g => g.dst == dst && g.body.unit == unit && s.waiting g &&
    (decide (g.due < due) || (g.due == due && decide (g.rank < rank))))

/-- The place of a core's own seats among the arrivals of one cc (R229). -/
def ownRank (c : CoreId) : Nat := if isHall c then 4096 + inputPort c c else c

/-- The unit of its own core that a held effect of a chunk on core c, homed on `home`, acts on; 0 for none. -/
def Held.unitAt (c home : CoreId) (h : Held) : Nat :=
  match h with
  | .send .. => 0
  | .group issuer op => if op.unit issuer = c then 2 else 0
  | h => if h.isPath && h.owner home == c then 1 else 0

/-- A granted chunk of a core's own seats comes to a unit of the core in this cc: an effect of its step 5, or its WAITC arm (R229,
R349). -/
def State.ownArrives (s : State) (c unit : Nat) : Bool :=
  (List.range 4).any (fun n =>
    let t := s.seat c n
    t.granted && decide (t.grantAt ≤ s.cycle) &&
      (t.held.any (fun h => h.body.unitAt c (seatHome c t) == unit) ||
        (unit == 1 && t.held == [] && (match t.boundary with | some (.waitc _ core ..) => core == c | _ => false))))

/-- Nothing at a unit of a core comes before what arrives there in a cc from a source of some rank: no item in flight that arrived
earlier, and no chunk of the core's own seats that arrives in the same cc (R229, R349). -/
def State.unitTurn (s : State) (due rank : Nat) (dst : CoreId) (unit : Nat) : Bool :=
  !s.preceded due rank dst unit && !(due == s.cycle && decide (ownRank dst < rank) && s.ownArrives dst unit)

/-- The turn of a core's own seat at one of its units, as of now. -/
def State.ownTurn (s : State) (c unit : Nat) : Bool := !s.preceded s.cycle (ownRank c) c unit

/-- The add of a unit at core src to a counter of core c may be taken now: no commit holds the counter, and it is the add's turn
(R229, R249); 255 names no counter. -/
def State.addTurn (s : State) (src c : CoreId) (idx : Nat) : Bool :=
  255 ≤ idx || (!(s.core c).counterHeld c (BitVec.ofNat 8 idx) && s.unitTurn s.cycle (4096 + inputPort c src) c 1)

/-- An item in flight whose time has come, in its order, at a core that takes it (DEDUCED log 76). -/
def State.arriving (s : State) (f : Nat) : Option Flight :=
  match s.flight f with
  | some x =>
    if s.waiting x && (x.body.unit == 0 || s.unitTurn x.due x.rank x.dst x.body.unit) then some x else none
  | none => none

end Sys2Proof.Machine
end

