-- ==== Sys2Proof/Machine/Operands.lean ====
section
/-!
DEFINITION. Operand forms: fat pointers and effective addresses (R47 to R54), the ranges of home space and the on-chip map,
counter operands (R248), scope rectangles (R203), extension checks (R87, R88), and what an instruction asks of its chunk's
limits (R195, R196, R205).
-/
namespace Sys2Proof.Machine

/-! ### Fat pointers -/

/-- The format code of a pointer (R47). -/
def ptrFmt (p : Word) : Nat := p.field 58 6

/-- The block exponent of a pointer (R47). -/
def ptrBlog (p : Word) : Nat := p.field 54 4

/-- The space of a pointer (R47). -/
def ptrSpace (p : Word) : Nat := p.field 52 2

/-- The address of a pointer within its space (R47). -/
def ptrAddr (p : Word) : Nat := p.field 0 52

/-- The pointer with another address (R50). -/
def withAddr (p : Word) (a : Nat) : Word := BitVec.ofNat 64 (p.toNat / 2 ^ 52 * 2 ^ 52 + a % 2 ^ 52)

/-- An address the on-chip map gives core c, region and offset (R52). -/
def chipAddr (c region off : Nat) : Nat := c * 2 ^ 41 + region * 2 ^ 37 + off

/-- A BYTES pointer into space 1. -/
def chipPtr (c region off : Nat) : Word := BitVec.ofNat 64 (2 ^ 52 + chipAddr c region off)

/-- The core, region and offset of a space 1 address (R52). -/
def chipCore (a : Nat) : Nat := field a 41 11

def chipRegion (a : Nat) : Nat := field a 37 4

def chipOffset (a : Nat) : Nat := field a 0 37

/-- The size of an on-chip region; none for a reserved one (R52). -/
def regionSize (r : Nat) : Option Nat :=
  match r with
  | 0 => some 0x80000
  | 1 => some 0x1000
  | 2 => some 0x10000
  | 3 => some 0x4000
  | 4 => some 0x100
  | 5 => some 8
  | _ => none

/-- n bytes of space 1 lie in a region that exists: the offset is below the region's size, whatever n is, and the bytes end in
the region (R49, R52). -/
def chipInside (a n : Nat) : Bool :=
  match regionSize (chipRegion a) with
  | some z => decide (chipOffset a < z) && decide (chipOffset a + n ≤ z)
  | none => false

/-- The effective address of R50: the base's address plus a signed offset, or pointer-overflow. -/
def effective (p : Word) (off : Int) : Except Stop Word :=
  let a : Int := (ptrAddr p : Int) + off
  if 0 ≤ a && a < 2 ^ 52 then .ok (withAddr p a.toNat) else .error (.trap 0x08 0)

/-- The memory operand [b, imm22] (R50). -/
def memOperand (s : State) (b : BitVec 6) (imm : BitVec 22) : Except Stop Word := effective (s.x b) imm.toInt

/-! ### Home space -/

/-- The ranges of home space (R51). -/
inductive HomeRange where
  | localStore
  | counters
  | accumulators
  | injection
  | extraction
  deriving DecidableEq, Repr

/-- The range an address lies in, with its end (R51). -/
def homeRange (a : Nat) : Option (HomeRange × Nat) :=
  if a < 0x80000 then some (.localStore, 0x80000)
  else if a < 0x81000 then some (.counters, 0x81000)
  else if 0x90000 ≤ a && a < 0xA0000 then some (.accumulators, 0xA0000)
  else if 0xA0000 ≤ a && a < 0xA0080 then some (.injection, 0xA0080)
  else if 0xA1000 ≤ a && a < 0xA1080 then some (.extraction, 0xA1080)
  else none

/-- The range that holds n bytes from a whole; none outside every range or past the end of one. -/
def rangeOf (a n : Nat) : Option HomeRange :=
  match homeRange a with
  | some (r, hi) => if a + n ≤ hi then some r else none
  | none => none

/-- The checks of R49 in the order of their arguments, for a pointer to n bytes of home space: a known format code that
`accept` takes, its blocking, space 0, and a range that holds the bytes. -/
def checkHome (p : Word) (n : Nat) (accept : Nat → Bool) : Except Stop HomeRange := do
  checkFormat (codeKnown (ptrFmt p)) 1
  checkFormat (accept (ptrFmt p)) 2
  checkFormat (ptrBlog p == 0 && !codeBlocked (ptrFmt p)) 3
  checkFormat (ptrSpace p == 0) 4
  match rangeOf (ptrAddr p) n with
  | some r => .ok r
  | none => .error (.trap 0x09 5)

/-- BYTES, or a code whose elements have the access width; a blocked one of that width fails the check of its blog, which must
be 0 (R49, R244). -/
def widthCode (bits : Nat) (fmt : Nat) : Bool := fmt == 0 || codeBits fmt == bits

/-- BYTES, I64, N64 or F64 (R246, R247). -/
def wordCode (fmt : Nat) : Bool := fmt == 0 || fmt == 0x07 || fmt == 0x08 || fmt == 0x0C

/-- Every unblocked code. -/
def unblocked (fmt : Nat) : Bool := !codeBlocked fmt

/-- A home-space pointer to n bytes that must lie in the local store at a multiple of `align`: the record and descriptor
operands of later chapters (R49; misalignment is argument 2). -/
def checkLocal (p : Word) (n align : Nat) : Except Stop Nat := do
  let r ← checkHome p n unblocked
  checkFormat (r == .localStore) 5
  checkFormat (ptrAddr p % align == 0) 2
  .ok (ptrAddr p)

/-! ### Published slots and held tiles -/

/-- Bytes of a ring slot (R171). -/
def Ring.slotBytes (g : Ring) : Nat := 32 * (let n := g.shape.field 16 6; if n = 0 then 64 else n)

/-- Slots of a ring (R171). -/
def Ring.slots (g : Ring) : Nat := g.shape.field 0 8

/-- The published slots of a ring from the oldest held one: those counted in ready or held (R172). -/
def Ring.published (g : Ring) : List Nat :=
  if g.cfg && g.slots != 0 then
    (List.range (g.ready + g.held)).map (fun i => (g.head + g.slots * 256 - g.held + i) % g.slots)
  else []

/-- The room of a ring (R172). -/
def Ring.room (g : Ring) : Nat := g.slots - g.ready - g.held

/-- n bytes from a meet bytes lo to hi − 1. -/
def meets (a n lo hi : Nat) : Bool := a < hi && lo < a + n && n != 0

/-- A poisoned word that n bytes of a core's stores touch (R463). -/
def Core.poisonIn (k : Core) (a n : Nat) : Option Nat := k.poison.find? (fun p => Sys2Proof.Machine.meets a n p (p + 8))

/-- A poisoned word is among bytes of a core's stores. -/
def Core.poisonedIn (k : Core) (a n : Nat) : Bool := (k.poisonIn a n).isSome

/-- The bytes from a reach a published slot of the ring (R175). -/
def Ring.guards (g : Ring) (a n : Nat) : Bool :=
  let base := ptrAddr g.base
  g.published.any (fun i => meets a n (base + i * g.slotBytes) (base + (i + 1) * g.slotBytes))

/-- The first ring of a core with a published slot that the bytes reach (R175). -/
def Core.guardedBy (k : Core) (a n : Nat) : Option Nat :=
  (List.range 8).find? (fun i => (k.rings.toList.getD i Ring.init).guards a n)

/-- A store may not meet a published slot of the home core: ring-guard with the ring number (R175). -/
def checkGuard (k : Core) (a n : Nat) : Except Stop Unit :=
  match k.guardedBy a n with
  | some g => .error (.trap 0x11 (BitVec.ofNat 64 g))
  | none => .ok ()

/-- The tiles that a queued step instruction accumulates into (R43, R180, R181). -/
def MatrixOp.tiles : MatrixOp → List Nat
  | .mma m _ _ fmt _ _ _ => if fmt = 7 then [m.toNat, m.toNat + 1] else [m.toNat]
  | .accz m => [m.toNat]
  | .accrd m _ => [m.toNat]
  | .accwr m _ _ => [m.toNat]
  | .accscl m _ => [m.toNat]

/-- An instruction that steps the sub-arrays. -/
def MatrixOp.isStep : MatrixOp → Bool
  | .mma .. => true
  | _ => false

/-- The tiles that n bytes from a home-space address reach. -/
def tilesOf (a n : Nat) : List Nat :=
  if 0x90000 ≤ a && a < 0xA0000 && n != 0
    then run ((a - 0x90000) / 0x1000) ((a + n - 1 - 0x90000) / 0x1000 + 1 - (a - 0x90000) / 0x1000) else []

/-- An access to a tile waits while an issued MMA, MMAG or DMMA still accumulates into it (R43). -/
def Core.accumulating (k : Core) (tile : Nat) : Bool := k.matrix.any (fun e => e.op.isStep && e.op.tiles.contains tile)

/-- A tile is held by a chunk other than the given seat's (R178). -/
def Core.heldElsewhere (k : Core) (seat tile : Nat) : Bool := k.tileHolds.any (fun h => h.1 == tile && h.2 != seat)

/-- An ordinary load or store of accumulator bytes stalls under R43, and a load under R178 as well. -/
def tilesReady (s : State) (a n : Nat) (load : Bool) : Except Stop Unit :=
  let k := s.core s.home
  let mine := if s.home = s.curCore then s.curSeat else 4
  ready ((tilesOf a n).all (fun t => !k.accumulating t && !(load && k.heldElsewhere mine t)))

/-! ### Reads of the home store -/

/-- The filter bit of a home-space address (R275). -/
def filterBit (a : Nat) : Nat := (field a 6 14 % 1024) ^^^ (field a 6 14 / 1024)

/-- Set the bits of a signature or filter. -/
def setBits (f : Vec) (bits : List Nat) : Vec := bits.foldl (fun f b => f ||| (1#1024 <<< b)) f

/-- The lines that n bytes from a reach. -/
def linesOf (a n : Nat) : List Nat := if n = 0 then [] else run (a / 64) ((a + n - 1) / 64 + 1 - a / 64)

/-- The uncommitted chunks homed on a core that hold a read filter (R275). -/
def filtersTaken (s : State) (home : CoreId) : Nat :=
  (s.cores.flatMap (fun p => [p.2.seat0, p.2.seat1, p.2.seat2, p.2.seat3].filter
    (fun t => t.filter.isSome && seatHome p.1 t == home))).length

/-- The task key of a line of an address (R388): k of its space and address, folded. -/
def signatureBit (space addr : Nat) : Nat :=
  let k := space * 2 ^ 46 + addr / 64
  field k 0 10 ^^^ field k 10 10 ^^^ field k 20 10 ^^^ field k 30 10 ^^^ field k 40 8

/-- The signature bits of n bytes from an address; 1,024 lines or more set every bit (R388). -/
def signatureBits (space addr n : Nat) : List Nat :=
  let ls := linesOf addr n
  if 1024 ≤ ls.length then List.range 1024 else ls.map (fun l => signatureBit space (64 * l))

/-- A home-space address as the address of R388's item 1. -/
def homeAsChip (home a : Nat) : Nat :=
  if a < 0x80000 then chipAddr home 0 a
  else if a < 0x81000 then chipAddr home 1 (a - 0x80000)
  else chipAddr home 2 (a - 0x90000)

/-- Record an access of the running task (R388). -/
def Seat.sign (t : Seat) (write : Bool) (bits : List Nat) : Seat :=
  match t.task with
  | none => t
  | some k =>
    { t with task := some (if write then { k with writeSig := setBits k.writeSig bits }
                           else { k with readSig := setBits k.readSig bits }) }

/-- Record a home-space access of the running task (R388). -/
def State.signHome (s : State) (write : Bool) (a n : Nat) : State :=
  s.setMe (s.me.sign write (signatureBits 1 (homeAsChip s.home a) n))

/-- A read of the local store or the accumulator store enters the read filter, and stalls when none of the 16 is left
(R275); a task's read is signed (R388). -/
def noteRead (s : State) (a n : Nat) : Except Stop State :=
  if a < 0x80000 || (0x90000 ≤ a && a < 0xA0000) then
    match s.me.filter with
    | none =>
      if 16 ≤ filtersTaken s s.home then .error .stall
      else
        let s := s.setMe { s.me with filter := some (setBits 0 ((linesOf a n).map (fun l => filterBit (64 * l)))) }
        .ok (s.signHome false a n)
    | some f =>
      let s := s.setMe { s.me with filter := some (setBits f ((linesOf a n).map (fun l => filterBit (64 * l)))) }
      .ok (s.signHome false a n)
  else .ok s

/-- A word of the home store that is marked poisoned makes a reading chunk abort (R463). -/
def checkPoison (s : State) (a n : Nat) : Except Stop Unit :=
  match (s.core s.home).poisonIn a n with
  | some p => .error (.trap 0x29 (BitVec.ofNat 64 p))
  | none => .ok ()

/-- Extra latency of a home-space access away from home (R191, R242). -/
def homeLatency (s : State) : Nat := if s.home = s.curCore then 0 else s.roundTrip s.curCore s.home

/-- The way back of a home-space access that has travelled to its home core (R191, R242). -/
def homeReturn (s : State) : Nat := if s.home = s.curCore then 0 else s.transit s.curCore s.home

/-- A full/empty access away from home travels there before it tests its word (R191); the home core takes it while it is there
(R407). -/
def travelHome (s : State) : Except Stop Unit :=
  if s.home = s.curCore then .ok ()
  else match s.me.arriveAt with
    | some _ => if (s.core s.home).open' then .ok () else .error .stall
    | none => .error (.travel (s.transit s.curCore s.home))

/-- A group result whose value another core gives when it takes the read that is on its way to it (R191, R251). -/
def State.readAway (s : State) (r : Reg) (dst : CoreId) (b : Body) : State :=
  let g : GroupResult := { reg := if r.discards then none else some r, val := 0, readyAt := 0, waits := s.fresh, live := true, nf := 0 }
  let u := (s.setMe { s.me with results := s.me.results ++ [g] }).tick
  u.send (s.transit s.curCore dst) s.curCore dst s.me.lid s.me.cid s.curSeat s.fresh s.me.regs.pc s.me.snap.pc b s.me.origin.isSome

/-- A load away from home of n bytes at each of some places: the chunk's own buffered bytes go with it (R191, R196). -/
def State.loadAway (s : State) (r : Reg) (places : List Nat) (n : Nat) (form : LoadForm) : State :=
  s.readAway r s.home (.load places n
    ((places.flatMap (fun a => run a n)).filterMap (fun i => (assocGet s.me.wbuf i).map (fun b => (i, b)))) form)

/-- A remote read of a counter that the chunk has sent has still to be taken: a synchronising load after it waits in place, so that
their values are taken in program order (R293, R294, R296). -/
def readsTaken (s : State) : Except Stop Unit :=
  if s.flights.any (fun f =>
      s.me.results.any (fun g => g.waits != 0 && g.waits == f.tag) && (match f.body with | .cread .. => true | _ => false))
  then .error .stall else .ok ()

/-! ### Limits of a chunk -/

/-- A store of n bytes fits the chunk's buffered-write total, or the chunk ends first (R195, R155). -/
def room (s : State) (n : Nat) : Except Stop Unit :=
  if s.me.wtotal + n ≤ 16384 then .ok () else .error .boundary

/-- `hold` of R40: append an effect; a 33rd ends the chunk first (R195, R196).  The tag is the operation's. -/
def hold (s : State) (h : Held) (tag : Nat := 0) : Except Stop State :=
  if s.me.held.length < 32 then
    .ok (s.setMe { s.me with held := s.me.held ++ [{ ia := s.me.regs.pc, tag := tag, body := h }] })
  else .error .boundary

/-- A deferred result may start: 24 at most, and when the oldest is still held the chunk ends first (R205). -/
def awaitRoom (s : State) (r : BitVec 6) : Except Stop Unit :=
  if r = 0 || s.me.deferred.length < 24 then .ok ()
  else
    match s.me.deferred with
    | d :: _ => if s.me.held.any (·.tag == d.tag) then .error .boundary else .error .stall
    | [] => .ok ()

/-- Hold an effect whose result is deferred into x[r] (R32, R37). -/
def holdFor (s : State) (r : BitVec 6) (h : Held) : Except Stop State := do
  awaitRoom s r
  let t ← hold s h s.fresh
  .ok ((t.setMe (t.me.await (.x r) h.unit s.fresh)).tick)

/-- A commit-time change that is no held effect: WINSET, WINCLR, TAGFREE (R214, R313). -/
def atCommit (s : State) (o : CommitOp) : State := s.setMe { s.me with commitOps := s.me.commitOps ++ [o] }

/-! ### Counter operands and rectangles -/

/-- A counter operand: the owner and the index, under the checks of R248.  A place of space 1 that does not exist gives argument 5
(R49, R52); one in a region other than the counters gives argument 2, R241's for a range that the instruction does not accept
(DEDUCED log 107). -/
def counterOperand (s : State) (p : Word) : Except Stop (CoreId × BitVec 8) := do
  let a := ptrAddr p
  checkFormat (codeKnown (ptrFmt p)) 1
  checkFormat (ptrFmt p == 0 || ptrFmt p == 0x08) 2
  checkFormat (ptrBlog p == 0) 3
  checkFormat ((ptrSpace p == 0 && 0x80000 ≤ a && a < 0x81000) || ptrSpace p == 1) 4
  if ptrSpace p = 0 then do
    checkFormat (a % 16 == 0) 5
    .ok (s.home, BitVec.ofNat 8 ((a - 0x80000) / 16))
  else do
    checkFormat (chipInside a 1) 5
    checkFormat (chipRegion a == 1) 2
    checkFormat (chipOffset a % 16 == 0) 5
    .ok (chipCore a, BitVec.ofNat 8 (chipOffset a / 16))

/-- A rectangle value that R203's shape rules take, apart from the launch rectangle. -/
def rectShape (r : Word) : Bool :=
  let clo := r.field 0 6
  let rlo := r.field 6 5
  let chi := r.field 16 6
  let rhi := r.field 22 5
  let w := chi + 1 - clo
  let h := rhi + 1 - rlo
  r.field 11 5 == 0 && r.field 27 37 == 0 && clo ≤ chi && rlo ≤ rhi && isPow2 w && isPow2 h && clo % w == 0 &&
    rlo % h == 0

/-- One rectangle lies inside another (R203). -/
def rectInside (r outer : Word) : Bool :=
  outer.field 0 6 ≤ r.field 0 6 && r.field 16 6 ≤ outer.field 16 6 && outer.field 6 5 ≤ r.field 6 5 &&
    r.field 22 5 ≤ outer.field 22 5

/-- The scope form of a rectangle (R203). -/
def scopeForm (clo rlo chi rhi : Nat) : Word := BitVec.ofNat 64 (rhi * 2 ^ 22 + chi * 2 ^ 16 + rlo * 2 ^ 6 + clo)

/-- The launch rectangle of the issuing continuation, where its launch is known. -/
def State.myRect (s : State) : Option Word := s.launchRect s.me.lid

/-- A core lies in the issuing continuation's launch rectangle. -/
def State.inLaunch (s : State) (c : CoreId) : Bool :=
  match s.myRect with
  | some r => rectHas r c
  | none => false

/-- A scope rectangle operand (R203): scope fault with the register's value. -/
def checkRect (s : State) (r : Word) : Except Stop Unit :=
  check (rectShape r && (match s.myRect with | some l => rectInside r l | none => false)) 0x0A r

/-- Step 5 of R87: the executing core has the extension, or the chunk migrates (R88, R204). -/
def needs (s : State) (bit : Nat) : Except Stop Unit :=
  if (extensions s.curCore).testBit bit then .ok () else .error (.migrate bit)

/-- An instruction that names a 64-bit floating-point operand needs F64 (R88). -/
def needsF64 (s : State) (wide : Bool) : Except Stop Unit := if wide then needs s 4 else .ok ()

/-- Step 4 of R87: an instruction of the SYS extension on a compute core is privileged; the argument is the head. -/
def needsHall (s : State) (head : Nat) : Except Stop Unit :=
  check (isHall s.curCore) 0x02 (BitVec.ofNat 64 head)

/-- The head halfword of an instruction, for trap arguments (R404). -/
def headOfInstr (i : Instr) : Nat := match encode i with | some w => w.head | none => 0

end Sys2Proof.Machine
end

