-- ==== Sys2Proof/Machine/Flags.lean ====
section
/-!
DEFINITION. The rounding environment and the sticky flags of a seat (R44, R45, R71), and conditions on ordered values with
the invalid flag they raise (R129, R146).
-/
namespace Sys2Proof.Machine

/-- How the issuing seat rounds (R40, R67). -/
def State.env (s : State) (rnd : BitVec 3) (sat : Bool) : RoundEnv :=
  { mode := roundMode rnd s.me.regs.rmode, sat := sat, seed := s.me.regs.seed }

/-- SEED after the steps an instruction took (R67). -/
def State.setSeed (s : State) (seed : Word) : State :=
  s.setMe { s.me with regs := { s.me.regs with seed := seed } }

/-- Flags reach NF at the park point (R71, R127). -/
def Regs.addNf (g : Regs) (flags : BitVec 6) : Regs := { g with nf := g.nf ||| flags }

/-- SYSW of a value to SEED: 0 stores 1 (R45). -/
def seedOf (w : Word) : Word := if w = 0 then 1 else w

/-- The conditions of VCMP in the order of R95: EQ, NE, LT, LE, GT, GE, UN. -/
def orderHolds (k : Nat) (o : Order) : Bool :=
  match k, o with
  | 0, .equal => true
  | 1, .equal => false
  | 1, _ => true
  | 2, .less => true
  | 3, .less => true
  | 3, .equal => true
  | 4, .greater => true
  | 5, .greater => true
  | 5, .equal => true
  | 6, .unordered => true
  | _, _ => false

/-- The invalid flag of a float comparison: on any NaN for the ordered conditions, otherwise on a signalling one. -/
def compareFlags (ordered : Bool) (a b : Val) : BitVec 6 :=
  flagIf (if ordered then a.isNan || b.isNan else a.isSignalling || b.isSignalling) invalidFlag

end Sys2Proof.Machine
end

