-- ==== Sys2Proof/Machine/Memory.lean ====
section
/-!
DEFINITION. Loads and stores, full/empty accesses and bit changes of a core's own storage (R241 to R247).
-/
namespace Sys2Proof.Machine

/-- LD's widths in bytes by selector (R243). -/
def loadBytes (w : BitVec 3) : Nat := if w.toNat ≤ 1 then 1 else if w.toNat ≤ 3 then 2 else if w.toNat ≤ 5 then 4 else 8

/-- LD's extension: even selectors below 6 are signed (R243). -/
def loadExtend (w : BitVec 3) (v : Nat) : Word :=
  if w.toNat = 6 then BitVec.ofNat 64 v
  else if w.toNat % 2 = 0 then sext v (8 * loadBytes w) else zext v (8 * loadBytes w)

/-- A range a load accepts: all but the counter file (R244). -/
def loadable (r : HomeRange) : Bool := r != .counters

/-- A range a store accepts: not the counter file and not the extraction window (R244). -/
def storable (r : HomeRange) : Bool := r != .counters && r != .extraction

/-- The checks and the state of a home-space load of n bytes whose pointer has been formed (R244, R275, R463). -/
def loadChecks (s : State) (p : Word) (n : Nat) (accept : Nat → Bool) : Except Stop State := do
  let r ← checkHome p n accept
  checkFormat (loadable r) 2
  tilesReady s (ptrAddr p) n true
  let t ← noteRead s (ptrAddr p) n
  checkPoison s (ptrAddr p) n
  .ok t

/-- The checks of a home-space store of n bytes whose pointer has been formed (R195, R244, R175). -/
def storeChecks (s : State) (p : Word) (n : Nat) (accept : Nat → Bool) : Except Stop Unit := do
  let r ← checkHome p n accept
  checkFormat (storable r) 2
  checkGuard (s.core s.home) (ptrAddr p) n
  tilesReady s (ptrAddr p) n false
  room s n

/-- Buffer a store and sign it for a task (R196, R388). -/
def bufferStore (s : State) (a : Nat) (bs : List Byte) : State := (s.writeHome a bs).signHome true a bs.length

/-- LD (R243, R244). -/
def execLd (sw : Bool) (d b : BitVec 6) (w : BitVec 3) (imm : BitVec 22) (s : State) :
    Host.Outcome State Fault Refusal :=
  settle sw s (do
    let p ← memOperand s b imm
    let t ← loadChecks s p (loadBytes w) (widthCode (8 * loadBytes w))
    if s.home = s.curCore then .ok (t.gresX d (loadExtend w (s.readHomeNat (ptrAddr p) (loadBytes w))) 4)
    else .ok (t.loadAway (.x d) [ptrAddr p] (loadBytes w) (.scalar w)))

/-- ST's width in bytes (R243). -/
def storeBytes (w : BitVec 2) : Nat := 2 ^ w.toNat

/-- ST (R243, R244). -/
def execSt (sw : Bool) (a b : BitVec 6) (w : BitVec 2) (imm : BitVec 22) (s : State) :
    Host.Outcome State Fault Refusal :=
  settle sw s (do
    let p ← memOperand s b imm
    storeChecks s p (storeBytes w) (widthCode (8 * storeBytes w))
    .ok (bufferStore s (ptrAddr p) (natToBytes (storeBytes w) (s.x a).toNat)))

/-- The checks of a full/empty access (R246); `window` also admits the extraction window. -/
def fullChecks (p : Word) (window : Bool) : Except Stop Unit := do
  let r ← checkHome p 8 wordCode
  checkFormat (r == .localStore || (window && r == .extraction)) 2
  checkFormat (ptrAddr p % 8 == 0) 2

/-- The word tests full as the issuing chunk sees it (R213, R246). -/
def State.seesFull (s : State) (a : Nat) : Bool := wordFull (s.core s.home) s.curCore s.curSeat s.me a

/-- The issuing chunk finds the word full, no seat that comes first being about to test it in the same cc (R213). -/
def State.testsFull (s : State) (a : Nat) : Bool := s.seesFull a && !s.testsAfter s.curCore s.curSeat s.home [a]

/-- Wait in place until the word tests full (R246). -/
def awaitFull (s : State) (a : Nat) : Except Stop Unit := if s.testsFull a then .ok () else .error (.waitFull [a] true)

/-- LDF (R246). -/
def execLdf (sw : Bool) (d b : BitVec 6) (imm : BitVec 22) (s : State) : Host.Outcome State Fault Refusal :=
  settle sw s (do
    let p ← memOperand s b imm
    fullChecks p true
    readsTaken s
    travelHome s
    awaitFull s (ptrAddr p)
    let t ← noteRead s (ptrAddr p) 8
    checkPoison s (ptrAddr p) 8
    .ok (t.gresX d (s.readHomeWord (ptrAddr p)) (4 + homeReturn s)))

/-- A change of a word's bit buffered in the chunk (R213, R247). -/
def State.changeFull (s : State) (a words : Nat) (full : Bool) : State :=
  s.setMe { s.me with fe := { lo := a, words := words, full := full } :: s.me.fe }

/-- LDFE's take of a word: a reservation at the owner, unless the chunk's own STF filled it (R213, R246), or its wait has made
it already. -/
def takeWord (s : State) (a : Nat) : State :=
  match feChange s.me.fe a with
  | some _ => s.changeFull a 1 false
  | none =>
    let t := s.changeFull a 1 false
    let h := t.core t.home
    if h.reserved.contains (a, t.curCore, t.curSeat) then t
    else t.setCore t.home { h with reserved := (a, t.curCore, t.curSeat) :: h.reserved }

/-- LDFE (R246): also with A = 0 the word is taken. -/
def execLdfe (sw : Bool) (d b : BitVec 6) (imm : BitVec 22) (s : State) : Host.Outcome State Fault Refusal :=
  settle sw s (do
    let p ← memOperand s b imm
    fullChecks p true
    readsTaken s
    travelHome s
    awaitFull s (ptrAddr p)
    let t ← noteRead s (ptrAddr p) 8
    checkPoison s (ptrAddr p) 8
    .ok ((takeWord t (ptrAddr p)).gresX d (s.readHomeWord (ptrAddr p)) (4 + homeReturn s)))

/-- STF (R246): it waits for nothing. -/
def execStf (sw : Bool) (a b : BitVec 6) (imm : BitVec 22) (s : State) : Host.Outcome State Fault Refusal :=
  settle sw s (do
    let p ← memOperand s b imm
    fullChecks p false
    checkGuard (s.core s.home) (ptrAddr p) 8
    room s 8
    .ok ((bufferStore s (ptrAddr p) (wordBytes (s.x a))).changeFull (ptrAddr p) 1 true))

/-- SETE and SETF (R247): a pointer into the local store, a length in whole words; a length of 0 changes no bit. -/
def setRange (sw : Bool) (a l : BitVec 6) (full : Bool) (s : State) : Host.Outcome State Fault Refusal :=
  settle sw s (do
    let p := s.x a
    let n := (s.x l).toNat
    let r ← checkHome p 0 wordCode
    checkFormat (r == .localStore) 5
    checkFormat (ptrAddr p % 8 == 0 && n % 8 == 0) 2
    checkFormat (ptrAddr p + n ≤ 0x80000) 5
    .ok (if n = 0 then s else (s.changeFull (ptrAddr p) (n / 8) full).signHome true (ptrAddr p) n))

/-- SETE (R247). -/
def execSete (sw : Bool) (a l : BitVec 6) (s : State) : Host.Outcome State Fault Refusal := setRange sw a l false s

/-- SETF (R247). -/
def execSetf (sw : Bool) (a l : BitVec 6) (s : State) : Host.Outcome State Fault Refusal := setRange sw a l true s

end Sys2Proof.Machine
end

