-- ==== Sys2Proof/Machine/ScalarFloat.lean ====
section
/-!
DEFINITION. Scalar floating point (R126 to R132).
-/
namespace Sys2Proof.Machine

/-- The format the precision bit selects (R126). -/
def scalarFormat (p : Bool) : FpFormat := if p then f64 else f32

/-- A scalar operand's pattern: the whole register, or bits 31:0 (R126). -/
def scalarBits (p : Bool) (x : Word) : Nat := if p then x.toNat else x.toNat % 2 ^ 32

/-- A scalar operand's value. -/
def scalarVal (p : Bool) (x : Word) : Val := decodeFp (scalarFormat p) (scalarBits p x)

/-- A scalar result: a group result with its flags, and SEED after its step (R67, R127). -/
def scalarResult (s : State) (d : BitVec 6) (o : FpOut) (latency : Nat) : State :=
  (s.setSeed o.seed).gresX d (BitVec.ofNat 64 o.bits) latency o.flags

/-- An arithmetic instruction of R128: the raw result, rounded once. -/
def scalarArith (sw : Bool) (d : BitVec 6) (p : Bool) (rnd : BitVec 3) (sat : Bool) (latency : Nat)
    (raw : Nat → Raw) (s : State) : Host.Outcome State Fault Refusal :=
  settle sw s (do
    needsF64 s p
    let env := s.env rnd sat
    .ok (scalarResult s d (settleFp (scalarFormat p) env (raw env.mode)) latency))

/-- FADD (R128). -/
def execFadd (sw : Bool) (d b c : BitVec 6) (p : Bool) (rnd : BitVec 3) (sat : Bool) (s : State) :
    Host.Outcome State Fault Refusal :=
  scalarArith sw d p rnd sat 4 (fun m => fpAdd m (scalarVal p (s.x b)) (scalarVal p (s.x c))) s

/-- FSUB (R128). -/
def execFsub (sw : Bool) (d b c : BitVec 6) (p : Bool) (rnd : BitVec 3) (sat : Bool) (s : State) :
    Host.Outcome State Fault Refusal :=
  scalarArith sw d p rnd sat 4 (fun m => fpAdd m (scalarVal p (s.x b)) (scalarVal p (s.x c)).negate) s

/-- FMUL (R128). -/
def execFmul (sw : Bool) (d b c : BitVec 6) (p : Bool) (rnd : BitVec 3) (sat : Bool) (s : State) :
    Host.Outcome State Fault Refusal :=
  scalarArith sw d p rnd sat 4 (fun _ => fpMul (scalarVal p (s.x b)) (scalarVal p (s.x c))) s

/-- FMIN and FMAX: unrounded, no SEED step (R72, R128). -/
def scalarMinMax (sw : Bool) (larger : Bool) (d b c : BitVec 6) (p : Bool) (s : State) :
    Host.Outcome State Fault Refusal :=
  settle sw s (do
    needsF64 s p
    let r := fpMinMax (scalarFormat p) larger (scalarBits p (s.x b)) (scalarBits p (s.x c))
    .ok (s.gresX d (BitVec.ofNat 64 r.1) 4 r.2))

/-- FMIN (R128). -/
def execFmin (sw : Bool) (d b c : BitVec 6) (p : Bool) (s : State) : Host.Outcome State Fault Refusal :=
  scalarMinMax sw false d b c p s

/-- FMAX (R128). -/
def execFmax (sw : Bool) (d b c : BitVec 6) (p : Bool) (s : State) : Host.Outcome State Fault Refusal :=
  scalarMinMax sw true d b c p s

/-- FFMA: the exact b × c + e, rounded once (R74, R128). -/
def execFfma (sw : Bool) (d b c e : BitVec 6) (p : Bool) (rnd : BitVec 3) (sat : Bool) (s : State) :
    Host.Outcome State Fault Refusal :=
  scalarArith sw d p rnd sat 4
    (fun m => fpFma m (scalarVal p (s.x b)) (scalarVal p (s.x c)) (scalarVal p (s.x e))) s

/-- The latency of FDIV and FSQRT (R127). -/
def longLatency (p : Bool) : Nat := if p then 24 else 12

/-- FDIV (R128). -/
def execFdiv (sw : Bool) (d b c : BitVec 6) (p : Bool) (rnd : BitVec 3) (sat : Bool) (s : State) :
    Host.Outcome State Fault Refusal :=
  scalarArith sw d p rnd sat (longLatency p) (fun _ => fpDiv (scalarVal p (s.x b)) (scalarVal p (s.x c))) s

/-- FSQRT (R128). -/
def execFsqrt (sw : Bool) (d b : BitVec 6) (p : Bool) (rnd : BitVec 3) (sat : Bool) (s : State) :
    Host.Outcome State Fault Refusal :=
  scalarArith sw d p rnd sat (longLatency p) (fun _ => fpSqrt (scalarVal p (s.x b))) s

/-- FCMP's conditions EQ, LT, LE, UN (R129). -/
def scalarCondition (k : BitVec 2) (o : Order) : Bool :=
  match k.toNat with
  | 0 => orderHolds 0 o
  | 1 => orderHolds 2 o
  | 2 => orderHolds 3 o
  | _ => orderHolds 6 o

/-- FCMP (R129). -/
def execFcmp (sw : Bool) (d b c : BitVec 6) (k : BitVec 2) (p : Bool) (s : State) :
    Host.Outcome State Fault Refusal :=
  settle sw s (do
    needsF64 s p
    let u := scalarVal p (s.x b)
    let v := scalarVal p (s.x c)
    .ok (s.gresX d (if scalarCondition k (fpCompare u v) then 1 else 0) 4 (compareFlags (k == 1 || k == 2) u v)))

/-- The integer range of a format code 0 to 6 (R133). -/
def intRange (code : Nat) : Int × Int :=
  let w := fmtBits code
  if isSigned code then (-(2 ^ (w - 1)), 2 ^ (w - 1) - 1) else (0, 2 ^ w - 1)

/-- The source of FCVT: the low bits of the register in its code (R131). -/
def convertSource (src : Nat) (x : Word) : Raw :=
  if 7 ≤ src then (decodeFp (fpOf src) (x.toNat % 2 ^ fmtBits src)).asInput
  else intInput (if isSigned src then signed x.toNat (fmtBits src) else (x.toNat % 2 ^ fmtBits src : Nat))

/-- FCVT (R131): to a float it rounds and saturates; to an integer it rounds and clamps. -/
def execFcvt (sw : Bool) (d b : BitVec 6) (dst : BitVec 4) (rnd : BitVec 3) (sat : Bool) (src : BitVec 4) (s : State) :
    Host.Outcome State Fault Refusal :=
  settle sw s (do
    needsF64 s (dst == 7 || src == 7)
    let env := s.env rnd sat
    if 7 ≤ dst.toNat then
      .ok (scalarResult s d (settleFp (fpOf dst.toNat) env (convertSource src.toNat (s.x b))) 4)
    else
      let r := intRange dst.toNat
      let o := toInt env r.1 r.2 (decodeFp (fpOf src.toNat) ((s.x b).toNat % 2 ^ fmtBits src.toNat))
      .ok ((s.setSeed o.2.2).gresX d (BitVec.ofInt 64 o.1) 4 o.2.1))

/-- FCLASS (R130): no flag is set. -/
def execFclass (sw : Bool) (d b : BitVec 6) (p : Bool) (s : State) : Host.Outcome State Fault Refusal :=
  settle sw s (do
    needsF64 s p
    .ok (s.gresX d (BitVec.ofNat 64 (classOf (scalarFormat p) (scalarBits p (s.x b)))) 4))

end Sys2Proof.Machine
end

