-- ==== Sys2Proof/Machine/Vector.lean ====
section
/-!
DEFINITION. Group 4: lane arithmetic, logic, comparison, selection, reductions and scans of vector registers (R133 to R149).
-/
namespace Sys2Proof.Machine

/-! ### Lanes -/

/-- `lane` of R40: lane n of a vector in format fmt. -/
def lane (v : Vec) (fmt n : Nat) : Nat := v.field (fmtBits fmt * n) (fmtBits fmt)

/-- The vector that w-bit lanes make, lane 0 lowest (R42). -/
def packLanes (w : Nat) : List Nat → Nat
  | [] => 0
  | x :: r => x % 2 ^ w + 2 ^ w * packLanes w r

/-- A vector of lanes. -/
def ofLanes (w : Nat) (l : List Nat) : Vec := BitVec.ofNat 1024 (packLanes w l)

/-- `active` of R40: the mask bit that governs lane n. -/
def activeLane (q : Mask) (fmt n : Nat) : Bool := q.bit (if fmt = 13 then n / 2 else n)

/-- What an inactive lane of the destination holds afterwards: `put` of R40. -/
def keptLane (old : Vec) (fmt : Nat) (z : Bool) (n : Nat) : Nat := if z then 0 else lane old fmt n

/-- Lanes computed in ascending order: an active lane takes what f gives from SEED, an inactive one keeps its value, takes
no step and sets no flag (R135, R136). -/
def runLanes (f : Nat → Word → FpOut) (act : Nat → Bool) (kept : Nat → Nat) : List Nat → Word → List Nat × BitVec 6 × Word
  | [], seed => ([], 0, seed)
  | n :: r, seed =>
    if act n then
      let o := f n seed
      let t := runLanes f act kept r o.seed
      (o.bits :: t.1, o.flags ||| t.2.1, t.2.2)
    else
      let t := runLanes f act kept r seed
      (kept n :: t.1, t.2.1, t.2.2)

/-- A lane result that is bits alone: no flag and no SEED step. -/
def plainLane (bits : Nat) (seed : Word) : FpOut := { bits := bits, flags := 0, seed := seed }

/-- The state after a vector result: SEED after its steps, and the group result with the flags (R136). -/
def vectorResult (s : State) (d : BitVec 5) (fmt : Nat) (out : List Nat × BitVec 6 × Word) (latency : Nat) : State :=
  (s.setSeed out.2.2).gres (.v d) (ofLanes (fmtBits fmt) out.1) latency out.2.1

/-- A lane-by-lane instruction into v[d] under a mask (R135). -/
def laneMap (s : State) (d : BitVec 5) (fmt : Nat) (q : BitVec 3) (z : Bool) (latency : Nat)
    (f : Nat → Word → FpOut) : State :=
  vectorResult s d fmt
    (runLanes f (activeLane (s.q q) fmt) (keptLane (s.v d) fmt z) (List.range (elems fmt)) s.me.regs.seed) latency

/-- The integer a lane's bits stand for in an integer format (R55). -/
def laneInt (fmt bits : Nat) : Int := if isSigned fmt then signed bits (fmtBits fmt) else (bits : Int)

/-- `int_res`: wrap, or clamp to the format's range (R139). -/
def intRes (fmt : Nat) (sat : Bool) (e : Int) : Nat :=
  let r := intRange fmt
  let v := if sat then max r.1 (min r.2 e) else e
  (v % 2 ^ fmtBits fmt).toNat

/-- The value of a lane in a float format. -/
def laneVal (fmt bits : Nat) : Val := decodeFp (fpOf fmt) bits

/-- The environment with another SEED. -/
def RoundEnv.withSeed (e : RoundEnv) (seed : Word) : RoundEnv := { e with seed := seed }

/-! ### Two-source and fused arithmetic -/

/-- A node of VADD, VSUB and VMUL in any format (R138, R139). -/
def arithNode (fmt : Nat) (env : RoundEnv) (fl : Nat → Val → Val → Raw) (int : Int → Int → Int) (a b : Nat)
    (seed : Word) : FpOut :=
  if 7 ≤ fmt then settleFp (fpOf fmt) (env.withSeed seed) (fl env.mode (laneVal fmt a) (laneVal fmt b))
  else plainLane (intRes fmt env.sat (int (laneInt fmt a) (laneInt fmt b))) seed

/-- A node of MIN and MAX in any format (R72, R138). -/
def orderNode (fmt : Nat) (larger : Bool) (a b : Nat) (seed : Word) : FpOut :=
  if 7 ≤ fmt then
    let r := fpMinMax (fpOf fmt) larger a b
    { bits := r.1, flags := r.2, seed := seed }
  else plainLane (if (laneInt fmt a < laneInt fmt b) != larger then a else b) seed

/-- Latency by kind: an integer format's or a float format's (R137). -/
def byKind (fmt int fl : Nat) : Nat := if 7 ≤ fmt then fl else int

/-- A two-source instruction (R138). -/
def twoSource (sw : Bool) (d b c : BitVec 5) (fmt : BitVec 4) (q : BitVec 3) (z : Bool) (latency : Nat)
    (node : Nat → Nat → Word → FpOut) (s : State) : Host.Outcome State Fault Refusal :=
  settle sw s (do
    needsF64 s (fmt == 7)
    .ok (laneMap s d fmt.toNat q z latency
      (fun n seed => node (lane (s.v b) fmt.toNat n) (lane (s.v c) fmt.toNat n) seed)))

/-- a − b before rounding. -/
def fpSub (mode : Nat) (a b : Val) : Raw := fpAdd mode a b.negate

/-- VADD (R138). -/
def execVadd (sw : Bool) (d b c : BitVec 5) (fmt : BitVec 4) (q rnd : BitVec 3) (sat z : Bool) (s : State) :
    Host.Outcome State Fault Refusal :=
  twoSource sw d b c fmt q z (byKind fmt.toNat 2 4) (arithNode fmt.toNat (s.env rnd sat) fpAdd (fun x y => x + y)) s

/-- VSUB (R138). -/
def execVsub (sw : Bool) (d b c : BitVec 5) (fmt : BitVec 4) (q rnd : BitVec 3) (sat z : Bool) (s : State) :
    Host.Outcome State Fault Refusal :=
  twoSource sw d b c fmt q z (byKind fmt.toNat 2 4) (arithNode fmt.toNat (s.env rnd sat) fpSub (fun x y => x - y)) s

/-- VMUL (R138). -/
def execVmul (sw : Bool) (d b c : BitVec 5) (fmt : BitVec 4) (q rnd : BitVec 3) (sat z : Bool) (s : State) :
    Host.Outcome State Fault Refusal :=
  twoSource sw d b c fmt q z 4 (arithNode fmt.toNat (s.env rnd sat) (fun _ => fpMul) (fun x y => x * y)) s

/-- VMIN (R138). -/
def execVmin (sw : Bool) (d b c : BitVec 5) (fmt : BitVec 4) (q : BitVec 3) (z : Bool) (s : State) :
    Host.Outcome State Fault Refusal :=
  twoSource sw d b c fmt q z (byKind fmt.toNat 2 4) (orderNode fmt.toNat false) s

/-- VMAX (R138). -/
def execVmax (sw : Bool) (d b c : BitVec 5) (fmt : BitVec 4) (q : BitVec 3) (z : Bool) (s : State) :
    Host.Outcome State Fault Refusal :=
  twoSource sw d b c fmt q z (byKind fmt.toNat 2 4) (orderNode fmt.toNat true) s

/-- VFMA: the exact p × y + e, rounded once or settled once (R140). -/
def execVfma (sw : Bool) (d b c e : BitVec 5) (fmt : BitVec 4) (q rnd : BitVec 3) (sat z : Bool) (s : State) :
    Host.Outcome State Fault Refusal :=
  settle sw s (do
    needsF64 s (fmt == 7)
    let f := fmt.toNat
    let env := s.env rnd sat
    .ok (laneMap s d f q z 4 (fun n seed =>
      let x := lane (s.v b) f n
      let y := lane (s.v c) f n
      let w := lane (s.v e) f n
      if 7 ≤ f then
        settleFp (fpOf f) (env.withSeed seed) (fpFma env.mode (laneVal f x) (laneVal f y) (laneVal f w))
      else plainLane (intRes f sat (laneInt f x * laneInt f y + laneInt f w)) seed)))

/-! ### Single-source arithmetic -/

/-- A single-source instruction (R141, R143). -/
def oneSource (sw : Bool) (d b : BitVec 5) (fmt : BitVec 4) (q : BitVec 3) (z : Bool) (latency : Nat)
    (node : Nat → Word → FpOut) (s : State) : Host.Outcome State Fault Refusal :=
  settle sw s (do
    needsF64 s (fmt == 7)
    .ok (laneMap s d fmt.toNat q z latency (fun n seed => node (lane (s.v b) fmt.toNat n) seed)))

/-- VABS and VNEG of a lane: the sign bit, a NaN made canonical with no flag; or the exact integer settled (R141). -/
def signNode (fmt : Nat) (sat negate : Bool) (bits : Nat) (seed : Word) : FpOut :=
  if 7 ≤ fmt then
    let top := 2 ^ (fmtBits fmt - 1)
    plainLane (if (laneVal fmt bits).isNan then (fpOf fmt).nan
      else if negate then (if top ≤ bits then bits - top else bits + top) else bits % top) seed
  else plainLane (intRes fmt sat (if negate then -(laneInt fmt bits) else (laneInt fmt bits).natAbs)) seed

/-- VABS (R141). -/
def execVabs (sw : Bool) (d b : BitVec 5) (fmt : BitVec 4) (q : BitVec 3) (sat z : Bool) (s : State) :
    Host.Outcome State Fault Refusal :=
  oneSource sw d b fmt q z (byKind fmt.toNat 2 4) (signNode fmt.toNat sat false) s

/-- VNEG (R141). -/
def execVneg (sw : Bool) (d b : BitVec 5) (fmt : BitVec 4) (q : BitVec 3) (sat z : Bool) (s : State) :
    Host.Outcome State Fault Refusal :=
  oneSource sw d b fmt q z (byKind fmt.toNat 2 4) (signNode fmt.toNat sat true) s

/-- VDIV (R142). -/
def execVdiv (sw : Bool) (d b c : BitVec 5) (fmt : BitVec 4) (q rnd : BitVec 3) (sat z : Bool) (s : State) :
    Host.Outcome State Fault Refusal :=
  twoSource sw d b c fmt q z (if fmt = 7 then 24 else 12)
    (arithNode fmt.toNat (s.env rnd sat) (fun _ => fpDiv) (fun x _ => x)) s

/-- A rounding to F32 in RNE as the input of BF16's second rounding: an infinity that the F32 rounding makes comes from
finite operands (R74, R504). -/
def throughF32 (r : Raw) : Raw × BitVec 6 :=
  match r with
  | .real x =>
    let o := settleFp f32 ⟨0, false, 0⟩ (.real x)
    match decodeFp f32 o.bits with
    | .fin neg m e => (.real ⟨neg, m, e, false⟩, o.flags)
    | _ => (.infFinite x.neg o.flags, o.flags)
  | r => (r, 0)

/-- A lane of VRCP, VRSQ, VSQRT, VEXP2 and VLOG2: one rounding, or two for BF16 with the flags of both (R74, R143). -/
def functionNode (fmt : Nat) (env : RoundEnv) (fn : Val → Raw) (bits : Nat) (seed : Word) : FpOut :=
  let r := fn (laneVal fmt bits)
  if fmt = 9 then
    let t := throughF32 r
    let o := settleFp bf16 (env.withSeed seed) t.1
    { o with flags := o.flags ||| t.2 }
  else settleFp (fpOf fmt) (env.withSeed seed) r

/-- VRCP (R143). -/
def execVrcp (sw : Bool) (d b : BitVec 5) (fmt : BitVec 4) (q rnd : BitVec 3) (sat z : Bool) (s : State) :
    Host.Outcome State Fault Refusal :=
  oneSource sw d b fmt q z 12 (functionNode fmt.toNat (s.env rnd sat) fpRcp) s

/-- VRSQ (R143). -/
def execVrsq (sw : Bool) (d b : BitVec 5) (fmt : BitVec 4) (q rnd : BitVec 3) (sat z : Bool) (s : State) :
    Host.Outcome State Fault Refusal :=
  oneSource sw d b fmt q z 12 (functionNode fmt.toNat (s.env rnd sat) fpRsq) s

/-- VSQRT (R143). -/
def execVsqrt (sw : Bool) (d b : BitVec 5) (fmt : BitVec 4) (q rnd : BitVec 3) (sat z : Bool) (s : State) :
    Host.Outcome State Fault Refusal :=
  oneSource sw d b fmt q z 12 (functionNode fmt.toNat (s.env rnd sat) fpSqrt) s

/-- VEXP2 (R143). -/
def execVexp2 (sw : Bool) (d b : BitVec 5) (fmt : BitVec 4) (q rnd : BitVec 3) (sat z : Bool) (s : State) :
    Host.Outcome State Fault Refusal :=
  oneSource sw d b fmt q z 12 (functionNode fmt.toNat (s.env rnd sat) fpExp2) s

/-- VLOG2 (R143). -/
def execVlog2 (sw : Bool) (d b : BitVec 5) (fmt : BitVec 4) (q rnd : BitVec 3) (sat z : Bool) (s : State) :
    Host.Outcome State Fault Refusal :=
  oneSource sw d b fmt q z 12 (functionNode fmt.toNat (s.env rnd sat) fpLog2) s

/-! ### Logic and shifts -/

/-- A lane result that reads the lanes as bits (R144, R145). -/
def bitNode (f : Nat → Nat → Nat) (a b : Nat) (seed : Word) : FpOut := plainLane (f a b) seed

/-- The shift count of a lane: the low log2(w) bits (R145). -/
def laneCount (fmt count : Nat) : Nat := count % fmtBits fmt

/-- VAND (R144). -/
def execVand (sw : Bool) (d b c : BitVec 5) (fmt : BitVec 4) (q : BitVec 3) (z : Bool) (s : State) :
    Host.Outcome State Fault Refusal :=
  twoSource sw d b c fmt q z 2 (bitNode (fun x y => x &&& y)) s

/-- VOR (R144). -/
def execVor (sw : Bool) (d b c : BitVec 5) (fmt : BitVec 4) (q : BitVec 3) (z : Bool) (s : State) :
    Host.Outcome State Fault Refusal :=
  twoSource sw d b c fmt q z 2 (bitNode (fun x y => x ||| y)) s

/-- VXOR (R144). -/
def execVxor (sw : Bool) (d b c : BitVec 5) (fmt : BitVec 4) (q : BitVec 3) (z : Bool) (s : State) :
    Host.Outcome State Fault Refusal :=
  twoSource sw d b c fmt q z 2 (bitNode (fun x y => x ^^^ y)) s

/-- VANDN (R144). -/
def execVandn (sw : Bool) (d b c : BitVec 5) (fmt : BitVec 4) (q : BitVec 3) (z : Bool) (s : State) :
    Host.Outcome State Fault Refusal :=
  twoSource sw d b c fmt q z 2 (bitNode (fun x y => x - (x &&& y))) s

/-- VSHL (R145). -/
def execVshl (sw : Bool) (d b c : BitVec 5) (fmt : BitVec 4) (q : BitVec 3) (z : Bool) (s : State) :
    Host.Outcome State Fault Refusal :=
  twoSource sw d b c fmt q z 2 (bitNode (fun x y => x * 2 ^ laneCount fmt.toNat y)) s

/-- VSHR (R145). -/
def execVshr (sw : Bool) (d b c : BitVec 5) (fmt : BitVec 4) (q : BitVec 3) (z : Bool) (s : State) :
    Host.Outcome State Fault Refusal :=
  twoSource sw d b c fmt q z 2 (bitNode (fun x y => x / 2 ^ laneCount fmt.toNat y)) s

/-- VSRA (R145). -/
def execVsra (sw : Bool) (d b c : BitVec 5) (fmt : BitVec 4) (q : BitVec 3) (z : Bool) (s : State) :
    Host.Outcome State Fault Refusal :=
  twoSource sw d b c fmt q z 2 (bitNode (fun x y =>
    (signed x (fmtBits fmt.toNat) / 2 ^ laneCount fmt.toNat y % 2 ^ fmtBits fmt.toNat).toNat)) s

/-! ### Compare and select -/

/-- A comparison of two lanes with the flag it raises (R146). -/
def laneCompare (fmt k a b : Nat) : Bool × BitVec 6 :=
  if 7 ≤ fmt then
    let u := laneVal fmt a
    let v := laneVal fmt b
    (orderHolds k (fpCompare u v), compareFlags (2 ≤ k && k ≤ 5) u v)
  else (orderHolds k (intOrder (laneInt fmt a) (laneInt fmt b)), 0)

/-- Mask bits tested lane by lane: an inactive bit keeps its value; the flags of the active lanes (R146, R166). -/
def runMask (f : Nat → Bool × BitVec 6) (act kept : Nat → Bool) : List Nat → List Nat × BitVec 6
  | [] => ([], 0)
  | n :: r =>
    let t := runMask f act kept r
    if act n then ((f n).1.toNat :: t.1, (f n).2 ||| t.2) else ((kept n).toNat :: t.1, t.2)

/-- The state after a mask result: bits past the lanes are clear (R146). -/
def maskResult (s : State) (d : BitVec 3) (out : List Nat × BitVec 6) (latency : Nat) : State :=
  s.gres (.q d) (ofLanes 1 out.1) latency out.2

/-- VCMP (R146). -/
def execVcmp (sw : Bool) (d : BitVec 3) (b c : BitVec 5) (fmt : BitVec 4) (q k : BitVec 3) (s : State) :
    Host.Outcome State Fault Refusal :=
  settle sw s (do
    needsF64 s (fmt == 7)
    let f := fmt.toNat
    .ok (maskResult s d
      (runMask (fun n => laneCompare f k.toNat (lane (s.v b) f n) (lane (s.v c) f n)) (s.q q).bit (s.q d).bit
        (List.range (elems f))) (byKind f 2 4)))

/-- VSEL: every lane is written and none is read as a value (R147); a float format takes the latency of float instructions
(R137), and so does CB16, which R137's table names with neither (DESIGN CHOICE log 108). -/
def execVsel (sw : Bool) (d b c : BitVec 5) (fmt : BitVec 4) (q : BitVec 3) (s : State) :
    Host.Outcome State Fault Refusal :=
  settle sw s (do
    needsF64 s (fmt == 7)
    let f := fmt.toNat
    .ok (s.gres (.v d)
      (ofLanes (fmtBits f) ((List.range (elems f)).map (fun n =>
        if activeLane (s.q q) f n then lane (s.v b) f n else lane (s.v c) f n)))
      (byKind f 2 4)))

/-! ### Reductions and scans -/

/-- The node of VRED and VSCAN under a selector: SUM, MAX, MIN, AND, OR (R148). -/
def foldNode (op fmt : Nat) (env : RoundEnv) (a b : Nat) (seed : Word) : FpOut :=
  match op with
  | 0 => arithNode fmt env fpAdd (fun x y => x + y) a b seed
  | 1 => orderNode fmt true a b seed
  | 2 => orderNode fmt false a b seed
  | 3 => plainLane (a &&& b) seed
  | _ => plainLane (a ||| b) seed

/-- One level of the tree: adjacent results combine, left to right; a lone child passes unchanged, and a node with no present
child is absent and takes no SEED step (R75, R148) (DEDUCED log 77). -/
def treeLevel (node : Nat → Nat → Word → FpOut) : List (Option Nat) → Word → List (Option Nat) × BitVec 6 × Word
  | a :: b :: r, seed =>
    match a, b with
    | some x, some y =>
      let o := node x y seed
      let t := treeLevel node r o.seed
      (some o.bits :: t.1, o.flags ||| t.2.1, t.2.2)
    | some x, none => let t := treeLevel node r seed; (some x :: t.1, t.2.1, t.2.2)
    | none, y => let t := treeLevel node r seed; (y :: t.1, t.2.1, t.2.2)
  | l, seed => (l, 0, seed)

/-- The tree over some levels: its root, the flags and SEED (R75). -/
def tree (node : Nat → Nat → Word → FpOut) : Nat → List (Option Nat) → Word → Option Nat × BitVec 6 × Word
  | 0, l, seed => ((l.head?).getD none, 0, seed)
  | levels + 1, l, seed =>
    let t := treeLevel node l seed
    let u := tree node levels t.1 t.2.2
    (u.1, t.2.1 ||| u.2.1, u.2.2)

/-- The identity of an absent root (R75, R148). -/
def foldIdentity (op fmt : Nat) : Nat :=
  match op with
  | 1 => if 7 ≤ fmt then (fpOf fmt).signBit true + (fpOf fmt).inf else ((intRange fmt).1 % 2 ^ fmtBits fmt).toNat
  | 2 => if 7 ≤ fmt then (fpOf fmt).inf else ((intRange fmt).2 % 2 ^ fmtBits fmt).toNat
  | 3 => 2 ^ fmtBits fmt - 1
  | _ => 0

/-- A lane placed in an x register: I formats sign-extended, all others with zeros above (R148, R158). -/
def placeLane (fmt bits : Nat) : Word := if isSigned fmt then sext bits (fmtBits fmt) else zext bits (fmtBits fmt)

/-- VRED (R148). -/
def execVred (sw : Bool) (d : BitVec 6) (b : BitVec 5) (fmt : BitVec 4) (q rnd : BitVec 3) (sat : Bool) (op : BitVec 3)
    (s : State) : Host.Outcome State Fault Refusal :=
  settle sw s (do
    needsF64 s (fmt == 7)
    let f := fmt.toNat
    let levels := log2 (elems f)
    let leaves := (List.range (elems f)).map (fun n =>
      if activeLane (s.q q) f n then some (lane (s.v b) f n) else none)
    let t := tree (foldNode op.toNat f (s.env rnd sat)) levels leaves s.me.regs.seed
    .ok ((s.setSeed t.2.2).gresX d (placeLane f (t.1.getD (foldIdentity op.toNat f))) (byKind f 2 4 * levels) t.2.1))

/-- VSCAN over lanes in ascending order from a running value (R149). -/
def scanLanes (node : Nat → Nat → Word → FpOut) (first : Nat → FpOut) (act : Nat → Bool) (kept : Nat → Nat)
    (val : Nat → Nat) : List Nat → Option Nat → Word → List Nat × BitVec 6 × Word
  | [], _, seed => ([], 0, seed)
  | n :: r, acc, seed =>
    if act n then
      let o := match acc with
        | none => { first (val n) with seed := seed }
        | some a => node a (val n) seed
      let t := scanLanes node first act kept val r (some o.bits) o.seed
      (o.bits :: t.1, o.flags ||| t.2.1, t.2.2)
    else
      let t := scanLanes node first act kept val r acc seed
      (kept n :: t.1, t.2.1, t.2.2)

/-- The first active lane of a scan: copied, a signalling NaN made canonical with invalid (R149). -/
def scanFirst (fmt bits : Nat) : FpOut :=
  if 7 ≤ fmt && (laneVal fmt bits).isSignalling then { bits := (fpOf fmt).nan, flags := invalidFlag, seed := 0 }
  else plainLane bits 0

/-- VSCAN (R149). -/
def execVscan (sw : Bool) (d b : BitVec 5) (fmt : BitVec 4) (q rnd : BitVec 3) (sat z : Bool) (op : BitVec 2)
    (s : State) : Host.Outcome State Fault Refusal :=
  settle sw s (do
    needsF64 s (fmt == 7)
    let f := fmt.toNat
    .ok (vectorResult s d f
      (scanLanes (foldNode op.toNat f (s.env rnd sat)) (scanFirst f) (activeLane (s.q q) f) (keptLane (s.v d) f z)
        (lane (s.v b) f) (List.range (elems f)) none s.me.regs.seed) (byKind f 1 4 * elems f)))

end Sys2Proof.Machine
end

