-- ==== Sys2Proof/Machine/VecData.lean ====
section
/-!
DEFINITION. Group 5: vector loads and stores, gather and scatter, rearrangement, conversion, block quantising, codebook
decoding, classification and mask operations (R150 to R167).
-/
namespace Sys2Proof.Machine

/-! ### Whole-vector loads and stores -/

/-- The checks of R153 on a pointer to 128 bytes: no counter file, and the ranges `accept` takes. -/
def vectorChecks (p : Word) (accept : HomeRange → Bool) : Except Stop Unit := do
  let r ← checkHome p 128 unblocked
  checkFormat (r != .counters) 5
  checkFormat (accept r) 2

/-- A vector's 128 bytes (R42). -/
def vecBytes (v : Vec) : List Byte := natToBytes 128 v.toNat

/-- What a vector load does once its pointer is checked: tiles, the read filter and poison (R178, R275, R463). -/
def loadVector (s : State) (p : Word) : Except Stop State := do
  tilesReady s (ptrAddr p) 128 true
  let t ← noteRead s (ptrAddr p) 128
  checkPoison s (ptrAddr p) 128
  .ok t

/-- VLD (R151 to R153); away from home the load travels (R191). -/
def execVld (sw : Bool) (d : BitVec 5) (b : BitVec 6) (imm : BitVec 22) (s : State) :
    Host.Outcome State Fault Refusal :=
  settle sw s (do
    let p ← memOperand s b imm
    vectorChecks p (fun _ => true)
    let t ← loadVector s p
    if s.home = s.curCore then .ok (t.gres (.v d) (BitVec.ofNat 1024 (s.readHomeNat (ptrAddr p) 128)) 6)
    else .ok (t.loadAway (.v d) [ptrAddr p] 128 .vector))

/-- VST (R152, R153, R155). -/
def execVst (sw : Bool) (a : BitVec 5) (b : BitVec 6) (imm : BitVec 22) (s : State) :
    Host.Outcome State Fault Refusal :=
  settle sw s (do
    let p ← memOperand s b imm
    vectorChecks p (· != .extraction)
    checkGuard (s.core s.home) (ptrAddr p) 128
    tilesReady s (ptrAddr p) 128 false
    room s 128
    .ok (bufferStore s (ptrAddr p) (vecBytes (s.v a))))

/-- The sixteen words of a vector in memory. -/
def vectorWords (a : Nat) : List Nat := (List.range 16).map (fun k => a + 8 * k)

/-- VLDF (R152, R154). -/
def execVldf (sw : Bool) (d : BitVec 5) (b : BitVec 6) (imm : BitVec 22) (s : State) :
    Host.Outcome State Fault Refusal :=
  settle sw s (do
    let p ← memOperand s b imm
    vectorChecks p (fun r => r == .localStore || r == .extraction)
    checkFormat (ptrAddr p % 8 == 0) 2
    readsTaken s
    travelHome s
    if (vectorWords (ptrAddr p)).all s.testsFull then .ok () else .error (.waitFull (vectorWords (ptrAddr p)) true)
    let t ← loadVector s p
    .ok (t.gres (.v d) (BitVec.ofNat 1024 (s.readHomeNat (ptrAddr p) 128)) (6 + homeReturn s)))

/-- VSTF (R152, R154, R155) (DEDUCED log 78). -/
def execVstf (sw : Bool) (a : BitVec 5) (b : BitVec 6) (imm : BitVec 22) (s : State) :
    Host.Outcome State Fault Refusal :=
  settle sw s (do
    let p ← memOperand s b imm
    vectorChecks p (· == .localStore)
    checkFormat (ptrAddr p % 8 == 0) 2
    checkGuard (s.core s.home) (ptrAddr p) 128
    if (vectorWords (ptrAddr p)).any s.seesFull then .error (.waitFull (vectorWords (ptrAddr p)) false) else .ok ()
    room s 128
    .ok ((bufferStore s (ptrAddr p) (vecBytes (s.v a))).changeFull (ptrAddr p) 16 true))

/-! ### Gather and scatter -/

/-- The fat-pointer code of a vector format's elements (R48, R133). -/
def elementCode (fmt : Nat) : Nat :=
  match fmt with
  | 7 => 0x0C
  | 8 => 0x09
  | 9 => 0x0A
  | 10 => 0x0B
  | f => f + 1

/-- Bytes of an element. -/
def laneBytes (fmt : Nat) : Nat := fmtBits fmt / 8

/-- The checked addresses of the active lanes below 32, in ascending order (R156). -/
def laneAddresses (s : State) (b : BitVec 6) (c : BitVec 5) (fmt : Nat) (q : BitVec 3) (store : Bool) :
    Except Stop (List (Nat × Nat)) := do
  let p := s.x b
  checkFormat (ptrFmt p == 0 || ptrFmt p == elementCode fmt) 2
  checkFormat (ptrBlog p == 0) 3
  checkFormat (ptrSpace p == 0) 4
  ((List.range (min (elems fmt) 32)).filter (activeLane (s.q q) fmt)).mapM (fun n => do
    let e ← effective p (signed (lane (s.v c) 4 n) 32 * laneBytes fmt)
    match rangeOf (ptrAddr e) (laneBytes fmt) with
    | none => .error (.trap 0x09 5)
    | some r => do
      checkFormat (r != .counters) 5
      checkFormat (!store || r != .extraction) 2
      .ok (n, ptrAddr e))

/-- VGATH (R156): lanes at or above 32 are inactive (DEDUCED log 48); away from home the loads travel (R191). -/
def execVgath (sw : Bool) (d : BitVec 5) (b : BitVec 6) (c : BitVec 5) (fmt : BitVec 4) (q : BitVec 3) (z : Bool)
    (s : State) : Host.Outcome State Fault Refusal :=
  settle sw s (do
    needsF64 s (fmt == 7)
    let f := fmt.toNat
    let n := laneBytes f
    let l ← laneAddresses s b c f q false
    if l.all (fun e => (tilesReady s e.2 n true).isOk) then .ok () else .error .stall
    let t ← l.foldlM (fun t e => noteRead t e.2 n) s
    l.forM (fun e => checkPoison s e.2 n)
    if s.home = s.curCore then
      .ok (vectorResult t d f
        (runLanes (fun i seed => plainLane (s.readHomeNat ((assocGet l i).getD 0) n) seed)
          (fun i => (assocGet l i).isSome) (keptLane (s.v d) f z) (List.range (elems f)) s.me.regs.seed) 8)
    else .ok (t.loadAway (.v d) (l.map (·.2)) n (.gather f (l.map (·.1)) (if z then 0 else s.v d))))

/-- VSCAT (R156): the active lanes in ascending order, so that a repeated address keeps the highest lane. -/
def execVscat (sw : Bool) (a : BitVec 5) (b : BitVec 6) (c : BitVec 5) (fmt : BitVec 4) (q : BitVec 3) (s : State) :
    Host.Outcome State Fault Refusal :=
  settle sw s (do
    needsF64 s (fmt == 7)
    let f := fmt.toNat
    let n := laneBytes f
    let l ← laneAddresses s b c f q true
    l.forM (fun e => checkGuard (s.core s.home) e.2 n)
    if l.all (fun e => (tilesReady s e.2 n false).isOk) then .ok () else .error .stall
    room s (n * l.length)
    .ok (l.foldl (fun t e => bufferStore t e.2 (natToBytes n (lane (s.v a) f e.1))) s))

/-! ### Broadcast, extract and permute -/

/-- VBCAST (R157). -/
def execVbcast (sw : Bool) (d : BitVec 5) (b : BitVec 6) (fmt : BitVec 4) (q : BitVec 3) (z : Bool) (s : State) :
    Host.Outcome State Fault Refusal :=
  settle sw s (do
    needsF64 s (fmt == 7)
    .ok (laneMap s d fmt.toNat q z 2 (fun _ seed => plainLane ((s.x b).field 0 (fmtBits fmt.toNat)) seed)))

/-- VEXTR (R158). -/
def execVextr (sw : Bool) (d : BitVec 6) (b : BitVec 5) (c : BitVec 6) (fmt : BitVec 4) (s : State) :
    Host.Outcome State Fault Refusal :=
  settle sw s (do
    needsF64 s (fmt == 7)
    let k := (s.x c).toNat
    .ok (s.gresX d (if elems fmt.toNat ≤ k then 0 else placeLane fmt.toNat (lane (s.v b) fmt.toNat k)) 2))

/-- The format whose lanes VPERM moves: bytes for E2M1 (R159). -/
def permFormat (fmt : Nat) : Nat := if fmt = 13 then 1 else fmt

/-- VPERM (R159). -/
def execVperm (sw : Bool) (d b c : BitVec 5) (fmt : BitVec 4) (q : BitVec 3) (z : Bool) (s : State) :
    Host.Outcome State Fault Refusal :=
  settle sw s (do
    needsF64 s (fmt == 7)
    let f := permFormat fmt.toNat
    .ok (laneMap s d f q z 4 (fun n seed => plainLane (lane (s.v b) f (lane (s.v c) f n % elems f)) seed)))

/-! ### Conversion and scaling -/

/-- CB16 counts as N16 (R160). -/
def plainFormat (fmt : Nat) : Nat := if fmt = 14 then 3 else fmt

/-- A lane converted from format src to format dst; a SEED step is taken per active lane, from integer to integer too, where
nothing is rounded (R160). -/
def convertLane (src dst : Nat) (env : RoundEnv) (bits : Nat) (seed : Word) : FpOut :=
  let f := plainFormat src
  let g := plainFormat dst
  if 7 ≤ g then
    settleFp (fpOf g) (env.withSeed seed) (if 7 ≤ f then (laneVal f bits).asInput else intInput (laneInt f bits))
  else if 7 ≤ f then
    let r := intRange g
    let o := toInt (env.withSeed seed) r.1 r.2 (laneVal f bits)
    { bits := (o.1 % 2 ^ fmtBits g).toNat, flags := o.2.1, seed := o.2.2 }
  else plainLane (intRes g env.sat (laneInt f bits)) (if env.mode = 5 then seedStep seed else seed)

/-- The source lane of destination lane n, where VCVT converts one (R160). -/
def convertFrom (src dst part n : Nat) : Option Nat :=
  let count := 1024 / max (fmtBits src) (fmtBits dst)
  if fmtBits dst < fmtBits src then
    (if part * count ≤ n && n < part * count + count then some (n - part * count) else none)
  else if fmtBits src < fmtBits dst then some (part * count + n)
  else some n

/-- VCVT (R160): lanes outside the part keep their values even under .Z. -/
def execVcvt (sw : Bool) (d b : BitVec 5) (dst : BitVec 4) (q rnd : BitVec 3) (sat : Bool) (src : BitVec 4) (z : Bool)
    (part : BitVec 4) (s : State) : Host.Outcome State Fault Refusal :=
  settle sw s (do
    needsF64 s (dst == 7 || src == 7)
    let g := dst.toNat
    let source := convertFrom src.toNat g part.toNat
    .ok (vectorResult s d g
      (runLanes (fun n seed => convertLane src.toNat g (s.env rnd sat) (lane (s.v b) src.toNat ((source n).getD 0)) seed)
        (fun n => (source n).isSome && activeLane (s.q q) g n)
        (fun n => keptLane (s.v d) g (z && (source n).isSome) n) (List.range (elems g)) s.me.regs.seed) 4))

/-- A value times a power of two (R161); exponents past every format's range act alike. -/
def scaleRaw (v : Val) (k : Int) : Raw :=
  match v with
  | .nan sig => .nan sig
  | .inf neg => .inf neg
  | .fin neg m e => .real ⟨neg, m, e + max (-4096) (min 4096 k), false⟩

/-- VSCALE (R161). -/
def execVscale (sw : Bool) (d b : BitVec 5) (c : BitVec 6) (fmt : BitVec 4) (q rnd : BitVec 3) (sat z : Bool)
    (s : State) : Host.Outcome State Fault Refusal :=
  oneSource sw d b fmt q z 4 (fun bits seed =>
    settleFp (fpOf fmt.toNat) ((s.env rnd sat).withSeed seed)
      (scaleRaw (laneVal fmt.toNat bits) (signed (s.x c).toNat 32))) s

/-! ### Block quantising -/

/-- The larger of two magnitudes given as m × 2^e. -/
def magMax (a b : Nat × Int) : Nat × Int :=
  let q := min a.2 b.2
  if inUnits a.1 a.2 q < inUnits b.1 b.2 q then b else a

/-- The largest magnitude of a block; none where it holds a NaN or an infinity (R162). -/
def blockMax : List Val → Option (Nat × Int)
  | [] => some (0, 0)
  | .fin _ m e :: r => (blockMax r).map (magMax (m, e))
  | _ :: _ => none

/-- How a block's elements are formed, with its scale bits and the flags of the block (R162). -/
structure BlockPlan where
  scale : Nat
  flags : BitVec 6
  element : Val → Word → FpOut

/-- emax of an element format with SE8 scales (R162). -/
def elementEmax (efmt : Nat) : Int := if efmt = 11 then 8 else if efmt = 12 then 15 else 2

/-- An element of 0 that takes its SEED step (R67, R162). -/
def zeroElement (env : RoundEnv) (seed : Word) : FpOut :=
  { bits := 0, flags := 0, seed := if env.mode = 5 then seedStep seed else seed }

/-- An I8 element of v divided by the scale, rounded once (R70, R162). -/
def i8Element (env : RoundEnv) (sm : Nat) (se : Int) (v : Val) (seed : Word) : FpOut :=
  match v with
  | .fin neg m e =>
    let x := quotientExact neg m e sm se
    let step := if env.mode = 5 then seedStep seed else seed
    let r := signedMag neg (roundTo env.mode x 0 step)
    let c := max (-128) (min 127 r)
    { bits := (c % 256).toNat,
      flags := if c ≠ r then invalidFlag else flagIf (bitsBelow x.m x.e 0 != 0 || x.sticky) inexactFlag,
      seed := step }
  | _ => zeroElement env seed

/-- The F32 scale of an I8S block: amax / 127 in RNE, the smallest subnormal where that is +0 (R162). -/
def i8Scale (m : Nat) (e : Int) : Nat :=
  let r := nearest f32 (.real (quotientExact false m e 127 0))
  if r = 0 then 1 else r

/-- The plan of a block (R162).  A scale sets no flag, the clamp of an SE8 scale included (DEDUCED log 109). -/
def blockPlan (efmt : Nat) (env : RoundEnv) (vs : List Val) : BlockPlan :=
  let small : Val → Int → Word → FpOut := fun v k seed =>
    settleFp (fpOf efmt) { env with sat := true, seed := seed } (match v with
      | .fin neg m e => .real ⟨neg, m, e + k, false⟩
      | v => v.asInput)
  match blockMax vs with
  | none =>
    if efmt = 0 then ⟨f32.nan, invalidFlag, fun _ => zeroElement env⟩
    else ⟨255, invalidFlag, fun v => small v 0⟩
  | some (0, _) => if efmt = 0 then ⟨0x3F800000, 0, fun _ => zeroElement env⟩ else ⟨127, 0, fun v => small v 0⟩
  | some (m, e) =>
    if efmt = 0 then
      let sc := i8Scale m e
      match decodeFp f32 sc with
      | .fin _ sm se => ⟨sc, 0, i8Element env sm se⟩
      | _ => ⟨sc, 0, fun _ => zeroElement env⟩
    else
      let k := max 0 (min 254 (e + log2 m - elementEmax efmt + 127))
      ⟨k.toNat, 0, fun v => small v (127 - k)⟩

/-- The elements of a block in lane order. -/
def quantiseBlock (p : BlockPlan) : List Val → Word → List Nat × BitVec 6 × Word
  | [], seed => ([], 0, seed)
  | v :: r, seed =>
    let o := p.element v seed
    let t := quantiseBlock p r o.seed
    (o.bits :: t.1, o.flags ||| t.2.1, t.2.2)

/-- The blocks in order: elements, scales, flags, SEED. -/
def quantiseBlocks (efmt : Nat) (env : RoundEnv) : List (List Val) → Word → List Nat × List Nat × BitVec 6 × Word
  | [], seed => ([], [], 0, seed)
  | vs :: r, seed =>
    let p := blockPlan efmt env vs
    let o := quantiseBlock p vs seed
    let t := quantiseBlocks efmt env r o.2.2
    (o.1 ++ t.1, p.scale :: t.2.1, p.flags ||| o.2.1 ||| t.2.2.1, t.2.2.2)

/-- VQNT (R162): two group results. -/
def execVqnt (sw : Bool) (d b e : BitVec 5) (efmt : BitVec 4) (rnd : BitVec 3) (blog src : BitVec 4) (s : State) :
    Host.Outcome State Fault Refusal :=
  settle sw s (do
    let f := src.toNat
    let size := 2 ^ blog.toNat
    let vals := (List.range (elems f)).map (fun n => laneVal f (lane (s.v b) f n))
    let blocks := (List.range (elems f / size)).map (fun j => (vals.drop (j * size)).take size)
    let o := quantiseBlocks efmt.toNat (s.env rnd true) blocks s.me.regs.seed
    let t := s.setSeed o.2.2.2
    .ok ((t.gres (.v d) (ofLanes (fmtBits efmt.toNat) o.1) 8 o.2.2.1).gres (.v e)
      (ofLanes (if efmt = 0 then 32 else 8) o.2.1) 8))

/-- The value of an SE8 scale (R62). -/
def se8Val (bits : Nat) : Val := if bits = 255 then .nan false else .fin false 1 ((bits : Int) - 127)

/-- The value of an element of a blocked format: I8, or a small float (R63). -/
def elementVal (efmt bits : Nat) : Val :=
  if efmt = 0 then .fin (signed bits 8 < 0) (signed bits 8).natAbs 0 else laneVal efmt bits

/-- An exact product as the input of a conversion (R63, R504). -/
def productInput (a b : Val) : Raw :=
  match fpMul a b with
  | .inf neg => .infInput neg
  | r => r

/-- VDQNT (R163). -/
def execVdqnt (sw : Bool) (d b e : BitVec 5) (efmt : BitVec 4) (q rnd : BitVec 3) (sat : Bool) (blog dst : BitVec 4)
    (z : Bool) (s : State) : Host.Outcome State Fault Refusal :=
  settle sw s (do
    let g := dst.toNat
    let f := efmt.toNat
    .ok (laneMap s d g q z 4 (fun n seed =>
      let j := n / 2 ^ blog.toNat
      let scale := if f = 0 then laneVal 10 (lane (s.v e) 10 j) else se8Val (lane (s.v e) 1 j)
      settleFp (fpOf g) ((s.env rnd sat).withSeed seed) (productInput (elementVal f (lane (s.v b) f n)) scale))))

/-! ### The codebook -/

/-- Byte n of the core's table; before any load it is zero (R165). -/
def tableByte (t : List Byte) (n : Nat) : Nat := (t.getD n 0).toNat

/-- Row r of the table (R65). -/
def tableRow (t : List Byte) (r : Nat) : Nat :=
  tableByte t (4 * r) + 256 * (tableByte t (4 * r + 1) + 256 * (tableByte t (4 * r + 2) + 256 * tableByte t (4 * r + 3)))

/-- Whether weight j of a CB16 word is negative: weight 7 has the XOR of the other signs (R64). -/
def weightSign (word j : Nat) : Bool :=
  if j = 7 then ((List.range 7).filter (fun k => word / 2 ^ k % 2 == 1)).length % 2 == 1 else word / 2 ^ j % 2 == 1

/-- Weight j of a CB16 word (R64, R65). -/
def weight (t : List Byte) (word j : Nat) : Val :=
  let code := tableRow t (word / 128 % 512) / 16 ^ j % 16
  let v := decodeFp e4m3 (tableByte t (2048 + code))
  if weightSign word j then v.negate else v

/-- A load of the table has started and not ended: CBTSTAT bit 1 (R44, R165). -/
def Core.cbLoading (k : Core) : Bool := k.cbPending.any (·.started)

/-- What a use of the table meets: a load to wait for, no table, or the table (R164, R165). -/
def Core.tableReady (k : Core) : Except Stop (List Byte) :=
  if k.cbLoading then .error .stall
  else if k.cbValid then .ok k.table
  else if k.cbPending != [] then .error .stall
  else .error (.trap 0x09 2)

/-- A codebook weight as an input: a NaN entry counts as signalling, since it sets invalid (R164). -/
def weightInput (v : Val) : Raw := if v.isNan then .nan true else v.asInput

/-- VCBDEC decode (R164), with the home core's table (R165). -/
def execVcbdec (sw : Bool) (d b : BitVec 5) (q rnd : BitVec 3) (sat : Bool) (w : BitVec 6) (ofmt : BitVec 4) (z : Bool)
    (s : State) : Host.Outcome State Fault Refusal :=
  settle sw s (do
    needs s 3
    let table ← (s.core s.home).tableReady
    let g := ofmt.toNat
    .ok (laneMap s d g q z (4 + homeLatency s) (fun n seed =>
      settleFp (fpOf g) ((s.env rnd sat).withSeed seed)
        (weightInput (weight table (lane (s.v b) 3 (w.toNat + n / 8)) (n % 8))))))

/-- VCBDEC table load (R165): held. -/
def execVcbdecLoad (sw : Bool) (b : BitVec 6) (s : State) : Host.Outcome State Fault Refusal :=
  settle sw s (do
    needs s 3
    let _ ← checkLocal (s.x b) 2064 16
    hold s (.codebookLoad (s.x b)))

/-! ### Classification and masks -/

/-- The mask bits of VCLASS: E2M1 has one per pair of lanes (R133, R166). -/
def classBits (fmt : Nat) : Nat := if fmt = 13 then 128 else elems fmt

/-- The lanes that a mask bit governs. -/
def lanesOfBit (fmt n : Nat) : List Nat := if fmt = 13 then [2 * n, 2 * n + 1] else [n]

/-- A lane's class lies in the set: bits 0 NaN, 1 +∞, 2 −∞, 3 zero, 4 subnormal, 5 normal (R166). -/
def inClassSet (fmt bits : Nat) (set : BitVec 6) : Bool := classOf (fpOf fmt) bits % 64 &&& set.toNat != 0

/-- A lane is an infinity or a NaN. -/
def nonFiniteLane (fmt bits : Nat) : Bool := classOf (fpOf fmt) bits % 8 != 0

/-- VCLASS (R166). -/
def execVclass (sw : Bool) (d : BitVec 3) (b : BitVec 5) (fmt : BitVec 4) (q : BitVec 3) (nfs : Bool) (set : BitVec 6)
    (s : State) : Host.Outcome State Fault Refusal :=
  settle sw s (do
    needsF64 s (fmt == 7)
    let f := fmt.toNat
    let v := s.v b
    .ok (maskResult s d
      (runMask (fun n => ((lanesOfBit f n).any (fun l => inClassSet f (lane v f l) set),
                          flagIf (nfs && (lanesOfBit f n).any (fun l => nonFiniteLane f (lane v f l))) nonFiniteFlag))
        (s.q q).bit (s.q d).bit (List.range (classBits f))) 2))

/-- A mask operation into q[d] (R167). -/
def maskOp (sw : Bool) (d : BitVec 3) (m : Mask) (s : State) : Host.Outcome State Fault Refusal :=
  settle sw s (.ok (s.gres (.q d) (m.setWidth 1024) 1))

/-- QAND (R167). -/
def execQand (sw : Bool) (d b c : BitVec 3) (s : State) : Host.Outcome State Fault Refusal :=
  maskOp sw d (s.q b &&& s.q c) s

/-- QOR (R167). -/
def execQor (sw : Bool) (d b c : BitVec 3) (s : State) : Host.Outcome State Fault Refusal :=
  maskOp sw d (s.q b ||| s.q c) s

/-- QXOR (R167). -/
def execQxor (sw : Bool) (d b c : BitVec 3) (s : State) : Host.Outcome State Fault Refusal :=
  maskOp sw d (s.q b ^^^ s.q c) s

/-- QNOT (R167). -/
def execQnot (sw : Bool) (d b : BitVec 3) (s : State) : Host.Outcome State Fault Refusal := maskOp sw d (~~~(s.q b)) s

/-- QMOV (R167). -/
def execQmov (sw : Bool) (d b : BitVec 3) (s : State) : Host.Outcome State Fault Refusal := maskOp sw d (s.q b) s

/-- QCNT (R167). -/
def execQcnt (sw : Bool) (d : BitVec 6) (b : BitVec 3) (s : State) : Host.Outcome State Fault Refusal :=
  settle sw s (.ok (s.gresX d
    (BitVec.ofNat 64 ((List.range 128).filter (s.q b).bit).length) 1))

end Sys2Proof.Machine
end

