-- ==== Sys2Proof/Machine/Matrix.lean ====
section
/-!
DEFINITION. Group 6: the instructions of the joint matrix array (R168 to R187), which act on the core that executes them
(R179).
-/
namespace Sys2Proof.Machine

/-! ### The matrix queue -/

/-- Put an instruction into the core's matrix queue; a ninth stalls (R176). -/
def enqueueMatrix (s : State) (op : MatrixOp) (duration : Nat) : Except Stop State := do
  ready (s.here.matrix.length < 8)
  .ok ((s.setHere { s.here with
    matrix := s.here.matrix ++ [{ id := s.fresh, seat := s.curSeat, ia := s.me.regs.pc, op := op, done := 0,
                                  gang := 0, readyAt := s.cycle + duration }] }).tick)

/-- The step count a field stands for: 0 means 64 (R180). -/
def stepCount (steps : BitVec 6) : Nat := if steps = 0 then 64 else steps.toNat

/-- A CB16 step needs CBK, and finds a valid table or a load to wait for (R88, R165) (DEDUCED log 23). -/
def needsTable (s : State) (fmt : BitVec 4) : Except Stop Unit :=
  if fmt = 14 then do
    needs s 3
    checkFormat (s.here.cbValid || s.here.cbPending != []) 2
  else .ok ()

/-- MMA (R180). -/
def execMma (sw : Bool) (m : BitVec 4) (ga gb : BitVec 3) (fmt : BitVec 4) (steps : BitVec 6) (zf : Bool) (s : State) :
    Host.Outcome State Fault Refusal :=
  settle sw s (do
    needs s 2
    needsTable s fmt
    enqueueMatrix s (.mma m ga gb fmt (stepCount steps) zf 0) 0)

/-- The first column of a core's gang (R182). -/
def gangColumn (c : CoreId) (wc : Nat) : Nat := coreCol c - coreCol c % 2 ^ wc

/-- The segment of a core's gang in scope-rectangle form (R182, R203). -/
def gangRect (c : CoreId) (wc : Nat) : Word :=
  scopeForm (gangColumn c wc) (coreRow c) (gangColumn c wc + 2 ^ wc - 1) (coreRow c)

/-- MMAG (R182): the segment must lie inside the launch rectangle. -/
def execMmag (sw : Bool) (m : BitVec 4) (ga gb : BitVec 3) (fmt : BitVec 4) (steps : BitVec 6) (zf : Bool)
    (wc : BitVec 3) (s : State) : Host.Outcome State Fault Refusal :=
  settle sw s (do
    needs s 2
    if fmt = 14 then needs s 3 else .ok ()
    let r := gangRect s.curCore wc.toNat
    check (wc == 0 || (match s.myRect with | some l => rectInside r l | none => false)) 0x0A r
    needsTable s fmt
    enqueueMatrix s (.mma m ga gb fmt (stepCount steps) zf wc.toNat) 0)

/-- DMMA (R181): the destination pair is 2m and 2m + 1.  A core that lacks both MAT and F64 names MAT in the argument, as an
MMA of fmt 14 does that lacks MAT and CBK: R88 says of no instruction which of two it names (DESIGN CHOICE log 91). -/
def execDmma (sw : Bool) (m ga gb : BitVec 3) (steps : BitVec 6) (zf : Bool) (s : State) :
    Host.Outcome State Fault Refusal :=
  settle sw s (do
    needs s 2
    needs s 4
    enqueueMatrix s (.mma (BitVec.ofNat 4 (2 * m.toNat)) ga gb 7 (stepCount steps) zf 0) 0)

/-! ### Accumulator instructions -/

/-- How long an accumulator instruction takes once nothing holds it back; ACCRD's 4 cc run to its result (R185). -/
def accDuration : MatrixOp → Nat
  | .accz _ => 8
  | .accwr .. => 2
  | .accscl .. => 32
  | _ => 0

/-- Queue an accumulator instruction. -/
def accumulatorOp (sw : Bool) (op : MatrixOp) (s : State) : Host.Outcome State Fault Refusal :=
  settle sw s (do
    needs s 2
    enqueueMatrix s op (accDuration op))

/-- ACCZ (R185). -/
def execAccz (sw : Bool) (m : BitVec 4) (s : State) : Host.Outcome State Fault Refusal :=
  accumulatorOp sw (.accz m) s

/-- The signature bits of a tile's row (R388). -/
def rowBits (s : State) (m : BitVec 4) (row : BitVec 5) : List Nat :=
  signatureBits 1 (chipAddr s.curCore 2 (0x1000 * m.toNat + 128 * row.toNat)) 128

/-- ACCRD (R185): the group result waits for the queue. -/
def execAccrd (sw : Bool) (d : BitVec 5) (m : BitVec 4) (row : BitVec 5) (s : State) :
    Host.Outcome State Fault Refusal :=
  settle sw s (do
    needs s 2
    let t ← enqueueMatrix s (.accrd m row) 0
    let t := t.setMe (t.me.sign false (rowBits s m row))
    .ok (t.setMe { t.me with results := t.me.results ++ [{ reg := some (.v d), val := 0, readyAt := 0,
                                                           waits := s.fresh, live := true, nf := 0 }] }))

/-- ACCWR (R185): v[s] is read at issue. -/
def execAccwr (sw : Bool) (a : BitVec 5) (m : BitVec 4) (row : BitVec 5) (s : State) :
    Host.Outcome State Fault Refusal :=
  settle sw s (do
    needs s 2
    let t ← enqueueMatrix s (.accwr m row (s.v a)) (accDuration (.accwr m row 0))
    .ok (t.setMe (t.me.sign true (rowBits s m row))))

/-- ACCSCL (R185). -/
def execAccscl (sw : Bool) (m : BitVec 4) (b : BitVec 6) (s : State) : Host.Outcome State Fault Refusal :=
  accumulatorOp sw (.accscl m ((s.x b).setWidth 32)) s

/-! ### Sub-arrays and status -/

/-- A sub-array is awake: a step runs on it, or it has not been idle for its idle count (R186). -/
def SubArray.awakeAt (a : SubArray) (cycle : Nat) (running : Bool) : Bool :=
  a.awake && (running || decide (cycle < a.idleSince + a.idle))

/-- Request the wake of a gated sub-array: 96 cc (R186). -/
def SubArray.request (a : SubArray) (cycle : Nat) (running : Bool) : SubArray :=
  if a.awakeAt cycle running || a.wakeAt.isSome then a else { a with awake := false, wakeAt := some (cycle + 96) }

/-- The idle count that a register value sets (R186). -/
def idleCount (w : Word) : Nat := if w = 0 then 2048 else min (2 ^ 32 - 1) w.toNat

/-- Change the sub-arrays that a mask names. -/
def Core.modSubs (k : Core) (mask : BitVec 4) (f : SubArray → SubArray) : Core :=
  { k with subs := k.subs.mapFinIdx (fun n a _ => if mask.bit n then f a else a) }

/-- MGATE (R186): at issue; an abort leaves it in place (R177). -/
def execMgate (sw : Bool) (k : BitVec 4) (b : BitVec 6) (s : State) : Host.Outcome State Fault Refusal :=
  settle sw s (do
    needs s 2
    .ok (s.setHere (s.here.modSubs k (fun a =>
      { a with awake := a.awakeAt s.cycle s.here.mstep.isSome, idle := idleCount (s.x b) }))))

/-- MWAKE (R186). -/
def execMwake (sw : Bool) (k : BitVec 4) (s : State) : Host.Outcome State Fault Refusal :=
  settle sw s (do
    needs s 2
    .ok (s.setHere (s.here.modSubs k (fun a => a.request s.cycle s.here.mstep.isSome))))

/-- The matrix status word (R187). -/
def matrixStatus (g : Regs) : Word :=
  BitVec.ofNat 64 (g.fin.toNat * 2 ^ 32 + g.woke.toNat * 2 + g.wrap.toNat)

/-- MWAIT (R187): stalls until the seat has nothing queued; the status is cleared even for x0. -/
def execMwait (sw : Bool) (d : BitVec 6) (s : State) : Host.Outcome State Fault Refusal :=
  settle sw s (do
    needs s 2
    ready (!s.here.matrix.any (·.seat == s.curSeat))
    let t := s.gresX d (matrixStatus s.me.regs) 2
    .ok (t.setMe { t.me with regs := { t.me.regs with fin := 0, woke := false, wrap := false } }))

/-! ### Rings -/

/-- Kt of a ring format for its blocks, 0 for an unblocked one (R168, R170). -/
def blockKt (code : Nat) : Nat :=
  match code with
  | 0x12 => 64
  | 0x13 => 64
  | 0x14 => 128
  | 0x15 => 128
  | _ => 0

/-- A ring format of R168, or SE8 (R184). -/
def ringCode (code : Nat) : Bool :=
  code == 0x01 || code == 0x09 || code == 0x0A || (0x0C ≤ code && code ≤ 0x15)

/-- The data tile bytes of a ring format; 0 for SE8, which may have any (R168, R171). -/
def ringTileBytes (code : Nat) : Nat := if code = 0x11 then 0 else if code = 0x10 || code = 0x15 then 1024 else 2048

/-- blog follows R49 and R170. -/
def ringBlogOk (code blog : Nat) : Bool :=
  if blockKt code = 0 then blog == 0 else 8 ≤ 2 ^ blog && 2 ^ blog ≤ blockKt code

/-- The slot size of a descriptor's word 1 (R171). -/
def slotSize (w1 : Word) : Nat := 32 * (if w1.field 16 6 = 0 then 64 else w1.field 16 6)

/-- RINGCFG's checks of its descriptor (R184).  A base that is no multiple of 32 gives argument 5 (DESIGN CHOICE log 92). -/
def checkRing (w0 w1 : Word) : Except Stop Unit := do
  checkFormat (ptrSpace w0 == 0) 4
  checkFormat (ringCode (ptrFmt w0)) 2
  checkFormat (ringBlogOk (ptrFmt w0) (ptrBlog w0)) 3
  checkFormat (w1.field 22 42 == 0 && w1.field 9 7 == 0) 2
  checkFormat (w1.field 0 8 != 0 && ptrAddr w0 % 32 == 0 && ptrAddr w0 + w1.field 0 8 * slotSize w1 ≤ 0x80000) 5
  checkFormat (ringTileBytes (ptrFmt w0) == 0 || slotSize w1 == ringTileBytes (ptrFmt w0)) 2

/-- RINGCFG (R184): the descriptor is read at issue through the home store. -/
def execRingcfg (sw : Bool) (g : BitVec 3) (b : BitVec 6) (s : State) : Host.Outcome State Fault Refusal :=
  settle sw s (do
    needs s 2
    let a ← checkLocal (s.x b) 16 16
    checkPoison s a 16
    let w0 := s.readHomeWord a
    let w1 := s.readHomeWord (a + 8)
    checkRing w0 w1
    hold s (.ringConfig g w0 w1))

/-- RPUB (R184): held. -/
def execRpub (sw : Bool) (g : BitVec 3) (b : BitVec 6) (s : State) : Host.Outcome State Fault Refusal :=
  settle sw s (do
    needs s 2
    hold s (.ringPublish g (s.x b)))

/-- A flag at a bit. -/
def flagAt (c : Bool) (n : Nat) : Nat := if c then 2 ^ n else 0

/-- The sequence number of the tile at the head: for a scale tile that an engine brought that of its data tile, else its place
in the order of publication (R85, R173) (DEDUCED log 98). -/
def Ring.headSeq (g : Ring) : BitVec 16 := if g.ready = 0 then g.hseq else (assocGet g.tags g.head).getD g.hseq

/-- The state word of a ring (R172). -/
def Ring.word (g : Ring) : Word :=
  BitVec.ofNat 64 (g.sring.toNat * 2 ^ 51 + flagAt g.lnk 50 + flagAt g.eng 49 + flagAt g.cfg 48 + g.held % 256 * 2 ^ 40 +
    g.ready % 256 * 2 ^ 32 + g.headSeq.toNat * 2 ^ 16 + g.tail % 256 * 2 ^ 8 + g.head % 256)

/-- RSTAT (R184). -/
def execRstat (sw : Bool) (d : BitVec 6) (g : BitVec 3) (s : State) : Host.Outcome State Fault Refusal :=
  settle sw s (do
    needs s 2
    .ok (s.gresX d (s.here.rings[g.toFin]).word 2))

/-- RRESET (R184): held. -/
def execRreset (sw : Bool) (g : BitVec 3) (s : State) : Host.Outcome State Fault Refusal :=
  settle sw s (do
    needs s 2
    hold s (.ringReset g))

/-- SCLCFG (R184): held. -/
def execSclcfg (sw : Bool) (g : BitVec 3) (link : Bool) (h : BitVec 3) (s : State) :
    Host.Outcome State Fault Refusal :=
  settle sw s (do
    needs s 2
    hold s (.scaleLink g h link))

end Sys2Proof.Machine
end

