-- ==== Sys2Proof/Machine/MatrixUnit.lean ====
section
/-!
DEFINITION. The events of the matrix unit: steps, gangs, accumulator instructions, sub-arrays and the codebook table
(R80 to R86, R165, R174 to R187).
-/
namespace Sys2Proof.Machine

/-! ### Values of a tile (R63, R64, R168 to R170) -/

/-- The element format of a ring code (R48, R133). -/
def ringElement (code : Nat) : Nat :=
  match code with
  | 0x09 => 8
  | 0x0A => 9
  | 0x0C => 7
  | 0x0D => 11
  | 0x12 => 11
  | 0x0E => 12
  | 0x13 => 12
  | 0x0F => 13
  | 0x14 => 13
  | _ => 0

/-- Kt of a matrix format (R168). -/
def stepKt (fmt : Nat) : Nat :=
  match fmt with
  | 7 => 8
  | 8 => 32
  | 9 => 32
  | 13 => 128
  | 14 => 128
  | _ => 64

/-- The ring formats a step accepts for its A tile and its B tile (R168). -/
def acceptsA (fmt code : Nat) : Bool :=
  match fmt with
  | 0 => code == 0x01
  | 8 => code == 0x09
  | 9 => code == 0x0A
  | 11 => code == 0x0D || code == 0x12
  | 12 => code == 0x0E || code == 0x13
  | 7 => code == 0x0C
  | _ => code == 0x0F || code == 0x14

/-- The B side of R168. -/
def acceptsB (fmt code : Nat) : Bool :=
  match fmt with
  | 11 => code == 0x0D || code == 0x0E || code == 0x12 || code == 0x13
  | 12 => code == 0x0D || code == 0x0E || code == 0x12 || code == 0x13
  | 14 => code == 0x10 || code == 0x15
  | _ => acceptsA fmt code

/-- A product as a value: NaN, an infinity or an exact number. -/
def Val.times (a b : Val) : Val :=
  match fpMul a b with
  | .real x => .fin x.neg x.m x.e
  | .inf n => .inf n
  | _ => .nan false

/-- Element k of a row of a tile, scaled by its block (R63, R64, R169, R170). -/
def rowElement (table : List Byte) (code blog kt : Nat) (row scales : List Byte) (k : Nat) : Val :=
  let v :=
    if code = 0x10 || code = 0x15 then weight table (bytesToNat ((row.drop (k / 8 * 2)).take 2)) (k % 8)
    else
      let w := fmtBits (ringElement code)
      elementVal (ringElement code) (bytesToNat row / 2 ^ (w * k) % 2 ^ w)
  if blockKt code = 0 then v else v.times (se8Val (tableByte scales (k / 2 ^ blog % (kt / 2 ^ blog))))

/-- Row r of a tile as Kt values. -/
def tileRow (table : List Byte) (code blog kt : Nat) (tile scales : List Byte) (r : Nat) : List Val :=
  let n := tile.length / 32
  let sn := if blockKt code = 0 then 0 else kt / 2 ^ blog
  let row := (tile.drop (r * n)).take n
  let sc := (scales.drop (r * sn)).take sn
  (List.range kt).map (rowElement table code blog kt row sc)

/-! ### Cells (R80 to R83) -/

/-- A term is a NaN. -/
def anyNan (l : List Val) : Bool := l.any (·.isNan)

/-- An infinity of the given sign is among the terms. -/
def anyInf (l : List Val) (neg : Bool) : Bool := l.any (fun v => v == .inf neg)

/-- The largest weight of a leading bit among the nonzero finite terms (R80). -/
def topWeight : List Val → Option Int
  | [] => none
  | .fin _ m e :: r =>
    if m = 0 then topWeight r
    else
      let w := e + (Nat.log2 m : Int)
      match topWeight r with
      | none => some w
      | some x => some (max w x)
  | _ :: r => topWeight r

/-- The terms truncated to the window that ends at 2^q, summed, with the sticky bit (R80). -/
def windowSum (q : Int) : List Val → Int × Bool
  | [] => (0, false)
  | .fin neg m e :: r =>
    let t := windowSum q r
    (signedMag neg (unitsDown m e q) + t.1, bitsBelow m e q != 0 || t.2)
  | _ :: r => windowSum q r

/-- The F32 cell that the terms make (R80, R81). -/
def floatCell (terms : List Val) : Nat :=
  if anyNan terms || (anyInf terms true && anyInf terms false) then f32.nan
  else if anyInf terms false then f32.inf
  else if anyInf terms true then f32.signBit true + f32.inf
  else
    match topWeight terms with
    | none => if terms.all (·.neg) then f32.signBit true else 0
    | some e =>
      let s := windowSum (e - 63) terms
      if s.1 = 0 then 0 else nearest f32 (.real ⟨s.1 < 0, s.1.natAbs, e - 63, s.2⟩)

/-- An I8 value as an integer. -/
def Val.int : Val → Int
  | .fin neg m _ => signedMag neg m
  | _ => 0

/-- The I32 cell and whether the exact sum lay outside the range (R82). -/
def intCell (acc : Nat) (a b : List Val) : Nat × Bool :=
  let sum := ((a.zip b).map (fun p => p.1.int * p.2.int)).foldl (· + ·) (signed acc 32)
  ((sum % 2 ^ 32).toNat, decide (sum < -(2 ^ 31)) || decide (2 ^ 31 ≤ sum))

/-- The F64 cell: fused, in ascending k (R83). -/
def doubleCell (acc : Nat) (a b : List Val) : Nat :=
  (a.zip b).foldl (fun c p => nearest f64 (fpFma 0 p.1 p.2 (decodeFp f64 c))) acc

/-- A cell after a step, with the wrap mark. -/
def stepCell (fmt acc : Nat) (a b : List Val) : Nat × Bool :=
  if fmt = 0 then intCell acc a b
  else if fmt = 7 then (doubleCell acc a b, false)
  else (floatCell (decodeFp f32 acc :: (a.zip b).map (fun p => p.1.times p.2)), false)

/-- Bytes of a cell (R43). -/
def cellBytes (fmt : Nat) : Nat := if fmt = 7 then 8 else 4

/-- The tile after a step, in cell order, with the wrap mark. -/
def stepTile (table : List Byte) (fmt : Nat) (t : MatrixStep) (old : List Byte) : List Byte × Bool :=
  let kt := stepKt fmt
  let n := cellBytes fmt
  let rows := (List.range 32).map (tileRow table t.fmtA t.blogA kt t.a t.sa)
  let cols := (List.range 32).map (tileRow table t.fmtB t.blogB kt t.b t.sb)
  let out := (List.range 1024).map (fun c =>
    stepCell fmt (bytesToNat ((old.drop (c * n)).take n)) (rows.getD (c / 32) []) (cols.getD (c % 32) []))
  (out.flatMap (fun c => natToBytes n c.1), out.any (·.2))

/-! ### Readiness (R176, R178, R182) -/

/-- What a queued step meets. -/
inductive StepReady where
  | wait
  | sleep
  | trap (cause : Nat) (arg : Word)
  | go
  deriving DecidableEq, Repr

/-- The ring under a number. -/
def Core.ring (k : Core) (g : BitVec 3) : Ring := k.rings[g.toFin]

/-- A ring whose format is blocked. -/
def Ring.blocked (r : Ring) : Bool := blockKt (ptrFmt r.base) != 0

/-- The rings that popping the given rings pops, scale rings included. -/
def poppedRings (k : Core) (gs : List (BitVec 3)) : List (BitVec 3) :=
  gs.flatMap (fun g => if (k.ring g).blocked && (k.ring g).lnk then [g, (k.ring g).sring] else [g])

/-- Every tile that the pops take is published. -/
def tilesPublished (k : Core) (gs : List (BitVec 3)) : Bool :=
  let l := poppedRings k gs
  l.all (fun g => l.count g ≤ (k.ring g).ready)

/-- The rings that a member of a step pops: only the lead pops an A ring (R182). -/
def memberRings (op : MatrixOp) (lead : Bool) : List (BitVec 3) :=
  match op with
  | .mma _ ga gb _ _ _ _ => if lead then [ga, gb] else [gb]
  | _ => []

/-- The format of a queued step. -/
def MatrixOp.fmt : MatrixOp → Nat
  | .mma _ _ _ fmt _ _ _ => fmt.toNat
  | _ => 0

/-- The width exponent of a queued step. -/
def MatrixOp.width : MatrixOp → Nat
  | .mma _ _ _ _ _ _ wc => wc
  | _ => 0

/-- No earlier instruction of the entry's seat is queued (R176). -/
def Core.firstOfSeat (k : Core) (e : MatrixEntry) : Bool :=
  match k.matrix.find? (·.seat == e.seat) with
  | some f => f.id == e.id
  | none => false

/-- The sub-arrays are all awake (R176). -/
def Core.allAwake (k : Core) (cycle : Nat) : Bool := k.subs.toList.all (fun a => a.awakeAt cycle k.mstep.isSome)

/-- What a step of an entry meets on its core, apart from its gang (R165, R176, R178, R180) (DEDUCED log 79). -/
def stepReady (k : Core) (cycle : Nat) (e : MatrixEntry) (lead : Bool) : StepReady :=
  let gs := memberRings e.op lead
  if !k.firstOfSeat e then .wait
  else if gs.any (fun g => !(k.ring g).cfg) then .trap 0x09 2
  else if !tilesPublished k gs then .wait
  else if e.op.tiles.any (k.heldElsewhere e.seat) then .wait
  else if e.op.fmt = 14 && k.cbPending.any (fun l => l.started || l.issued < e.id) then .wait
  else if e.op.fmt = 14 && !k.cbValid then .trap 0x09 2
  else if !k.allAwake cycle then .sleep
  else .go

/-- A blocked ring's blog follows R170. -/
def Ring.blogOk (r : Ring) (kt : Nat) : Bool :=
  !r.blocked || (8 ≤ 2 ^ ptrBlog r.base && 2 ^ ptrBlog r.base ≤ kt)

/-- The faults of a step's rings, each with what its side accepts: the formats of all first, then the blocks, then the links
(R86, R170, R180) (DEDUCED log 24). -/
def ringFaults (k : Core) (kt : Nat) (gs : List (BitVec 3 × (Nat → Bool))) : Option (Nat × Word) :=
  if gs.any (fun g => !g.2 (ptrFmt (k.ring g.1).base)) then some (0x09, 2)
  else if gs.any (fun g => !(k.ring g.1).blogOk kt) then some (0x09, 3)
  else if gs.any (fun g => (k.ring g.1).blocked && !(k.ring g.1).lnk) then some (0x10, 0xFFFFFFFF)
  else none

/-! ### Pops and tile writes (R174, R177) -/

/-- Count a pop of a chunk. -/
def countPop (l : List (BitVec 3 × Nat)) (g : BitVec 3) : List (BitVec 3 × Nat) :=
  assocSet l g ((assocGet l g).getD 0 + 1)

/-- Pop the tile at a ring's head: its bytes and sequence number; the slot stays published (R174). -/
def Core.popRing (k : Core) (seat : Nat) (g : BitVec 3) : Core × List Byte × BitVec 16 :=
  let r := k.ring g
  let t := k.seat seat
  let bytes := k.store.bytes (ptrAddr r.base + r.head * r.slotBytes) r.slotBytes
  let r' : Ring := { r with head := (r.head + 1) % r.slots, hseq := r.hseq + 1, ready := r.ready - 1, held := r.held + 1 }
  let t' : Seat := { t with undo := { t.undo with pops := countPop t.undo.pops g } }
  (({ k with rings := k.rings.set g.toFin r', popOrder := k.popOrder ++ [(g, seat)] }).setSeat seat t', bytes, r.headSeq)

/-- A word of the next slot of a ring that is marked poisoned (R463). -/
def slotPoison (k : Core) (g : BitVec 3) : Option Nat :=
  let r := k.ring g
  k.poisonIn (ptrAddr r.base + r.head * r.slotBytes) r.slotBytes

/-- `pop` of R40: the next tile, with its scale tile when the ring is blocked; a mismatch of sequence numbers is a fault
(R86), and so is a poisoned word (R463). -/
def popTile (k : Core) (seat : Nat) (g : BitVec 3) : Core × List Byte × List Byte × Option (Nat × Word) :=
  let bad := slotPoison k g
  let p := k.popRing seat g
  let poison (o : Option Nat) : Option (Nat × Word) := o.map (fun a => (0x29, BitVec.ofNat 64 a))
  if (k.ring g).blocked then
    let scale := (k.ring g).sring
    let bad2 := slotPoison p.1 scale
    let q := p.1.popRing seat scale
    (q.1, p.2.1, q.2.1,
      if p.2.2 ≠ q.2.2 then some (0x10, BitVec.ofNat 64 (p.2.2.toNat * 2 ^ 16 + q.2.2.toNat))
      else poison (bad.orElse (fun _ => bad2)))
  else (p.1, p.2.1, [], poison bad)

/-- The chunk of a seat holds a tile from its first write on, and keeps what it held before (R177, R178). -/
def Core.holdTile (k : Core) (seat tile : Nat) : Core :=
  let t := k.seat seat
  let t' : Seat :=
    if t.undo.tiles.any (·.1 == tile) then t
    else { t with undo := { t.undo with tiles := t.undo.tiles ++ [(tile, k.store.bytes (0x90000 + 0x1000 * tile) 4096)] } }
  ({ k with tileHolds := if k.tileHolds.contains (tile, seat) then k.tileHolds else k.tileHolds ++ [(tile, seat)] }).setSeat
    seat t'

/-- Hold every tile of an instruction (DEDUCED log 49). -/
def Core.holdTiles (k : Core) (seat : Nat) (tiles : List Nat) : Core := tiles.foldl (fun k t => k.holdTile seat t) k

/-- Write bytes into the accumulator store. -/
def Core.writeTile (k : Core) (off : Nat) (bs : List Byte) : Core :=
  { k with store := k.store.write (0x90000 + off) bs }.clearPoison (0x90000 + off) bs.length

/-- The step that starts, with the tiles it popped. -/
def startStep (k : Core) (e : MatrixEntry) (fmtA blogA : Nat) (a sa : List Byte) (cycle : Nat) : Core :=
  match e.op with
  | .mma _ _ gb fmt _ zf _ =>
    let r := k.ring gb
    let p := popTile k e.seat gb
    let j := p.1.holdTiles e.seat e.op.tiles
    let j := if zf && e.done == 0 then e.op.tiles.foldl (fun j t => j.writeTile (0x1000 * t) (List.replicate 4096 0)) j
             else j
    { j with
      mstep := some { id := e.id, endAt := cycle + (if fmt = 7 then 128 else 32), a := a, b := p.2.1, sa := sa,
                      sb := p.2.2.1, blogA := blogA, blogB := ptrBlog r.base, fmtA := fmtA, fmtB := ptrFmt r.base }
      subs := j.subs.map (fun x => { x with idleSince := cycle }) }
  | _ => k

/-- A fault of a queued instruction's chunk (R177, R180). -/
def State.matrixFault (s : State) (c : CoreId) (e : MatrixEntry) (f : Nat × Word) : State :=
  s.fault c e.seat f.1 f.2 e.ia

/-- Ask for the wake of a core's gated sub-arrays; the step of the seat waits for it (R186, R187). -/
def State.wakeFor (s : State) (c : CoreId) (seat : Nat) : State :=
  let k := s.core c
  let t := k.seat seat
  s.setCore c (({ k with subs := k.subs.map (fun (a : SubArray) => a.request s.cycle k.mstep.isSome) } : Core).setSeat seat
    { t with regs := { t.regs with woke := true } })

/-- The members of a step: a core, its entry, and whether it is the lead. -/
abbrev Members := List (CoreId × MatrixEntry × Bool)

/-- The entry of a core that belongs to a formed gang. -/
def Core.gangEntry (k : Core) : Option MatrixEntry := k.matrix.find? (·.gang != 0)

/-- The cores of the gang of core c (R182). -/
def gangCores (c : CoreId) (wc : Nat) : List CoreId := run (coreRow c * 64 + gangColumn c wc) (2 ^ wc)

/-- The members that a step of an entry has: itself, or its whole gang while every member is still in it (R183). -/
def stepMembers (s : State) (c : CoreId) (e : MatrixEntry) : Option Members :=
  if e.op.width = 0 then some [(c, e, true)]
  else if e.gang = 0 then none
  else (gangCores c e.op.width).mapM (fun d =>
    ((s.core d).gangEntry.filter (·.gang == e.gang)).map (fun f => (d, f, d == c - c % 2 ^ e.op.width)))

/-- A member's unit is at a step boundary, and this entry is the oldest ready one there (R176, R182). -/
def unitFree (s : State) (c : CoreId) (e : MatrixEntry) : Bool :=
  let k := s.core c
  k.mstep.isNone && e.readyAt ≤ s.cycle &&
    (match k.gangEntry with
     | some g => g.id == e.id
     | none => (k.matrix.takeWhile (·.id != e.id)).all (fun f =>
         !f.op.isStep || f.op.width != 0 || stepReady k s.cycle f true == .wait))

/-- The first fault of the members before a pop: formats, blocks and links (R180). -/
def memberFault (s : State) : Members → Option (CoreId × MatrixEntry × (Nat × Word))
  | [] => none
  | (c, e, lead) :: r =>
    let k := s.core c
    let kt := stepKt e.op.fmt
    match e.op with
    | .mma _ ga gb _ _ _ _ =>
      match ringFaults k kt ((if lead then [(ga, acceptsA e.op.fmt)] else []) ++ [(gb, acceptsB e.op.fmt)]) with
      | some f => some (c, e, f)
      | none => memberFault s r
    | _ => memberFault s r

/-- The fault of a member's B pop (R86, R463). -/
def popFault (s : State) : Members → Option (CoreId × MatrixEntry × (Nat × Word))
  | [] => none
  | (c, e, _) :: r =>
    match e.op with
    | .mma _ _ gb _ _ _ _ =>
      match (popTile (s.core c) e.seat gb).2.2.2 with
      | some f => some (c, e, f)
      | none => popFault s r
    | _ => popFault s r

/-- The step of the members begins once every one of them is ready: the lead pops A and broadcasts it (R180, R182).  Where several
members' rings are faulty, the first in column order faults (DESIGN CHOICE log 110). -/
def beginStep (s : State) (ms : Members) : State :=
  match memberFault s ms with
  | some (c, e, f) => s.matrixFault c e f
  | none =>
    match ms.find? (·.2.2) with
    | some (c, e, _) =>
      match e.op with
      | .mma _ ga _ _ _ _ _ =>
        let r := (s.core c).ring ga
        let p := popTile (s.core c) e.seat ga
        let s := s.setCore c p.1
        match p.2.2.2 with
        | some f => s.matrixFault c e f
        | none =>
          match popFault s ms with
          | some (d, g, f) => s.matrixFault d g f
          | none => ms.foldl (fun s m => s.setCore m.1
              (startStep (s.core m.1) m.2.1 (ptrFmt r.base) (ptrBlog r.base) p.2.1 p.2.2.1 s.cycle)) s
      | _ => s
    | none => s

/-- MATRIX_STEP_START (R174, R176, R180, R182, R186). -/
def execMatrixStepStart (c m : Nat) (s : State) : Host.Outcome State Fault Refusal :=
  event s (do
    let e ← (s.core c).matrix.find? (fun e => e.id == m && e.op.isStep)
    if e.op.width ≠ 0 && e.gang == 0 then
      if stepReady (s.core c) s.cycle e (coreCol c % 2 ^ e.op.width == 0) = .sleep then some (s.wakeFor c e.seat) else none
    else
      let ms ← stepMembers s c e
      if !ms.all (fun x => unitFree s x.1 x.2.1) then none
      else
        let states := ms.map (fun x => (x, stepReady (s.core x.1) s.cycle x.2.1 x.2.2))
        match states.find? (fun x => match x.2 with | .trap .. => true | _ => false) with
        | some ((d, f, _), .trap cause arg) => some (s.matrixFault d f (cause, arg))
        | _ =>
          if states.any (·.2 == .wait) then none
          else if states.any (·.2 == .sleep) then
            some (ms.foldl (fun s x => s.wakeFor x.1 x.2.1.seat) s)
          else some (beginStep s ms))

/-- An instruction leaves the queue: the seat's count of finished instructions goes up, later accumulator instructions run
from now, and the stalled seats look again (R176, R185, R187). -/
def State.finishMatrix (s : State) (c : CoreId) (e : MatrixEntry) : State :=
  let k := s.core c
  let t := k.seat e.seat
  let later (f : MatrixEntry) : MatrixEntry :=
    if !f.op.isStep && (f.seat == e.seat || f.op.tiles.any e.op.tiles.contains) then
      { f with readyAt := max f.readyAt (s.cycle + accDuration f.op) } else f
  (s.setCore c (({ k with matrix := (k.matrix.filter (fun f => f.id != e.id)).map later } : Core).setSeat e.seat
    { t with regs := { t.regs with fin := t.regs.fin + 1 } })).wakeCore c

/-- Mark the wrap of an I8 step in the seat's status (R82, R187). -/
def Core.markWrap (k : Core) (seat : Nat) (wrapped : Bool) : Core :=
  let t := k.seat seat
  k.setSeat seat { t with regs := { t.regs with wrap := t.regs.wrap || wrapped } }

/-- MATRIX_STEP_END (R80 to R84, R180): the tile takes the step's cells.  A poisoned word of the tile aborts the chunk (R463,
DEDUCED log 115). -/
def execMatrixStepEnd (c : Nat) (s : State) : Host.Outcome State Fault Refusal :=
  event s (do
    let k := s.core c
    let t ← k.mstep
    if s.cycle < t.endAt then none
    else
      let e ← k.matrix.find? (·.id == t.id)
      let tile := leastOr 0 (e.op.tiles.map (0x1000 * ·))
      match k.poisonIn (0x90000 + tile) (1024 * cellBytes e.op.fmt) with
      | some p => some (s.matrixFault c e (0x29, BitVec.ofNat 64 p))
      | none =>
      let old := k.store.bytes (0x90000 + tile) (1024 * cellBytes e.op.fmt)
      let out := stepTile k.table e.op.fmt t old
      let j : Core := { k with mstep := none, subs := k.subs.map (fun (a : SubArray) => { a with idleSince := s.cycle }) }
      let k := j.writeTile tile out.1
      let k := k.markWrap e.seat out.2
      let steps := match e.op with | .mma _ _ _ _ n _ _ => n | _ => 1
      let e' : MatrixEntry := { e with done := e.done + 1 }
      let s := s.setCore c { k with matrix := mapFirst (·.id == e.id) (fun _ => e') k.matrix }
      some (if steps ≤ e'.done then s.finishMatrix c e' else s))

/-- ACCSCL of one F32 cell in RNE (R185). -/
def scaleCells (scale : BitVec 32) : Nat → List Byte → List Byte
  | 0, _ => []
  | n + 1, bs =>
    natToBytes 4 (nearest f32 (fpMul (decodeFp f32 (bytesToNat (bs.take 4))) (decodeFp f32 scale.toNat))) ++
      scaleCells scale n (bs.drop 4)

/-- The write that an accumulator instruction makes, at an offset of the accumulator store (R185). -/
def accWrite (k : Core) (op : MatrixOp) : Option (Nat × List Byte) :=
  match op with
  | .accz m => some (0x1000 * m.toNat, List.replicate 4096 0)
  | .accwr m row val => some (0x1000 * m.toNat + 128 * row.toNat, vecBytes val)
  | .accscl m scale =>
    some (0x1000 * m.toNat, scaleCells scale 1024 (k.store.bytes (0x90000 + 0x1000 * m.toNat) 4096))
  | _ => none

/-- ACCRD's row into the seat's pending group result (R185). -/
def Seat.fillResult (t : Seat) (id : Nat) (val : Vec) (readyAt : Nat) : Seat :=
  let fill (r : GroupResult) : GroupResult := { r with val := val, readyAt := readyAt, waits := 0 }
  { t with results := mapFirst (fun r => r.waits == id) fill t.results }

/-- An accumulator instruction may act: its seat's turn, its tile not held elsewhere, and for ACCRD no earlier queued
instruction naming the tile (R176, R178, R185). -/
def accReady (k : Core) (cycle : Nat) (e : MatrixEntry) : Bool :=
  k.firstOfSeat e && e.readyAt ≤ cycle && !e.op.tiles.any (k.heldElsewhere e.seat) &&
    (match e.op with
     | .accrd .. => (k.matrix.takeWhile (·.id != e.id)).all (fun f => !f.op.tiles.any e.op.tiles.contains)
     | _ => true)

/-- ACCUMULATOR_INSTRUCTION_DONE (R176, R185); one that reads a poisoned word aborts its chunk (R463, DEDUCED log 115). -/
def execAccumulatorInstructionDone (c m : Nat) (s : State) : Host.Outcome State Fault Refusal :=
  event s (do
    let k := s.core c
    let e ← k.matrix.find? (fun e => e.id == m && !e.op.isStep)
    if !accReady k s.cycle e then none
    else
      match e.op with
      | .accrd tile row =>
        match k.poisonIn (0x90000 + 0x1000 * tile.toNat + 128 * row.toNat) 128 with
        | some p => some (s.matrixFault c e (0x29, BitVec.ofNat 64 p))
        | none =>
        let val := BitVec.ofNat 1024 (bytesToNat (k.store.bytes (0x90000 + 0x1000 * tile.toNat + 128 * row.toNat) 128))
        let s := s.setCore c (k.setSeat e.seat ((k.seat e.seat).fillResult e.id val (s.cycle + 4)))
        some (s.finishMatrix c e)
      | op =>
        match (match op with | .accscl m _ => k.poisonIn (0x90000 + 0x1000 * m.toNat) 4096 | _ => none) with
        | some p => some (s.matrixFault c e (0x29, BitVec.ofNat 64 p))
        | none => do
        let w ← accWrite k op
        some ((s.setCore c ((k.holdTiles e.seat op.tiles).writeTile w.1 w.2)).finishMatrix c e))

/-! ### Gangs -/

/-- The MMAG at the front of a core's queue, ready apart from the gang (R182) (DEDUCED log 39). -/
def gangFront (s : State) (c : CoreId) : Option MatrixEntry := do
  let k := s.core c
  let e ← k.matrix.head?
  if e.op.width = 0 || e.gang != 0 then none
  else
    match stepReady k s.cycle e (coreCol c % 2 ^ e.op.width == 0) with
    | .wait => none
    | .sleep => none
    | _ => some e

/-- The fields that the members of a gang compare (R183). -/
def gangKey (op : MatrixOp) : Nat × Nat × Nat :=
  match op with
  | .mma _ _ _ fmt steps _ wc => (fmt.toNat, steps, wc)
  | _ => (0, 0, 0)

/-- GANG_FORM (R182, R183): equal fields form the gang; otherwise every core of a named segment whose front is a ready MMAG
takes gang-mismatch.  Where the members' widths differ, so do their leads: each core's argument names the lead of its own
MMAG's segment (DESIGN CHOICE log 93). -/
def execGangForm (c : Nat) (s : State) : Host.Outcome State Fault Refusal :=
  event s (do
    let e ← gangFront s c
    let ms ← (gangCores c e.op.width).mapM (fun d => (gangFront s d).map (fun f => (d, f)))
    if ms.all (fun m => gangKey m.2.op == gangKey e.op) then
      some (ms.foldl (fun t m =>
        let k := t.core m.1
        let join (f : MatrixEntry) : MatrixEntry := { f with gang := s.fresh, readyAt := s.cycle + 8 }
        t.setCore m.1 { k with matrix := mapFirst (fun f => f.id == m.2.id) join k.matrix }) s).tick
    else
      let cores := (ms.flatMap (fun m => gangCores m.1 m.2.op.width)).eraseDups
      let hit := cores.filterMap (fun d => (gangFront s d).map (fun f => (d, f)))
      some (hit.foldl (fun s m => s.matrixFault m.1 m.2
        (0x12, BitVec.ofNat 64 (coreRow m.1 * 64 + gangColumn m.1 m.2.op.width))) s))

/-! ### Sub-arrays and the codebook table -/

/-- Sub-array n of a core, where there is one. -/
def Core.sub? (k : Core) (n : Nat) : Option SubArray := k.subs[n]?

/-- Replace a sub-array. -/
def Core.setSub (k : Core) (n : Nat) (a : SubArray) : Core := { k with subs := k.subs.setIfInBounds n a }

/-- SUBARRAY_GATE (R186): an awake sub-array that has run no step for its idle count. -/
def execSubarrayGate (c n : Nat) (s : State) : Host.Outcome State Fault Refusal :=
  event s (do
    let k := s.core c
    let a ← k.sub? n
    if a.awake && !a.awakeAt s.cycle k.mstep.isSome then some (s.setCore c (k.setSub n { a with awake := false }))
    else none)

/-- SUBARRAY_WAKE (R186): 96 cc after the request. -/
def execSubarrayWake (c n : Nat) (s : State) : Host.Outcome State Fault Refusal :=
  event s (do
    let k := s.core c
    let a ← k.sub? n
    let w ← a.wakeAt
    if w ≤ s.cycle then
      some (s.setCore c (k.setSub n { a with awake := true, wakeAt := none, idleSince := s.cycle }))
    else none)

/-- CODEBOOK_LOAD_START (R165): once every earlier fmt 14 instruction has finished, the table is invalid and 129 cc begin. -/
def execCodebookLoadStart (c : Nat) (s : State) : Host.Outcome State Fault Refusal :=
  event s (do
    let k := s.core c
    match k.cbPending with
    | [] => none
    | l :: r =>
      if l.started || k.matrix.any (fun e => e.op.isStep && e.op.fmt == 14 && e.id < l.issued) then none
      else some (s.setCore c { k with cbValid := false
                                      cbPending := { l with started := true, dueAt := s.cycle + 129 } :: r }))

/-- CODEBOOK_LOAD_DONE (R165). -/
def execCodebookLoadDone (c : Nat) (s : State) : Host.Outcome State Fault Refusal :=
  event s (do
    let k := s.core c
    match k.cbPending with
    | [] => none
    | l :: r =>
      if l.started && l.dueAt ≤ s.cycle then
        some ((s.setCore c { k with table := l.data, cbValid := true, cbLoads := (k.cbLoads + 1) % 65536,
                                    cbPending := r }).wakeHomed c)
      else none)

end Sys2Proof.Machine
end

