-- ==== Sys2Proof/Machine/Counter.lean ====
section
/-!
DEFINITION. Counter, trigger, mailbox and owner-atomic instructions (R248 to R257), and the windows that admit an access from
another core (R214 to R216).
-/
namespace Sys2Proof.Machine

/-! ### Windows -/

/-- One window admits n bytes at an offset of a region for a source core under a right, which is the bit of word 1 that
grants it (R214, R216). -/
def Window.admits (w : Window) (region off n right : Nat) (src : CoreId) : Bool :=
  let len := w.w1.field 0 20
  let base := w.w0.field 0 37
  len != 0 && w.w0.field 37 4 == region && base ≤ off && off + n ≤ base + len && w.w1.bit right &&
    rectHas (BitVec.ofNat 64 (w.w1.field 32 27)) src

/-- The right bits of a window's word 1 (R214). -/
def rightRd : Nat := 28

def rightWr : Nat := 29

def rightAmo : Nat := 30

def rightDlv : Nat := 31

/-- An access from another core is admitted by the core's windows (R216). -/
def Core.admits (k : Core) (region off n right : Nat) (src : CoreId) : Bool :=
  k.windows.toList.any (fun w => w.admits region off n right src)

/-- The virtual function of a context. -/
def State.contextVf (s : State) (ctx : Nat) : Option Nat := (s.context ctx).map (·.vf)

/-- The virtual function that a core works for. -/
def State.coreVf (s : State) (c : CoreId) : Option Nat := s.contextVf (s.core c).ctx

/-- The virtual function that an item in flight works for: that of its launch, whatever its source core holds by now (R416). -/
def State.flightVf (s : State) (f : Flight) : Option Nat :=
  match s.launch f.lid with
  | some l => s.contextVf l.ctx
  | none => s.coreVf f.src

/-- An access of core src, for a virtual function, to core c is admitted: by a window (R216), and never from one virtual function to
another (R416) (DEDUCED log 61). -/
def State.admits (s : State) (c : CoreId) (region off n right : Nat) (src : CoreId) (vf : Option Nat) : Bool :=
  (s.core c).admits region off n right src && (isHall src || isHall c || vf == s.coreVf c)

/-- A deferred trap for the issuing seat, on its way back (R266, R405). -/
def State.deferTrap (s : State) (delay : Nat) (src dst : CoreId) (cid seat lid : Nat) (cause : Nat) (arg : Word)
    (ia cpc : BitVec 48) (mig : Bool := false) : State :=
  s.send delay src dst lid cid seat 0 ia cpc (.nack { cause := cause, arg := arg, ia := ia, cpc := cpc }) mig

/-- A deferred trap for an instruction of the running chunk. -/
def State.deferHere (s : State) (cause : Nat) (arg : Word) (delay : Nat) : State :=
  s.deferTrap delay s.curCore s.curCore s.me.cid s.curSeat s.me.lid cause arg s.me.regs.pc s.me.snap.pc s.me.origin.isSome

/-! ### Updates -/

/-- The signature bits of a counter (R388). -/
def counterBits (core : CoreId) (idx : BitVec 8) : List Nat := signatureBits 1 (chipAddr core 1 (16 * idx.toNat)) 16

/-- Hold a counter update (R249, R250). -/
def counterUpdate (sw : Bool) (c : BitVec 6) (op : CounterOp) (s : State) : Host.Outcome State Fault Refusal :=
  settle sw s (do
    let o ← counterOperand s (s.x c)
    let t ← hold s (.counter (s.x c) o.1 o.2 op)
    .ok (t.setMe (t.me.sign true (counterBits o.1 o.2))))

/-- The immediate of a counter update, which is not negative (R241, R250). -/
def counterImm (imm : BitVec 21) : Word := imm.setWidth 64

/-- CADD, form R (R250). -/
def execCaddR (sw : Bool) (c b : BitVec 6) (s : State) : Host.Outcome State Fault Refusal :=
  counterUpdate sw c (.add (s.x b)) s

/-- CADD, form I (R250). -/
def execCaddI (sw : Bool) (c : BitVec 6) (imm : BitVec 21) (s : State) : Host.Outcome State Fault Refusal :=
  counterUpdate sw c (.add (counterImm imm)) s

/-- CEXPECT, form R (R250). -/
def execCexpectR (sw : Bool) (c b : BitVec 6) (s : State) : Host.Outcome State Fault Refusal :=
  counterUpdate sw c (.expect (s.x b)) s

/-- CEXPECT, form I (R250). -/
def execCexpectI (sw : Bool) (c : BitVec 6) (imm : BitVec 21) (s : State) : Host.Outcome State Fault Refusal :=
  counterUpdate sw c (.expect (counterImm imm)) s

/-- BAINIT, form R (R250). -/
def execBainitR (sw : Bool) (c b : BitVec 6) (s : State) : Host.Outcome State Fault Refusal :=
  counterUpdate sw c (.bainit (s.x b)) s

/-- BAINIT, form I (R250). -/
def execBainitI (sw : Bool) (c : BitVec 6) (imm : BitVec 21) (s : State) : Host.Outcome State Fault Refusal :=
  counterUpdate sw c (.bainit (counterImm imm)) s

/-- BARRIVE (R250). -/
def execBarrive (sw : Bool) (c p : BitVec 6) (s : State) : Host.Outcome State Fault Refusal :=
  counterUpdate sw c (.arrive (s.x p)) s

/-- BADROP (R250). -/
def execBadrop (sw : Bool) (c p : BitVec 6) (s : State) : Host.Outcome State Fault Refusal :=
  counterUpdate sw c (.drop (s.x p)) s

/-- A counter access is admitted: the executing core's own, one in space 0, or one a window admits (R191, R215, R242). -/
def counterAdmitted (s : State) (p : Word) (core : CoreId) (idx : BitVec 8) (right : Nat) : Bool :=
  core == s.curCore || ptrSpace p == 0 || s.admits core 1 (16 * idx.toNat) 16 right s.curCore (s.contextVf (s.ctxOf s.curCore s.me))

/-- CREAD (R251): of the executing core's own counter at issue; of a remote one the read travels to its owner, which gives
the value as it stands when the read is taken, or all ones with a deferred trap where the right is missing. -/
def execCread (sw : Bool) (d c : BitVec 6) (s : State) : Host.Outcome State Fault Refusal :=
  settle sw s (do
    let o ← counterOperand s (s.x c)
    readsTaken s
    let t := s.setMe (s.me.sign false (counterBits o.1 o.2))
    if o.1 = s.curCore && s.ownTurn o.1 1 && !(s.core o.1).counterHeld o.1 o.2 then
      .ok (t.gresX d ((s.core o.1).counters[o.2.toFin]).value 4)
    else .ok (t.readAway (.x d) o.1 (.cread (s.x c) o.2)))

/-- WAITC (R252): the chunk ends after it, and the arm goes to the owner with the commit. -/
def execWaitc (sw : Bool) (c t : BitVec 6) (s : State) : Host.Outcome State Fault Refusal :=
  settle (sw || true) s (do
    let o ← counterOperand s (s.x c)
    .ok (s.setMe { s.me with boundary := some (.waitc (s.x c) o.1 o.2 (s.x t) s.me.regs.pc) }))

/-! ### Triggers and the mailbox -/

/-- TRIGARM (R253): the counter in space 0, the record a local-store pointer at a multiple of 64; one in space 2 or 3 gives
argument 4, as these never give argument 5 (R49, DEDUCED log 107). -/
def execTrigarm (sw : Bool) (e b c d : BitVec 6) (s : State) : Host.Outcome State Fault Refusal :=
  settle sw s (do
    let p := s.x b
    let r := s.x d
    checkFormat (codeKnown (ptrFmt p)) 1
    checkFormat (ptrFmt p == 0 || ptrFmt p == 0x08) 2
    checkFormat (ptrBlog p == 0) 3
    checkFormat (ptrSpace p == 0 && 0x80000 ≤ ptrAddr p && ptrAddr p < 0x81000) 4
    checkFormat (ptrAddr p % 16 == 0) 5
    checkFormat (codeKnown (ptrFmt r)) 1
    checkFormat (unblocked (ptrFmt r)) 2
    checkFormat (ptrBlog r == 0) 3
    checkFormat (ptrSpace r ≤ 1) 4
    checkFormat (ptrSpace r == 0 && ptrAddr r + 64 ≤ 0x80000 && ptrAddr r % 64 == 0) 5
    hold s (.trigArm s.home e (BitVec.ofNat 8 ((ptrAddr p - 0x80000) / 16)) (s.x c) (ptrAddr r)))

/-- TRIGDIS (R253). -/
def execTrigdis (sw : Bool) (e : BitVec 6) (s : State) : Host.Outcome State Fault Refusal :=
  settle sw s (hold s (.trigDis s.home e))

/-- A number clamped to lo to hi. -/
def clamp (lo hi v : Nat) : Nat := max lo (min hi v)

/-- MBCFG (R254): the depth clamped to 1 to 32, E to 0 to 2^32 − 1; the counter is a local counter of the home core. -/
def execMbcfg (sw : Bool) (b c d : BitVec 6) (s : State) : Host.Outcome State Fault Refusal :=
  settle sw s (do
    let p := s.x c
    checkFormat (codeKnown (ptrFmt p)) 1
    checkFormat (ptrFmt p == 0 || ptrFmt p == 0x08) 2
    checkFormat (ptrBlog p == 0) 3
    checkFormat (ptrSpace p == 0 && 0x80000 ≤ ptrAddr p && ptrAddr p < 0x81000) 4
    checkFormat (ptrAddr p % 16 == 0) 5
    hold s (.mailboxConfig s.home (clamp 1 32 (s.x b).toNat) (BitVec.ofNat 8 ((ptrAddr p - 0x80000) / 16))
      (min (2 ^ 32 - 1) (s.x d).toNat)))

/-- MBPOST (R254): a space 1 region 5 pointer at offset 0; one in space 2 or 3 gives argument 4 (R49, DEDUCED log 107). -/
def execMbpost (sw : Bool) (b c : BitVec 6) (s : State) : Host.Outcome State Fault Refusal :=
  settle sw s (do
    let p := s.x b
    checkFormat (codeKnown (ptrFmt p)) 1
    checkFormat (unblocked (ptrFmt p)) 2
    checkFormat (ptrBlog p == 0) 3
    checkFormat (ptrSpace p ≤ 1) 4
    checkFormat (ptrSpace p == 1 && chipRegion (ptrAddr p) == 5 && chipOffset (ptrAddr p) == 0) 5
    let t ← hold s (.mailboxPost (chipCore (ptrAddr p)) (s.x c))
    .ok (t.setMe (t.me.sign true (signatureBits 1 (chipAddr (chipCore (ptrAddr p)) 5 0) 8))))

/-- The entry of a rank, all ones where none stands (R237, R254). -/
def Mailbox.atRank (m : Mailbox) (rank : Nat) : Word :=
  if m.k ≤ rank then BitVec.allOnes 64 else m.entries.getD rank (BitVec.allOnes 64)

/-- A deferred result already known, due after a delay (R32). -/
def State.deliver (s : State) (unit : IssuingUnit) (r : BitVec 6) (val : Word) (delay : Nat) : State :=
  if r = 0 then s
  else
    let tag := s.fresh
    let t := (s.setMe (s.me.await (.x r) unit tag)).tick
    t.send delay s.curCore s.curCore s.me.lid s.me.cid s.curSeat tag s.me.regs.pc s.me.snap.pc (.deferred tag val)

/-- A deferred result that a unit of another core, or of this one after what arrived before, is to give: the request is on its way
(R32, R242). -/
def State.ask (s : State) (unit : IssuingUnit) (r : BitVec 6) (dst : CoreId) (b : Body) : State :=
  if r = 0 then s
  else
    let t := (s.setMe (s.me.await (.x r) unit s.fresh)).tick
    t.send (s.transit s.curCore dst) s.curCore dst s.me.lid s.me.cid s.curSeat s.fresh s.me.regs.pc s.me.snap.pc b s.me.origin.isSome

/-- MBTAKE (R254): the entry of the home core's mailbox as it stands when it is taken, after the posts that arrived before (R229). -/
def execMbtake (sw : Bool) (d b : BitVec 6) (s : State) : Host.Outcome State Fault Refusal :=
  settle sw s (do
    awaitRoom s d
    let t := s.setMe (s.me.sign false (signatureBits 1 (chipAddr s.home 5 0) 8))
    if s.home = s.curCore && s.ownTurn s.curCore 1 then
      .ok (t.deliver .mailbox d ((s.core s.home).mailbox.atRank (s.x b).toNat) 8)
    else .ok (t.ask .mailbox d s.home (.mbtake (s.x b).toNat)))

/-! ### Owner atomics -/

/-- The bytes an owner atomic moves: 4 for the F32 operations (R255). -/
def amoBytes (op : Nat) : Nat := if op = 1 || op == 8 || op == 9 then 4 else 8

/-- An owner atomic's target: its owner, whether it is a counter, and the address or index (R256). -/
def amoTarget (s : State) (p : Word) (op : Nat) : Except Stop (CoreId × Bool × Nat) := do
  let a := ptrAddr p
  let counter := (ptrSpace p == 0 && 0x80000 ≤ a && a < 0x81000) || (ptrSpace p == 1 && chipRegion a == 1)
  if counter then do
    checkFormat (op == 0 || op == 10) 2
    let o ← counterOperand s p
    .ok (o.1, true, o.2.toNat)
  else do
    let n := amoBytes op
    checkFormat (codeKnown (ptrFmt p)) 1
    checkFormat (widthCode (8 * n) (ptrFmt p) && op != 10) 2
    checkFormat (ptrBlog p == 0 && !codeBlocked (ptrFmt p)) 3
    checkFormat (ptrSpace p ≤ 1) 4
    if ptrSpace p = 0 then do
      checkFormat (rangeOf a n).isSome 5
      checkFormat (a < 0x80000 && a % n == 0) 2
      .ok (s.home, false, a)
    else do
      checkFormat (chipInside a n) 5
      checkFormat (chipRegion a == 0 && chipOffset a % n == 0) 2
      .ok (chipCore a, false, chipOffset a)

/-- LSAMO (R255, R256): held; the old value is a deferred result.  A local target in a published slot faults at issue. -/
def execLsamo (sw : Bool) (d b c e : BitVec 6) (op : BitVec 4) (s : State) : Host.Outcome State Fault Refusal :=
  settle sw s (do
    let o ← amoTarget s (s.x b) op.toNat
    if o.1 = s.curCore && !o.2.1 then checkGuard (s.core o.1) o.2.2 (amoBytes op.toNat) else .ok ()
    let t ← holdFor s d (.lsamo (s.x b) o.1 o.2.1 o.2.2 op.toNat (s.x c) (s.x e))
    let bits := if o.2.1 then signatureBits 1 (chipAddr o.1 1 (16 * o.2.2)) 16
                else signatureBits 1 (chipAddr o.1 0 o.2.2) 8
    .ok (t.setMe (t.me.sign true bits)))

end Sys2Proof.Machine
end

