-- ==== Sys2Proof/Machine/Engine.lean ====
section
/-!
DEFINITION. Message, engine, fence, rafters and window instructions (R258 to R271).
-/
namespace Sys2Proof.Machine

/-! ### SEND -/

/-- The payload registers' values (R258). -/
def payload (s : State) (b : BitVec 6) (n : Nat) : List Word :=
  (List.range n).map (fun k => s.x (b + BitVec.ofNat 6 k))

/-- SEND (R258): a space 1 pointer whose bits 40:0 are ignored, into the launch rectangle. -/
def execSend (sw : Bool) (a b : BitVec 6) (n : BitVec 4) (h : BitVec 6) (s : State) :
    Host.Outcome State Fault Refusal :=
  settle sw s (do
    let p := s.x a
    checkFormat (ptrSpace p == 1) 4
    check (s.inLaunch (chipCore (ptrAddr p))) 0x0A p
    hold s (.send (chipCore (ptrAddr p)) h.toNat (payload s b n.toNat)))

/-! ### The block queue -/

/-- A pointer's location as space and address for a signature (R388). -/
def location (home : CoreId) (p : Word) : Nat × Nat :=
  if ptrSpace p = 0 then (1, homeAsChip home (ptrAddr p)) else (ptrSpace p, ptrAddr p)

/-- The bytes of a tensor descriptor's tile, or of a gather's rows, at its destination: a pointer, or a ring (R222). -/
def descriptorSpan (s : State) (a : Nat) (rows : Option Nat) : List Nat :=
  let k := s.core s.home
  let base := k.store.word a
  let ext (j : Nat) : Nat := bytesToNat (k.store.bytes (a + 36 + 2 * j) 2)
  let ctl := bytesToNat (k.store.bytes (a + 44) 4)
  let count := match rows with
    | none => ext 0 * ext 1 * ext 2 * ext 3
    | some n => n * ext 0
  if field ctl 8 1 = 1 then
    let g := s.here.rings.toList.getD (field ctl 9 3) Ring.init
    signatureBits 1 (chipAddr s.curCore 0 (ptrAddr g.base)) (g.slots * g.slotBytes)
  else
    let l := location s.home (k.store.word (a + 48))
    signatureBits l.1 l.2 ((count * codeBits (ptrFmt base) + 7) / 8)

/-- The destination of an engine command for a task's write signature (R388). -/
def engineSpan (s : State) (c : EngineCmd) : List Nat :=
  let at' (p : Word) (n : Nat) : List Nat := signatureBits (location s.home p).1 (location s.home p).2 n
  match c.kind with
  | .tile => descriptorSpan s (ptrAddr c.b) none
  | .gath => descriptorSpan s (ptrAddr c.b) (some (min (2 ^ 20) c.d.toNat))
  | .amo _ => at' c.b 8
  | .cas => at' c.b 8
  | _ => at' c.c (min (2 ^ 30) c.d.toNat)

/-- The command an engine instruction issues, with its operands as read at issue (R261). -/
def engineCmd (s : State) (kind : EngineKind) (b c d : BitVec 6) (dc sc : BitVec 8) : EngineCmd :=
  { kind := kind, b := s.x b, c := s.x c, d := s.x d, dc := dc.toNat, sc := sc.toNat, home := s.home }

/-- A block-queue form: held, with its status a deferred result (R262, R264). -/
def blockQueue (sw : Bool) (a : BitVec 6) (cmd : EngineCmd) (s : State) : Host.Outcome State Fault Refusal :=
  settle sw s (do
    let t ← holdFor s a (.engine cmd)
    .ok (t.setMe (t.me.sign true (if t.me.task.isSome then engineSpan s cmd else []))))

/-- BQFETCH (R262). -/
def execBqfetch (sw : Bool) (a b c d : BitVec 6) (dc sc : BitVec 8) (s : State) : Host.Outcome State Fault Refusal :=
  blockQueue sw a (engineCmd s .fetch b c d dc sc) s

/-- BQSTORE (R262). -/
def execBqstore (sw : Bool) (a b c d : BitVec 6) (dc sc : BitVec 8) (s : State) : Host.Outcome State Fault Refusal :=
  blockQueue sw a (engineCmd s .store b c d dc sc) s

/-- BQTILE (R223, R262). -/
def execBqtile (sw : Bool) (a b c d : BitVec 6) (dc sc : BitVec 8) (s : State) : Host.Outcome State Fault Refusal :=
  blockQueue sw a (engineCmd s .tile b c d dc sc) s

/-- BQGATH (R225, R262). -/
def execBqgath (sw : Bool) (a b c d : BitVec 6) (dc sc : BitVec 8) (s : State) : Host.Outcome State Fault Refusal :=
  blockQueue sw a (engineCmd s .gath b c d dc sc) s

/-- BQAMO (R263). -/
def execBqamo (sw : Bool) (a b c : BitVec 6) (dc sc : BitVec 8) (op : BitVec 4) (s : State) :
    Host.Outcome State Fault Refusal :=
  blockQueue sw a (engineCmd s (.amo op.toNat) b c 0 dc sc) s

/-- BQCAS (R263). -/
def execBqcas (sw : Bool) (a b c d : BitVec 6) (dc sc : BitVec 8) (s : State) : Host.Outcome State Fault Refusal :=
  blockQueue sw a (engineCmd s .cas b c d dc sc) s

/-- A copy without a status register: held (R265). -/
def copyEngine (sw : Bool) (cmd : EngineCmd) (s : State) : Host.Outcome State Fault Refusal :=
  settle sw s (do
    let t ← hold s (.engine cmd) s.fresh
    .ok ((t.setMe (t.me.sign true (if t.me.task.isSome then engineSpan s cmd else []))).tick))

/-- LSCOPY (R265). -/
def execLscopy (sw : Bool) (b c d : BitVec 6) (dc sc : BitVec 8) (s : State) : Host.Outcome State Fault Refusal :=
  copyEngine sw (engineCmd s .lscopy b c d dc sc) s

/-- XCOPY (R265). -/
def execXcopy (sw : Bool) (b c d : BitVec 6) (dc sc : BitVec 8) (stream : BitVec 12) (s : State) :
    Host.Outcome State Fault Refusal :=
  copyEngine sw (engineCmd s (.xcopy stream.toNat) b c d dc sc) s

/-! ### FENCE, RFCFG, WINSET and WINCLR -/

/-- The rectangle that a fence's scope names: the operand for RECT, the launch rectangle otherwise (R268). -/
def fenceRect (s : State) (scope : BitVec 3) (r : BitVec 6) : Word :=
  if scope = 2 then s.x r else s.myRect.getD 0

/-- FENCE (R267): the chunk ends after it. -/
def execFence (sw : Bool) (scope : BitVec 3) (order : BitVec 2) (r : BitVec 6) (s : State) :
    Host.Outcome State Fault Refusal :=
  settle (sw || true) s (do
    if scope = 2 then checkRect s (s.x r) else .ok ()
    .ok (s.setMe { s.me with
      boundary := some (.fence { scope := scope.toNat, order := order.toNat, rect := fenceRect s scope r }) }))

/-- RFCFG (R270): held. -/
def execRfcfg (sw : Bool) (b : BitVec 6) (op : BitVec 3) (ty : BitVec 2) (w : BitVec 5) (s : State) :
    Host.Outcome State Fault Refusal :=
  settle sw s (do
    checkRect s (s.x b)
    hold s (.raftersConfig op.toNat ty.toNat w.toNat (s.x b)))

/-- The region and offset of a window's base (R52, R271). -/
def windowBase (s : State) (p : Word) : Except Stop (Nat × Nat) := do
  let a := ptrAddr p
  checkFormat (codeKnown (ptrFmt p)) 1
  checkFormat (unblocked (ptrFmt p)) 2
  checkFormat (ptrBlog p == 0) 3
  if ptrSpace p = 0 then
    match homeRange a with
    | some (.localStore, _) => .ok (0, a)
    | some (.counters, _) => .ok (1, a - 0x80000)
    | some (.accumulators, _) => .ok (2, a - 0x90000)
    | _ => .error (.trap 0x09 4)
  else do
    checkFormat (ptrSpace p == 1 && chipCore a == s.home &&
      (chipRegion a ≤ 3 || chipRegion a == 5)) 4
    checkFormat (chipInside a 0) 5
    .ok (chipRegion a, chipOffset a)

/-- The words of a window (R214). -/
def windowWords (region base len : Nat) (rect : Word) (rights : BitVec 4) : Word × Word :=
  (BitVec.ofNat 64 (region * 2 ^ 37 + base),
   BitVec.ofNat 64 (rect.field 0 27 * 2 ^ 32 + rights.toNat * 2 ^ 28 + len % 2 ^ 20))

/-- WINSET (R214, R271): written with the chunk's commit; no held effect. -/
def execWinset (sw : Bool) (k : BitVec 3) (b c d : BitVec 6) (rights : BitVec 4) (s : State) :
    Host.Outcome State Fault Refusal :=
  settle sw s (do
    let o ← windowBase s (s.x b)
    let n := (s.x c).toNat
    checkFormat (match regionSize o.1 with | some z => decide (o.2 + n ≤ z) | none => false) 5
    checkRect s (s.x d)
    let w := windowWords o.1 o.2 n (s.x d) rights
    .ok (atCommit s (.window k w.1 w.2)))

/-- WINCLR (R271). -/
def execWinclr (sw : Bool) (k : BitVec 3) (s : State) : Host.Outcome State Fault Refusal :=
  settle sw s (.ok (atCommit s (.window k 0 0)))

end Sys2Proof.Machine
end

