-- ==== Sys2Proof/Machine/MeetingOps.lean ====
section
/-!
DEFINITION. Tags and meeting instructions: TAGALLOC, TAGFREE, TAGBIND and MEET (R311 to R318).
-/
namespace Sys2Proof.Machine

/-! ### Tags (R311, R312) -/

/-- The identifier, generation and party of a tag register. -/
def tagId (t : Word) : Nat := t.field 0 24

def tagGen (t : Word) : Nat := t.field 24 8

def tagParty (t : Word) : Nat := t.field 32 8

/-- A tag register's reserved bits are 0. -/
def tagReserved (t : Word) : Bool := t.field 40 24 == 0

/-- The generation of an identifier: one that was never freed is 0. -/
def Launch.gen (l : Launch) (id : Nat) : Nat := (assocGet l.tagGens id).getD 0

/-- A number rounded up to a multiple of n. -/
def alignUp (v n : Nat) : Nat := (v + n - 1) / n * n

/-- The least power of two that is at least v, for v of 1 to 4,096. -/
def pow2AtLeast (v : Nat) : Nat := if isPow2 v then v else 2 ^ (log2 v + 1)

/-- A block of n identifiers from b on is free and holds one generation (R312). -/
def Launch.blockFree (l : Launch) (b n : Nat) : Bool :=
  b + n ≤ 2 ^ 24 && !l.tagBlocks.any (fun a => meets b n a.1 (a.1 + a.2)) &&
    (l.tagGens.all (fun g => !(b ≤ g.1 && g.1 < b + n) || g.2 == l.gen b)) &&
    (l.gen b == 0 || (run b n).all (fun i => l.gen i == l.gen b))

/-- Where the lowest free block can begin: at 0, after an allocated block, or at or after an identifier that was freed. -/
def Launch.blockStarts (l : Launch) (n : Nat) : List Nat :=
  0 :: (l.tagBlocks.map (fun a => alignUp (a.1 + a.2) n) ++
    l.tagGens.flatMap (fun g => [g.1 / n * n, g.1 / n * n + n]))

/-- The free block of n identifiers with the lowest identifier (R312). -/
def Launch.findBlock (l : Launch) (n : Nat) : Option Nat :=
  match (l.blockStarts n).filter (fun b => l.blockFree b n) with
  | [] => none
  | b :: r => some (leastOr b (b :: r))

/-! ### The router of a tag (R314) -/

/-- The rank of an identifier in a rectangle of n cores. -/
def tagRank (id n : Nat) : Nat := id * 0x9E3779B1 % 2 ^ 32 / 2 ^ 16 % n

/-- The router of an identifier in a launch rectangle. -/
def routerOf (rect : Word) (id : Nat) : CoreId :=
  let w := rect.field 16 6 + 1 - rect.field 0 6
  let h := rect.field 22 5 + 1 - rect.field 6 5
  let rank := tagRank id (w * h)
  (rect.field 6 5 + rank / w) * 64 + rect.field 0 6 + rank % w

/-! ### Statistics (R325) -/

/-- Change a launch's meeting statistics. -/
def State.meetStat (s : State) (lid : Nat) (f : MeetStats → MeetStats) : State :=
  s.modLaunch lid (fun l => { l with meetStats := f l.meetStats })

/-- n more, saturating. -/
def bumpBy (n v : Nat) : Nat := min (2 ^ 32 - 1) (v + n)

/-! ### Frees (R313) -/

/-- The larder frees a block, or counts a bad free; a purge goes to the router of each identifier. -/
def State.freeTag (s : State) (x : Flight) (tag n : Word) : State :=
  let id := tagId tag
  let size := n.toNat
  match s.launch x.lid with
  | none => s
  | some l =>
    if l.tagBlocks.contains (id, size) && l.gen id == tagGen tag then
      let g := (tagGen tag + 1) % 256
      let freed (l : Launch) : Launch :=
        { l with tagBlocks := l.tagBlocks.filter (· != (id, size)),
                 tagGens := (run id size).foldl (fun t i => assocSet t i g) l.tagGens }
      (run id size).foldl (fun (s : State) i =>
        let r := routerOf l.rect i
        s.send (s.transit x.src r) x.src r x.lid 0 0 0 0 0 (.purge i)) (s.modLaunch x.lid freed)
    else s.meetStat x.lid (fun m => { m with badFree := bumpBy 1 m.badFree })

/-- The frees of a launch whose chunks have committed come before any other look at its tag table (R313). -/
def State.settleFrees (s : State) (lid : Nat) : State :=
  (s.flights.filter (fun f => f.lid == lid)).foldl (fun (s : State) f =>
    match f.body with
    | .tagFree tag n => (s.dropFlight f.id).freeTag f tag n
    | _ => s) s

/-- An identifier is allocated, under a generation (R319). -/
def State.tagLive (s : State) (lid id gen : Nat) : Bool :=
  match s.launch lid with
  | some l => l.tagBlocks.any (fun b => b.1 ≤ id && id < b.1 + b.2) && l.gen id == gen
  | none => false

/-! ### Allocation -/

/-- TAGALLOC (R312): at issue at the nearest larder; the tag lands about 600 cc later (DESIGN CHOICE log 10) (DEDUCED log 11). -/
def execTagalloc (sw : Bool) (d n : BitVec 6) (s : State) : Host.Outcome State Fault Refusal :=
  settle sw s (do
    awaitRoom s d
    let s := s.settleFrees s.me.lid
    let size := (s.x n).toNat
    let none' : State := s.deliver .tagTable d (BitVec.allOnes 64) 600
    if size = 0 || 4096 < size then .ok none'
    else
      let m := pow2AtLeast size
      match s.launch s.me.lid with
      | none => .ok none'
      | some l =>
        match l.findBlock m with
        | none => .ok none'
        | some b =>
          let tag := BitVec.ofNat 64 (l.gen b * 2 ^ 24 + b)
          let s := s.modLaunch l.lid (fun l => { l with tagBlocks := (b, m) :: l.tagBlocks })
          let s := s.setMe { s.me with allocated := (BitVec.ofNat 64 b, BitVec.ofNat 64 m) :: s.me.allocated }
          .ok (s.deliver .tagTable d tag 600))

/-- TAGFREE (R313): at the chunk's commit; no held effect. -/
def execTagfree (sw : Bool) (t n : BitVec 6) (s : State) : Host.Outcome State Fault Refusal :=
  settle sw s (do
    let size := (s.x n).toNat
    checkFormat (tagReserved (s.x t)) 2
    checkFormat (isPow2 size && size ≤ 4096) 2
    checkFormat (tagId (s.x t) % size == 0) 2
    .ok (atCommit s (.tagFree (s.x t) (s.x n))))

/-! ### The bind (R316, R317) -/

/-- A bind pointer to n bytes of a local store, in absolute form (R316, R317). -/
def bindPointer (s : State) (p : Word) (n align : Nat) : Except Stop Word := do
  let a := ptrAddr p
  checkFormat (ptrFmt p == 0 && ptrBlog p == 0 && a % align == 0) 2
  checkFormat (ptrSpace p == 0 || (ptrSpace p == 1 && chipRegion a == 0)) 4
  if ptrSpace p = 0 then do
    checkFormat (a + n ≤ 0x80000) 5
    .ok (chipPtr s.home 0 a)
  else do
    check (s.inLaunch (chipCore a)) 0x0A p
    checkFormat (chipOffset a + n ≤ 0x80000) 5
    .ok p

/-- The counter of a bind in absolute form, or 0 (R316). -/
def bindCounter (s : State) (p : Word) : Except Stop Word :=
  if p = 0 then .ok 0
  else do
    let o ← counterOperand s p
    if ptrSpace p = 1 then check (s.inLaunch o.1) 0x0A p else .ok ()
    .ok (chipPtr o.1 1 (16 * o.2.toNat))

/-- The control word of a bind is well formed (R316, R317). -/
def bindControl (w : Word) : Bool :=
  w.field 10 22 == 0 && w.field 4 4 == 0 && w.field 0 4 ≤ 6 && w.field 48 16 != 0 && w.field 32 16 != 0

/-- Bytes of a bind's result. -/
def bindBytes (w : Word) : Nat := 128 * (w.field 8 2 + 1)

/-- TAGBIND (R317): the record is read at issue and held in absolute form (DEDUCED log 38). -/
def execTagbind (sw : Bool) (t r : BitVec 6) (s : State) : Host.Outcome State Fault Refusal :=
  settle sw s (do
    checkFormat (tagReserved (s.x t)) 2
    let a ← checkLocal (s.x r) 32 32
    checkPoison s a 32
    let w := bytesToWords 4 (s.readHome a 32)
    let control := wordAt w 3
    checkFormat (bindControl control) 2
    let dest ← bindPointer s (wordAt w 0) (bindBytes control) 128
    let stat ← bindPointer s (wordAt w 1) 8 8
    let ctr ← bindCounter s (wordAt w 2)
    let t' ← hold s (.tagBind (s.x t) [dest, stat, ctr, control]) s.fresh
    let sign (q : Word) (n : Nat) : List Nat := signatureBits 1 (ptrAddr q) n
    .ok ((t'.setMe (t'.me.sign true (sign dest (bindBytes control) ++ sign stat 8 ++
      (if ctr = 0 then [] else sign ctr 16)))).tick))

/-! ### MEET -/

/-- A vector's sixteen words. -/
def vecWords (v : Vec) : List Word := (List.range 16).map (fun k => BitVec.ofNat 64 (v.field (64 * k) 64))

/-- MEET (R318): the registers are read at issue; held.  It names no location of its own, and signs none: TAGBIND signs the
destinations of a meeting (R388, DEDUCED log 118). -/
def execMeet (sw : Bool) (t : BitVec 6) (b : BitVec 5) (n : BitVec 4) (s : State) :
    Host.Outcome State Fault Refusal :=
  settle sw s (do
    checkFormat (tagReserved (s.x t) && tagParty (s.x t) ≤ 15) 2
    let u ← hold s (.meet (s.x t) ((List.range n.toNat).flatMap (fun k => vecWords (s.v (b + BitVec.ofNat 5 k))))) s.fresh
    .ok u.tick)

end Sys2Proof.Machine
end

