-- ==== Sys2Proof/Machine/ExpertOps.lean ====
section
/-!
DEFINITION. The expert and sample-group instructions: what they check and read at issue, and the effects they hold (R333 to
R344, R349 to R354).
-/
namespace Sys2Proof.Machine

/-! ### Experts -/

/-- A name register holds 20 bits (R333). -/
def checkName (s : State) (b : BitVec 6) : Except Stop Unit := checkFormat ((s.x b).field 20 44 == 0) 2

/-- An expert instruction: the name is checked, then the body gives the operation that is held for the result (R333). -/
def expertOp (sw : Bool) (a b : BitVec 6) (s : State) (body : Except Stop ExpertOp) :
    Host.Outcome State Fault Refusal :=
  settle sw s (do
    checkName s b
    let op ← body
    holdFor s a (.expert s.home op))

/-- The row pointer of EXROUTE (R335): its space, format and, in space 0, its first byte. -/
def checkRow (p : Word) : Except Stop Unit := do
  checkFormat (codeKnown (ptrFmt p)) 1
  checkFormat (unblocked (ptrFmt p)) 2
  checkFormat (ptrBlog p == 0) 3
  checkFormat (ptrSpace p == 0 || ptrSpace p == 2) 4
  checkFormat (ptrSpace p == 2 || ptrAddr p < 0x80000) 5

/-- EXROUTE (R335): the routing unit of the committing core takes it at the commit. -/
def execExroute (sw : Bool) (a b c d : BitVec 6) (s : State) : Host.Outcome State Fault Refusal :=
  expertOp sw a b s (do
    checkRow (s.x c)
    .ok (.route (s.x b) (s.x c) (s.x d)))

/-- EXREPL.0 (R340): the record is read at issue. -/
def execExrepl0 (sw : Bool) (a b c : BitVec 6) (s : State) : Host.Outcome State Fault Refusal :=
  expertOp sw a b s (do
    let p ← checkLocal (s.x c) 32 32
    checkPoison s p 32
    .ok (.repl0 (s.x b) (bytesToWords 4 (s.readHome p 32))))

/-- EXREPL.1 (R340). -/
def execExrepl1 (sw : Bool) (a b c d : BitVec 6) (s : State) : Host.Outcome State Fault Refusal :=
  expertOp sw a b s (.ok (.repl1 (s.x b) (s.x c) (s.x d)))

/-- EXRETIRE.0 (R341). -/
def execExretire0 (sw : Bool) (a b c : BitVec 6) (s : State) : Host.Outcome State Fault Refusal :=
  expertOp sw a b s (.ok (.retire0 (s.x b) (s.x c)))

/-- EXRETIRE.1 (R341). -/
def execExretire1 (sw : Bool) (a b c : BitVec 6) (s : State) : Host.Outcome State Fault Refusal :=
  expertOp sw a b s (.ok (.retire1 (s.x b) (s.x c)))

/-- EXSTEP.0 (R342). -/
def execExstep0 (sw : Bool) (a b : BitVec 6) (s : State) : Host.Outcome State Fault Refusal :=
  expertOp sw a b s (.ok (.step0 (s.x b)))

/-- EXSTEP.1 (R342). -/
def execExstep1 (sw : Bool) (a b c : BitVec 6) (s : State) : Host.Outcome State Fault Refusal :=
  expertOp sw a b s (.ok (.step1 (s.x b) (s.x c)))

/-- EXSTAT (R344). -/
def execExstat (sw : Bool) (a b c : BitVec 6) (s : State) : Host.Outcome State Fault Refusal :=
  expertOp sw a b s (.ok (.stat (s.x b) (s.x c)))

/-- EXLOOK (R344): a local-store destination at a multiple of 128; a task signs the read-back (R388). -/
def execExlook (sw : Bool) (a b c : BitVec 6) (s : State) : Host.Outcome State Fault Refusal :=
  settle sw s (do
    checkName s b
    let p ← checkLocal (s.x c) 128 128
    let t ← holdFor s a (.expert s.home (.look (s.x b) (s.x c)))
    .ok (t.signHome false p 128))

/-! ### Sample groups -/

/-- The slot and the sibling index of a handle (R348). -/
def handleSlot (h : Word) : Nat := h.field 27 2

def handleSibling (h : Word) : Nat := h.field 35 6

/-- A handle is valid, with its reserved bits 0, and its home lies in the launch rectangle (R348). -/
def checkHandle (s : State) (h : Word) : Except Stop Unit := do
  checkFormat (h.bit 34 && h.field 29 5 == 0 && h.field 41 23 == 0) 2
  check (s.inLaunch (handleHome h)) 0x0A h

/-- GFORK (R351): the prototype is read at issue. -/
def execGfork (sw : Bool) (a b c : BitVec 6) (s : State) : Host.Outcome State Fault Refusal :=
  settle sw s (do
    checkHandle s (s.x b)
    let p ← checkLocal (s.x c) 64 64
    checkPoison s p 64
    holdFor s a (.group s.home (.fork (s.x b) (bytesToWords 8 (s.readHome p 64)) none)))

/-- A group operation without a result. -/
def groupEffect (sw : Bool) (b : BitVec 6) (op : GroupOp) (s : State) : Host.Outcome State Fault Refusal :=
  settle sw s (do
    checkHandle s (s.x b)
    let t ← hold s (.group s.home op) s.fresh
    .ok t.tick)

/-- GREWARD (R352). -/
def execGreward (sw : Bool) (b c : BitVec 6) (s : State) : Host.Outcome State Fault Refusal :=
  groupEffect sw b (.reward (s.x b) (s.x c)) s

/-- GCANCEL (R353). -/
def execGcancel (sw : Bool) (b c : BitVec 6) (s : State) : Host.Outcome State Fault Refusal :=
  groupEffect sw b (.cancel (s.x b) (s.x c)) s

/-- A local-store BYTES pointer at a multiple of 8 (R347). -/
def groupPointer (p : Word) : Bool :=
  ptrFmt p == 0 && ptrBlog p == 0 && ptrSpace p == 0 && ptrAddr p % 8 == 0 && ptrAddr p < 0x80000

/-- A configuration record's fields, apart from the range of its advantages (R347, R350). -/
def groupConfig (w : List Word) : Bool :=
  let n := (wordAt w 3).field 8 7
  let quo := (wordAt w 3).field 16 7
  let eps := (wordAt w 2).field 0 32
  1 ≤ n && n ≤ 64 && 1 ≤ quo && quo ≤ n && (wordAt w 3).field 23 41 == 0 && (wordAt w 3).field 15 1 == 0 &&
    eps < 0x7F800000 && groupPointer (wordAt w 0) && groupPointer (wordAt w 1)

/-- GCFG, configure (R350). -/
def execGcfgConfigure (sw : Bool) (a b : BitVec 6) (s : State) : Host.Outcome State Fault Refusal :=
  settle sw s (do
    let p ← checkLocal (s.x b) 32 32
    checkPoison s p 32
    let w := bytesToWords 4 (s.readHome p 32)
    checkFormat (groupConfig w) 2
    checkFormat (ptrAddr (wordAt w 0) + 8 * (wordAt w 3).field 8 7 ≤ 0x80000) 5
    holdFor s a (.group s.home (.configure w)))

/-- GCFG, release (R350). -/
def execGcfgRelease (sw : Bool) (a c : BitVec 6) (s : State) : Host.Outcome State Fault Refusal :=
  settle sw s (do
    checkHandle s (s.x c)
    holdFor s a (.group s.home (.release (s.x c))))

/-- GSTAT (R354). -/
def execGstat (sw : Bool) (a b c : BitVec 6) (s : State) : Host.Outcome State Fault Refusal :=
  settle sw s (do
    checkHandle s (s.x b)
    holdFor s a (.group s.home (.stat (s.x b) (s.x c))))

end Sys2Proof.Machine
end

