-- ==== Sys2Proof/Machine/TaskOps.lean ====
section
/-!
DEFINITION. Spawns, larder queues and work lists: what the instructions do at issue (R380 to R382).
-/
namespace Sys2Proof.Machine

/-- The record a spawn reads at issue, with its checks (R380). -/
def spawnRecord (s : State) (a b : BitVec 6) : Except Stop (List Word) := do
  let p ← checkLocal (s.x a) 64 64
  checkPoison s p 64
  let w := bytesToWords 8 (s.readHome p 64)
  checkFormat ((s.x b).toNat < 2 ^ 63) 2
  check (s.inLaunch ((wordAt w 1).field 0 11)) 0x0A (s.x a)
  .ok w

/-- TSPAWN (R380). -/
def execTspawn (sw : Bool) (a b : BitVec 6) (s : State) : Host.Outcome State Fault Refusal :=
  settle sw s (do
    let w ← spawnRecord s a b
    let t ← hold s (.spawn true w (s.x b) ((wordAt w 1).field 0 11)) s.fresh
    .ok t.tick)

/-- TSPAWNAT (R380): the target core's linear index lies in the launch rectangle. -/
def execTspawnat (sw : Bool) (a b c : BitVec 6) (s : State) : Host.Outcome State Fault Refusal :=
  settle sw s (do
    let w ← spawnRecord s a b
    check ((s.x c).toNat < 2048 && s.inLaunch (s.x c).toNat) 0x0A (s.x c)
    let t ← hold s (.spawn false w (s.x b) (s.x c).toNat) s.fresh
    .ok t.tick)

/-- QPUSH (R381): the record is read from the committed store at the commit (DEDUCED log 83). -/
def execQpush (sw : Bool) (a qn : BitVec 6) (s : State) : Host.Outcome State Fault Refusal :=
  settle sw s (do
    let p ← checkLocal (s.x a) 64 64
    let t ← hold s (.queuePush qn.toNat p) s.fresh
    .ok t.tick)

/-- QPOP (R381): not held; it travels to the larder nearest the executing core at issue (DEDUCED log 105). -/
def execQpop (sw : Bool) (a b qn : BitVec 6) (s : State) : Host.Outcome State Fault Refusal :=
  settle sw s (do
    let _ ← checkLocal (s.x b) 64 64
    awaitRoom s a
    let tag := s.fresh
    let larder := nearestLarder s.curCore
    let popped : List Popped := { tag := tag, queue := some (larder, qn.toNat), record := none } :: s.me.popped
    let t := (s.setMe { s.me.await (.x a) .larder tag with popped := popped }).tick
    .ok (t.send 600 s.curCore s.curCore s.me.lid s.me.cid s.curSeat tag s.me.regs.pc s.me.snap.pc
      (.pop larder qn.toNat (s.x b) s.home) s.me.origin.isSome))

/-- WLPUSH (R382): the record is read at issue. -/
def execWlpush (sw : Bool) (a : BitVec 6) (s : State) : Host.Outcome State Fault Refusal :=
  settle sw s (do
    let p ← checkLocal (s.x a) 64 64
    checkPoison s p 64
    let t ← hold s (.workPush (bytesToWords 8 (s.readHome p 64))) s.fresh
    .ok t.tick)

/-- The status of QPOP and WLPOP (R381). -/
def popStatus (delivered : Bool) : Word := if delivered then 64 else 0x0300000000000000

/-- A record's 64 bytes. -/
def Record.bytes (r : Record) : List Byte := r.words.flatMap wordBytes

/-- An engine write of n bytes into a local store that meets no published slot; otherwise the ring it met (R175, R212). -/
def State.landAt (s : State) (c : CoreId) (a : Nat) (bs : List Byte) : Except Nat State :=
  match (s.core c).guardedBy a bs.length with
  | some g => .error g
  | none => .ok (s.setCore c ((s.core c).land a bs))

/-- The delivery of a popped record: the status, and a deferred ring-guard where its bytes met a published slot (R175,
R381, DEDUCED log 29). -/
def State.deliverPop (s : State) (home : CoreId) (dst : Nat) (r : Option Record) : State × Word × Option Nat :=
  match r with
  | none => (s, popStatus false, none)
  | some r =>
    match s.landAt home dst r.bytes with
    | .ok t => (t, popStatus true, none)
    | .error g => (s, 0x0101000000000000, some g)

/-- WLPOP (R382): the head record of the executing core's work list at issue, the status 8 cc later. -/
def execWlpop (sw : Bool) (a b : BitVec 6) (s : State) : Host.Outcome State Fault Refusal :=
  settle sw s (do
    let p ← checkLocal (s.x b) 64 64
    awaitRoom s a
    match s.here.work with
    | [] => .ok (s.deliver .workList a (popStatus false) 8)
    | r :: rest =>
      let s := s.setHere { s.here with work := rest }
      let popped : List Popped := { tag := s.fresh, queue := none, record := some r } :: s.me.popped
      let s := (s.setMe { s.me with popped := popped }).tick
      let out := s.deliverPop s.home p (some r)
      let t := out.1.deliver .workList a out.2.1 8
      .ok (match out.2.2 with
        | some g => t.deferHere 0x11 (BitVec.ofNat 64 (0x100 + g)) 0
        | none => t))

end Sys2Proof.Machine
end

