-- ==== Sys2Proof/Machine/SystemOps.lean ====
section
/-!
DEFINITION. System and capability registers, the hall's decisions, and the privileged instructions (R44 to R46, R399 to
R403, R412 to R417).
-/
namespace Sys2Proof.Machine

/-! ### Ending continuations and launches -/

/-- The seat of a lent continuation that has ended elsewhere: free, with NF, RMODE and SEED as they came back (R206). -/
def Seat.endLent (t : Seat) (nf : BitVec 6) (rmode : BitVec 3) (seed : Word) : Seat :=
  Seat.freed { t with regs := { t.regs with nf := nf, rmode := rmode, seed := seed } }

/-- Ship what is left of a continuation that ended away from its lent seat (R206). -/
def State.shipEnd (s : State) (c : CoreId) (t : Seat) : State :=
  match t.origin with
  | none => s
  | some (d, m) =>
    s.send (s.transit c d + 1) c d t.lid t.cid m 0 0 0
      (.transferBack { regs := t.regs.shipped, record := t.record, cid := t.cid, deferred := [], core := d, seat := m,
                       target := c, lastCommit := none, task := none, retired := true, trap := none, more := 0 })

/-- The continuation of a seat ends and the seat frees (R403). -/
def State.endSeat (s : State) (c : CoreId) (n : Nat) : State :=
  let t := s.seat c n
  (s.shipEnd c t).setSeat c n t.freed

/-- An item in flight that an ended launch discards: its records and queue entries, not its engine operations (R403). -/
def Flight.discarded (f : Flight) (lid : Nat) : Bool :=
  match f.body with
  | .cread .. => f.lid == lid
  | .waitc _ _ _ r => r.lid == lid
  | .message m => m.lid == lid
  | .record r => r.lid == lid
  | .spawned r => r.lid == lid
  | .initial r _ => r.lid == lid
  | .levelled r => r.lid == lid
  | .transfer t => t.record.lid == lid
  | .transferBack t => t.record.lid == lid
  | .pulled r => f.lid == lid || (match r with | some x => x.lid == lid | none => false)
  | .pull _ => f.lid == lid
  | .push _ _ r => r.lid == lid
  | .extend _ _ r => r.lid == lid
  | .pop .. => f.lid == lid
  | .effect (.spawn ..) => f.lid == lid
  | .effect (.queuePush ..) => f.lid == lid
  | .effect (.workPush ..) => f.lid == lid
  | .deferred .. => f.lid == lid
  | .bind .. => f.lid == lid
  | .operand .. => f.lid == lid
  | .tagFree .. => f.lid == lid
  | .purge _ => f.lid == lid
  | _ => false

/-- A seat with nothing of an ended launch: no continuation, and no register value (R14, R403). -/
def Seat.withoutLaunch (t : Seat) (lid : Nat) : Seat :=
  if t.lid = lid then { t.abort.freed with record := Record.zero, past := [], delivered := [], stop := false } else t

/-- A core without an ended launch's records, messages and continuations; its group slots of that launch become free (R346,
R403). -/
def Core.withoutLaunch (k : Core) (lid : Nat) : Core :=
  { k with
    seat0 := k.seat0.withoutLaunch lid
    seat1 := k.seat1.withoutLaunch lid
    seat2 := k.seat2.withoutLaunch lid
    seat3 := k.seat3.withoutLaunch lid
    ready := k.ready.filter (·.lid != lid)
    work := k.work.filter (·.lid != lid)
    waiters := k.waiters.filter (·.lid != lid)
    msgq := k.msgq.filter (·.lid != lid)
    meets := k.meets.filter (·.lid != lid)
    iface := k.iface.filter (·.lid != lid)
    groups := k.groups.map (fun g => if g.lid = lid then GroupSlot.free else g) }

/-- One core's seats of an ended launch are undone and freed. -/
def State.endOnCore (s : State) (lid : Nat) (c : CoreId) : State :=
  if isHall c then s
  else
    let mine := (List.range 4).filter (fun n => (s.seat c n).st != .free && (s.seat c n).lid == lid)
    let s := mine.foldl (fun s n => (s.abortOne c n)) s
    let s := mine.foldl (fun s n => s.setSeat c n (s.seat c n).freed) s
    s.setCore c ((s.core c).withoutLaunch lid)

/-- The core that holds a ticket's seat: its context's saved state, where it has been saved, or the core itself. -/
def State.ticketCore (s : State) (t : Ticket) : Core :=
  match (s.context t.ctx).bind (fun x => assocGet x.saved t.core) with
  | some k => k
  | none => s.core t.core

/-- A ticket's continuation is there still: its record is no ended launch's, or its seat, wherever it is, holds it. -/
def State.ticketHolds (s : State) (lid : Nat) (t : Ticket) : Bool :=
  match t.record with
  | some r => r.lid != lid
  | none => ((s.ticketCore t).seat t.seat).ticket == t.id

/-- End of a launch (R403): every continuation, record and queue entry of it is discarded. -/
def State.endLaunch (s : State) (lid : Nat) : State :=
  let s := (s.cores.map (·.1)).foldl (fun s c => s.endOnCore lid c) s
  let s : State := { s with
    launches := s.launches.filter (·.lid != lid)
    flights := s.flights.filter (fun f => !f.discarded lid)
    contexts := s.contexts.map (fun (x : Context) =>
      { x with saved := x.saved.map (fun p => (p.1, p.2.withoutLaunch lid)) }) }
  { s with tickets := s.tickets.filter (s.ticketHolds lid) }

/-! ### Decisions (R403) -/

/-- Replace a ticket's core. -/
def State.setTicketCore (s : State) (t : Ticket) (k : Core) : State :=
  match (s.context t.ctx).bind (fun x => assocGet x.saved t.core) with
  | some _ => s.modContext t.ctx (fun x => { x with saved := assocSet x.saved t.core k })
  | none => s.setCore t.core k

/-- The undecided record under a ticket handle. -/
def State.ticket? (s : State) (w : Word) : Option Ticket := s.tickets.find? (·.id == w.field 0 16)

/-- The state without a ticket. -/
def State.dropTicket (s : State) (t : Ticket) : State := { s with tickets := s.tickets.filter (·.id != t.id) }

/-- The record of a task released from a WAITC starts without ts (R385). -/
def Record.untimed (r : Record) : Record :=
  if r.w0.bit 49 then { r with w0 := r.w0 &&& ~~~(1#64 <<< 49), w2 := 0 } else r

/-- A record released to its home core's ready list, or its work list when migratable (R200). -/
def State.placeRecord (s : State) (delay : Nat) (src : CoreId) (r : Record) : State :=
  s.send delay src r.home r.lid 0 0 0 0 0 (.record r)

/-- Resume (R403): the trapped seat runs from its chunk start, or from its committed boundary after a deferred trap; a
suspended record is released. -/
def State.decideResume (s : State) (w : Word) : State :=
  match s.ticket? w with
  | none => s
  | some t =>
    let s := s.dropTicket t
    match t.record with
    | some r => s.placeRecord 40 t.core r.untimed
    | none =>
      let k := s.ticketCore t
      let x := k.seat t.seat
      s.setTicketCore t (k.setSeat t.seat { x with st := .running, ticket := 0 })

/-- End the continuation (R403). -/
def State.decideEnd (s : State) (w : Word) : State :=
  match s.ticket? w with
  | none => s
  | some t =>
    let s := s.dropTicket t
    match t.record with
    | some _ => s
    | none =>
      let k := s.ticketCore t
      (s.shipEnd t.core (k.seat t.seat)).setTicketCore t (k.setSeat t.seat (k.seat t.seat).freed)

/-- End the launch (R403). -/
def State.decideLaunch (s : State) (w : Word) : State :=
  match s.ticket? w with
  | none => s
  | some t =>
    match t.record with
    | some r => (s.dropTicket t).endLaunch r.lid
    | none => (s.dropTicket t).endLaunch ((s.ticketCore t).seat t.seat).lid

/-! ### System registers -/

/-- TSTAMP (R44, R190). -/
def Record.stamp (r : Record) : Word := if r.w0.bit 49 then r.w2 else 0

/-- BUDGET: cycles left (R44, R197). -/
def Seat.budgetLeft (t : Seat) (cycle : Nat) : Nat := t.budget - (cycle - t.startAt)

/-- CBTSTAT of a core (R44). -/
def Core.tableStatus (k : Core) : Word :=
  BitVec.ofNat 64 ((if k.cbValid then 1 else 0) + (if k.cbLoading then 2 else 0) + k.cbLoads % 65536 * 2 ^ 32)

/-- The value of a system register 0x000 to 0x00B for the issuing seat (R44, R399). -/
def State.sysReg (s : State) (num : Nat) : Word :=
  let t := s.me
  let hall := isHall s.curCore
  match num with
  | 0 => if hall then 0 else BitVec.ofNat 64 s.home
  | 1 => BitVec.ofNat 64 (s.curSeat + (if hall then 0x7FF else s.curCore) * 2 ^ 16)
  | 2 => if hall then 0 else BitVec.ofNat 64 t.lid
  | 3 => if hall then 0 else s.myRect.getD 0
  | 4 => if hall then 0 else t.record.stamp
  | 5 => BitVec.ofNat 64 t.count
  | 6 => BitVec.ofNat 64 (t.budgetLeft s.cycle)
  | 7 => t.regs.nf.setWidth 64
  | 8 => t.regs.rmode.setWidth 64
  | 9 => t.regs.seed
  | 10 => (s.core s.home).tableStatus
  | 11 => s.here.droops
  | _ => 0

/-- The context that HCTX names. -/
def State.hctx (s : State) : Option Context := s.context s.me.hall.hctx.toNat

/-- A hall register as SYSR reads it, where it can be read (R400). -/
def State.hallReg (s : State) (num : Nat) : Option Word :=
  match num with
  | 0x200 => some (s.me.hall.hvec.setWidth 64)
  | 0x201 => some (s.me.hall.hepc.setWidth 64)
  | 0x202 => some (s.me.hall.hcause.setWidth 64)
  | 0x203 => some (s.me.hall.hctx.setWidth 64)
  | 0x204 => some ((s.hctx.map (fun x => x.budget.setWidth 64)).getD 0)
  | 0x205 => some ((s.hctx.map (fun x => x.save.setWidth 64)).getD 0)
  | 0x206 => some ((s.hctx.map (fun x => x.trq.setWidth 64)).getD 0)
  | 0x208 => some (BitVec.ofNat 64 s.cycle)
  | _ => none

/-- A check that gives illegal-instruction, whose argument is the head (R404). -/
def checkLegal (ok : Bool) (i : Instr) : Except Stop Unit := check ok 0x01 (BitVec.ofNat 64 (headOfInstr i))

/-- SYSR (R44, R399, R400). -/
def execSysr (sw : Bool) (d : BitVec 6) (num : BitVec 10) (s : State) : Host.Outcome State Fault Refusal :=
  settle sw s (do
    let i : Instr := .sysr sw d num
    if num.toNat < 0x200 then do
      checkLegal (num.toNat ≤ 0x00B) i
      .ok (s.gresX d (s.sysReg num.toNat) (2 + (if num = 10 then homeLatency s else 0)))
    else do
      needsHall s (headOfInstr i)
      match s.hallReg num.toNat with
      | none => .error (.trap 0x01 (BitVec.ofNat 64 (headOfInstr i)))
      | some w => .ok (s.gresX d w 2))

/-- The seat with a register of its hall seat written (R400). -/
def Seat.setHall (t : Seat) (num : Nat) (w : Word) : Seat :=
  match num with
  | 0x200 => { t with hall := { t.hall with hvec := w.setWidth 48 } }
  | 0x201 => { t with hall := { t.hall with hepc := w.setWidth 48 } }
  | 0x203 => { t with hall := { t.hall with hctx := w.setWidth 16 } }
  | _ => t

/-- A register of HCTX is written, and what it held is kept for an abort (R399, R400). -/
def State.setContextReg (s : State) (num : Nat) (w : Word) : State :=
  match s.hctx with
  | none => s
  | some x =>
    let old := (s.hallReg num).getD 0
    let s := s.setMe { s.me with hallUndo := (x.id, num, old) :: s.me.hallUndo }
    s.modContext x.id (fun x => x.setReg num w)

/-- SYSW (R44, R399, R400). -/
def execSysw (sw : Bool) (a : BitVec 6) (num : BitVec 10) (s : State) : Host.Outcome State Fault Refusal :=
  settle sw s (do
    let w := s.x a
    let i : Instr := .sysw sw a num
    if num = 7 then .ok (s.setMe { s.me with regs := { s.me.regs with nf := w.setWidth 6 } })
    else if num = 8 then .ok (s.setMe { s.me with regs := { s.me.regs with rmode := w.setWidth 3 } })
    else do
      checkLegal (0x200 ≤ num.toNat) i
      needsHall s (headOfInstr i)
      if num = 0x200 || num == 0x201 || num == 0x203 then .ok (s.setMe (s.me.setHall num.toNat w))
      else if num = 0x204 then .ok (s.setContextReg 0x204 w)
      else if num = 0x205 then do
        checkFormat (w.field 0 48 % 2 ^ 21 == 0) 5
        .ok (s.setContextReg 0x205 w)
      else if num = 0x206 then do
        checkLegal (w.field 19 5 == 0) i
        .ok (s.setContextReg 0x206 w)
      else .error (.trap 0x01 (BitVec.ofNat 64 (headOfInstr i))))

/-- SEED_WRITE: SYSW to SEED, where 0 stores 1 (R45). -/
def execSeedWrite (sw : Bool) (a : BitVec 6) (s : State) : Host.Outcome State Fault Refusal :=
  settle sw s (.ok (s.setSeed (seedOf (s.x a))))

/-- A write of HDECIDE, on a hall core only (R400, R403). -/
def decide' (sw : Bool) (i : Instr) (s : State) (t : State) : Host.Outcome State Fault Refusal :=
  settle sw s (do
    needsHall s (headOfInstr i)
    .ok t)

/-- HDECIDE_RESUME (R403). -/
def execHdecideResume (sw : Bool) (a : BitVec 6) (s : State) : Host.Outcome State Fault Refusal :=
  decide' sw (.hdecideResume sw a) s (s.decideResume (s.x a))

/-- HDECIDE_END_CONTINUATION (R403). -/
def execHdecideEndContinuation (sw : Bool) (a : BitVec 6) (s : State) : Host.Outcome State Fault Refusal :=
  decide' sw (.hdecideEndContinuation sw a) s (s.decideEnd (s.x a))

/-- HDECIDE_END_LAUNCH (R403). -/
def execHdecideEndLaunch (sw : Bool) (a : BitVec 6) (s : State) : Host.Outcome State Fault Refusal :=
  decide' sw (.hdecideEndLaunch sw a) s (s.decideLaunch (s.x a))

/-- A capability register (R46).  LEVINT on a hall core, or where the core's seat runs no launch that is known, reads the
default of 4,096 (DESIGN CHOICE log 106: R46 gives the launch's interval only). -/
def State.capability (s : State) (num : Nat) : Nat :=
  match num with
  | 0 => extensions s.curCore
  | 1 => 96
  | 2 => 524288
  | 3 => 4
  | 4 => 64
  | 5 => 32
  | _ => if isHall s.curCore then 4096 else ((s.launch s.me.lid).map (·.levint)).getD 4096

/-- CAPR (R46, R399). -/
def execCapr (sw : Bool) (d : BitVec 6) (num : BitVec 10) (s : State) : Host.Outcome State Fault Refusal :=
  settle sw s (do
    checkLegal (num.toNat ≤ 6) (.capr sw d num)
    .ok (s.gresX d (BitVec.ofNat 64 (s.capability num.toNat)) 2))

/-! ### Privileged instructions -/

/-- TLBINV (R413): held. -/
def execTlbinv (sw : Bool) (a b : BitVec 6) (s : State) : Host.Outcome State Fault Refusal :=
  settle sw s (do
    needsHall s (headOfInstr (.tlbinv sw a b))
    let w := s.x b
    checkFormat (w.field 0 7 ≤ 95 && w.field 9 3 ≤ 4 && w.field 12 52 == 0) 2
    checkFormat (w.bit 8 || ptrSpace (s.x a) == 2) 4
    let t ← hold s (.tlbInv (s.x a) w) s.fresh
    .ok t.tick)

/-- The operands of CTXSAVE and CTXLOAD (R414); a logical index that has no core, as after a retirement, is the context's own (R468,
R470). -/
def contextOperands (s : State) (k b c : BitVec 6) : Except Stop Unit := do
  let o ← counterOperand s (s.x k)
  checkFormat (o.1 == s.curCore) 2
  checkFormat (1 ≤ (s.x b).toNat && (s.x b).toNat ≤ 65535) 2
  check (rectShape (s.x c) && (rectCores (s.x c)).all (s.inPartition (s.x b).toNat true)) 0x0A (s.x c)

/-- CTXSAVE (R414): held. -/
def execCtxsave (sw : Bool) (k b c : BitVec 6) (s : State) : Host.Outcome State Fault Refusal :=
  settle sw s (do
    needsHall s (headOfInstr (.ctxsave sw k b c))
    contextOperands s k b c
    let t ← hold s (.ctxSave (s.x k) (s.x b) (s.x c)) s.fresh
    .ok t.tick)

/-- CTXLOAD (R414): held. -/
def execCtxload (sw : Bool) (k b c : BitVec 6) (s : State) : Host.Outcome State Fault Refusal :=
  settle sw s (do
    needsHall s (headOfInstr (.ctxload sw k b c))
    contextOperands s k b c
    let t ← hold s (.ctxLoad (s.x k) (s.x b) (s.x c)) s.fresh
    .ok t.tick)

/-- LPMAP (R417): held, with a deferred status. -/
def execLpmap (sw : Bool) (d b c : BitVec 6) (s : State) : Host.Outcome State Fault Refusal :=
  settle sw s (do
    needsHall s (headOfInstr (.lpmap sw d b c))
    holdFor s d (.lpMap (s.x b) (s.x c)))

/-- The VF operand of VFCFG: bits beside its two fields are 0 and the function is 0 to 95 (R415, DEDUCED log 25). -/
def vfOperand (w : Word) : Bool := w.field 0 7 ≤ 95 && w.field 7 1 == 0 && w.field 10 54 == 0

/-- VFCFG_CONFIGURE (R415): the descriptor is read at issue; a reserved operation is an illegal instruction. -/
def execVfcfgConfigure (sw : Bool) (d b c : BitVec 6) (s : State) : Host.Outcome State Fault Refusal :=
  settle sw s (do
    let i : Instr := .vfcfgConfigure sw d b c
    needsHall s (headOfInstr i)
    checkLegal ((s.x b).field 8 2 != 3) i
    checkFormat (vfOperand (s.x b)) 2
    let p ← checkLocal (s.x c) 64 64
    checkPoison s p 64
    holdFor s d (.vfcfg ((s.x b).field 0 7) 0 (s.readHome p 64)))

/-- VFCFG_ACTIVATE (R415). -/
def execVfcfgActivate (sw : Bool) (d b c : BitVec 6) (s : State) : Host.Outcome State Fault Refusal :=
  settle sw s (do
    needsHall s (headOfInstr (.vfcfgActivate sw d b c))
    checkFormat (vfOperand (s.x b)) 2
    holdFor s d (.vfcfg ((s.x b).field 0 7) 1 []))

/-- VFCFG_DEACTIVATE (R415). -/
def execVfcfgDeactivate (sw : Bool) (d b c : BitVec 6) (s : State) : Host.Outcome State Fault Refusal :=
  settle sw s (do
    needsHall s (headOfInstr (.vfcfgDeactivate sw d b c))
    checkFormat (vfOperand (s.x b)) 2
    holdFor s d (.vfcfg ((s.x b).field 0 7) 2 []))

end Sys2Proof.Machine
end

