-- ==== Sys2Proof/Machine/Net.lean ====
section
/-!
DEFINITION. What happens at an owner: counters, waiters, triggers, messages, the mailbox and owner atomics (R228 to R237,
R249 to R260), and the records that go to the hall (R362, R401).
-/
namespace Sys2Proof.Machine

/-! ### Counters (R228 to R232) -/

/-- The fields of a shadow word (R228). -/
def Counter.mode (c : Counter) : Nat := c.shadow.field 60 2

def Counter.early (c : Counter) : Nat := c.shadow.field 40 20

def Counter.pending (c : Counter) : Nat := c.shadow.field 20 20

def Counter.next (c : Counter) : Nat := c.shadow.field 0 20

/-- The counter with its mode and barrier fields set; OVF is kept (R228). -/
def Counter.setFields (c : Counter) (mode early pending next : Nat) : Counter :=
  { c with shadow := BitVec.ofNat 64 (c.shadow.field 62 1 * 2 ^ 62 + mode * 2 ^ 60 + early % 2 ^ 20 * 2 ^ 40 +
      pending % 2 ^ 20 * 2 ^ 20 + next % 2 ^ 20) }

/-- The completions of R231 while nothing is pending; none where the value would pass 2^64 − 1 (R230, R250). -/
def Counter.finishPhases : Nat → Counter → Option Counter
  | 0, c => some c
  | n + 1, c =>
    if c.mode == 1 && c.pending == 0 then
      if c.value = BitVec.allOnes 64 then none
      else
        let d : Counter := { c with value := c.value + 1 }
        if d.next = 0 then some d else Counter.finishPhases n (d.setFields 1 0 (d.next - d.early) d.next)
    else some c

/-- A counter operation of the instruction class: the counter after it, or its fault (R230, R231). -/
def Counter.apply (c : Counter) (op : CounterOp) : Except Nat Counter :=
  let closed := c.mode != 1 || c.next == 0
  let done (d : Counter) : Except Nat Counter :=
    match Counter.finishPhases 4 d with
    | some e => .ok e
    | none => .error 0x20
  let arrive (p : Word) (drop : Bool) : Except Nat Counter :=
    let v := c.value.toNat
    if closed || p.toNat < v then .error 0x22
    else if v + 1 < p.toNat then .error 0x23
    else if p.toNat = v then
      done (c.setFields 1 c.early (c.pending - 1) (if drop then c.next - 1 else c.next))
    else if drop then
      if c.next - 1 < c.early then .error 0x22 else done (c.setFields 1 c.early c.pending (c.next - 1))
    else if c.next < c.early + 1 then .error 0x22
    else done (c.setFields 1 (c.early + 1) c.pending c.next)
  match op with
  | .add v => if 2 ^ 64 ≤ c.value.toNat + v.toNat then .error 0x20 else .ok { c with value := c.value + v }
  | .expect k =>
    if closed then .error 0x22
    else if 2 ^ 20 ≤ c.next + k.toNat || 2 ^ 20 ≤ c.pending + k.toNat then .error 0x21
    else .ok (c.setFields 1 c.early (c.pending + k.toNat) (c.next + k.toNat))
  | .bainit n => if 2 ^ 20 ≤ n.toNat then .error 0x21 else .ok (c.setFields 1 0 n.toNat n.toNat)
  | .arrive p => arrive p false
  | .drop p => arrive p true

/-- An engine-class add: a sum past 2^64 − 1 pins the value and sets OVF (R230). -/
def Counter.engineAdd (c : Counter) (v : Nat) : Counter :=
  if 2 ^ 64 ≤ c.value.toNat + v then { value := BitVec.allOnes 64, shadow := c.shadow ||| (1#64 <<< 62) }
  else { c with value := c.value + BitVec.ofNat 64 v }

/-- The bound of a bounded counter (R232). -/
def Counter.bound (c : Counter) : Nat := c.early * 2 ^ 20 + c.next

/-- CLAIM: the old value, or all ones (R232). -/
def Counter.claim (c : Counter) : Counter × Word :=
  if c.mode == 2 && decide (c.value.toNat < c.bound) then ({ c with value := c.value + 1 }, c.value)
  else (c, BitVec.allOnes 64)

/-- Counter n of a core. -/
def Core.counter (k : Core) (n : BitVec 8) : Counter := k.counters[n.toFin]

/-- The core with a counter replaced. -/
def Core.setCounter (k : Core) (n : BitVec 8) (x : Counter) : Core := { k with counters := k.counters.set n.toFin x }

/-! ### Records on their way -/

/-- Send a record to its home; it becomes ready after the delay (R200). -/
def State.sendRecord (s : State) (delay : Nat) (src dst : CoreId) (r : Record) : State :=
  s.send (delay + s.transit src dst) src dst r.lid r.cid 0 0 0 0 (.record r)

/-- A waiter is released with the value (R200, R233). -/
def State.releaseOne (s : State) (c : CoreId) (v : Word) (w : Waiter) : State :=
  s.sendRecord (if w.spilled then 1040 else 40) c w.home { w.record.untimed with x7 := v }

/-- Every waiter of a counter whose threshold a value meets is released with it, in parking order (R233). -/
def State.releaseAt (s : State) (c : CoreId) (idx : BitVec 8) (v : Word) : State :=
  let k := s.core c
  let hit (w : Waiter) : Bool := w.idx == idx && decide (w.thr.toNat ≤ v.toNat)
  let s := s.setCore c { k with waiters := k.waiters.filter (fun w => !hit w) }
  (k.waiters.filter hit).foldl (fun s w => s.releaseOne c v w) s

/-- A counter's waiters after a change: an operation that completed several phases released at each value on the way, the
others at the value that stands (R231, R233). -/
def State.releaseWaiters (s : State) (c : CoreId) (idx : BitVec 8) (steps : List Word := []) : State :=
  let s := steps.foldl (fun s v => s.releaseAt c idx v) s
  s.releaseAt c idx ((s.core c).counter idx).value

/-! ### Fired operations (R235) -/

/-- The next message number of a core in a launch (R259). -/
def State.nextSeq (s : State) (c : CoreId) (lid : Nat) : State × Word :=
  let k := s.core c
  let n := (assocGet k.msgCounts lid).getD 0
  (s.setCore c { k with msgCounts := assocSet k.msgCounts lid (n + 1) }, BitVec.ofNat 64 (c * 2 ^ 32 + n.toNat))

/-- Send a message of a core (R259); a fired one has no continuation. -/
def State.sendMessage (s : State) (c dst : CoreId) (lid cid seat tag hid : Nat) (words : List Word) (ia cpc : BitVec 48) :
    State :=
  let q := s.nextSeq c lid
  q.1.send (s.transit c dst) c dst lid cid seat tag ia cpc
    (.message { hid := hid, words := words, src := c, seq := q.2, lid := lid, clip := none })

/-- The kind of an engine record's minor (R261, R263). -/
def minorKind (minor op : Nat) : Option EngineKind :=
  match minor with
  | 0 => if op = 0 then some .fetch else none
  | 1 => if op = 0 then some .store else none
  | 2 => if op = 0 then some .tile else none
  | 3 => if op = 0 then some .gath else none
  | 4 => if op ≤ 7 && op != 5 then some (.amo op) else none
  | 5 => if op = 0 then some .cas else none
  | _ => none

/-- The engine command that an operation record carries (R235, R261, R265) (DEDUCED log 80). -/
def firedEngine (c : CoreId) (header : Word) (w : List Word) : Option EngineCmd :=
  let x32 := header.field 32 32
  let minor := header.field 4 4
  let cmd (k : EngineKind) : EngineCmd :=
    { kind := k, b := wordAt w 1, c := wordAt w 2, d := wordAt w 3, dc := field x32 24 8, sc := field x32 16 8, home := c }
  match header.field 0 4 with
  | 1 => if field x32 4 12 = 0 then (minorKind minor (field x32 0 4)).map cmd else none
  | 2 => if field x32 0 16 = 0 then some (cmd .lscopy) else none
  | 3 => if field x32 12 4 = 0 then some (cmd (.xcopy (field x32 0 12))) else none
  | _ => none

/-- The trap record of an operation record that fails its checks (R235), or that holds a poisoned word (R463, DEDUCED log 115). -/
def State.fireFailed (s : State) (c : CoreId) (lid record : Nat) (cause : Nat := 0x26) : State :=
  let ctx := ((s.launch lid).map (·.ctx)).getD (s.core c).ctx
  s.postTrap ctx (trapWords ctx lid 0 0 cause false false 0 0 c 0 (BitVec.ofNat 64 record) 0 0 0)

/-- An entry fires: the operation issues as an effect of the table's core, or a failure record goes to the hall (R235).  SEND and
CADD have no x32: a record of theirs with header bits 63:32 set fails (DEDUCED log 80). -/
def State.fire (s : State) (c : CoreId) (t : Trigger) : State :=
  let k := s.core c
  let w := bytesToWords 8 (k.store.bytes t.record 64)
  let header := wordAt w 0
  let kind := header.field 0 4
  let dst := chipCore (ptrAddr (wordAt w 1))
  let inside := match s.launchRect t.lid with | some r => rectHas r dst | none => false
  let failed : State := s.fireFailed c t.lid t.record
  match k.poisonIn t.record 64 with
  | some p => s.fireFailed c t.lid p 0x29
  | none =>
  if header.field 22 10 != 0 || header.field 11 5 != 0 || ((kind == 0 || kind == 4) && header.field 32 32 != 0) then failed
  else if kind = 0 then
    if header.field 8 3 ≤ 5 && ptrSpace (wordAt w 1) == 1 && inside then
      s.sendMessage c dst t.lid 0 4 0 (header.field 16 6) ((w.drop 3).take (header.field 8 3)) 0 0
    else failed
  else if kind = 4 then
    let u : State := { s with curCore := c, curSeat := 4 }
    match counterOperand u (wordAt w 1) with
    | .ok o =>
      let owner := if ptrSpace (wordAt w 1) = 0 then c else o.1
      s.send (s.transit c owner) c owner t.lid 0 4 0 0 0 (.engineAdd (wordAt w 1) o.2 (wordAt w 2))
    | .error _ => failed
  else
    match firedEngine c header w with
    | some cmd =>
      match cmd.kind with
      | .xcopy _ => s.send 0 c c t.lid 0 4 0 0 0 (.stream cmd (some t.record) s.fresh)
      | _ => s.send 0 c c t.lid 0 4 0 0 0 (.bqEntry cmd (some t.record))
    | none => failed

/-- The armed entries of a counter whose threshold the value meets fire and are disarmed; the arms that passed to the hall
leave for its software, which fires each at some cc within 4,000 of the crossing: the schedule says when (R234). -/
def State.fireTriggers (s : State) (c : CoreId) (idx : BitVec 8) : State :=
  let k := s.core c
  let v := (k.counter idx).value
  let hit (t : Trigger) : Bool := t.armed && t.idx == idx && decide (t.thr.toNat ≤ v.toNat)
  let s := s.setCore c { k with triggers := k.triggers.map (fun t => if hit t then { t with armed := false } else t)
                                hallArms := k.hallArms.filter (fun t => !hit t) }
  let s := (k.triggers.toList.filter hit).foldl (fun s t => s.fire c t) s
  (k.hallArms.filter hit).foldl (fun s t => s.send 0 2048 c t.lid 0 4 0 0 0 (.hallFire t)) s

/-! ### Clocks (R394) -/

/-- Step a core's clock by 125 MHz within 3.5 to 4.5 GHz, and remember the step for its barrier. -/
def State.stepClock (s : State) (owner : CoreId) (idx : BitVec 8) (c : CoreId) (d : Int) : State :=
  let k := s.core c
  if -4 ≤ k.clockStep + d && k.clockStep + d ≤ 4 then
    let s := s.setCore c { k with clockStep := k.clockStep + d }
    let o := s.core owner
    s.setCore owner { o with clockMoves := (idx, c, d) :: o.clockMoves }
  else s

/-- Every step taken for a barrier is undone; the arrivals of a phase under way stay recorded with the counter. -/
def State.undoClocks (s : State) (owner : CoreId) (idx : BitVec 8) : State :=
  let o := s.core owner
  let s := s.setCore owner { o with clockMoves := o.clockMoves.filter (·.1 != idx) }
  (o.clockMoves.filter (·.1 == idx)).foldl (fun s m =>
    let k := s.core m.2.1
    s.setCore m.2.1 { k with clockStep := k.clockStep - m.2.2 }) s

/-- A barrier that closes or is set up anew has no arrivals recorded, and its steps are undone. -/
def State.endClocks (s : State) (owner : CoreId) (idx : BitVec 8) : State :=
  let s := s.undoClocks owner idx
  let o := s.core owner
  s.setCore owner { o with arrivals := o.arrivals.filter (·.1 != idx) }

/-- An arrival for a phase is recorded with its counter. -/
def State.noteArrival (s : State) (owner : CoreId) (idx : BitVec 8) (src : CoreId) (phase : Nat) : State :=
  let o := s.core owner
  s.setCore owner { o with arrivals := assocSet o.arrivals idx (((assocGet o.arrivals idx).getD []) ++ [(src, phase)]) }

/-- A phase completes: the first arriver's clock goes down and the last arriver's goes up where they differ. -/
def State.phaseDone (s : State) (owner : CoreId) (idx : BitVec 8) (phase : Nat) : State :=
  let o := s.core owner
  let all := (assocGet o.arrivals idx).getD []
  let mine := (all.filter (·.2 == phase)).map (·.1)
  let s := s.setCore owner { o with arrivals := assocSet o.arrivals idx (all.filter (·.2 != phase)) }
  match mine.head?, mine.getLast? with
  | some a, some b =>
    if a = b then s
    else
      let s := s.stepClock owner idx a (-1)
      if Config.powerRoom s.powerCap s.fresh then s.stepClock owner idx b 1 else s
  | _, _ => s

/-- The clock consequences of a counter operation. -/
def State.clocks (s : State) (owner : CoreId) (idx : BitVec 8) (op : CounterOp) (src : CoreId) (old new : Counter) :
    State :=
  let after (p : Word) : State :=
    let s := s.noteArrival owner idx src p.toNat
    let s := (run old.value.toNat (new.value.toNat - old.value.toNat)).foldl (fun s v => s.phaseDone owner idx v) s
    if new.next = 0 then s.endClocks owner idx else s
  match op with
  | .bainit _ => s.endClocks owner idx
  | .arrive p => after p
  | .drop p => after p
  | _ => s

/-! ### Counter operations at the owner (R229 to R234) -/

/-- The service answers the wait requests whose threshold a counter meets (R445). -/
def State.answerWaits (s : State) (c : CoreId) (idx : BitVec 8) : State :=
  let v := ((s.core c).counter idx).value
  let hit (w : ServiceWait) : Bool := w.core == c && w.ctx == (s.core c).ctx && w.idx == idx && decide (w.thr.toNat ≤ v.toNat)
  { s with waits := s.waits.filter (fun w => !hit w)
           replies := s.replies ++ (s.waits.filter hit).map (fun w => { tag := w.tag, status := 0, body := [v] }) }

/-- After a counter has changed: waiters first, then triggers, and the requests that wait for it. -/
def State.counterChanged (s : State) (c : CoreId) (idx : BitVec 8) (steps : List Word := []) : State :=
  ((s.releaseWaiters c idx steps).fireTriggers c idx).answerWaits c idx

/-- The values that the completions of a barrier operation pass through (R231). -/
def completions (old new : Counter) : List Word :=
  if old.mode = 1 then (run (old.value.toNat + 1) (new.value.toNat - old.value.toNat)).map (BitVec.ofNat 64) else []

/-- A counter operation executes, or faults and changes nothing (R231, R249). -/
def State.counterOp (s : State) (c : CoreId) (idx : BitVec 8) (op : CounterOp) (src : CoreId) : Except Nat State :=
  let k := s.core c
  let old := k.counter idx
  match old.apply op with
  | .error e => .error e
  | .ok new =>
    .ok (((s.setCore c (k.setCounter idx new)).clocks c idx op src old new).counterChanged c idx
      (match op with | .arrive _ => completions old new | .drop _ => completions old new | _ => []))

/-- An engine-class add executes (R230); it waits while a commit holds the counter (R249). -/
def State.engineAdd (s : State) (c : CoreId) (idx : Nat) (v : Nat := 1) : State :=
  let i := BitVec.ofNat 8 idx
  let k := s.core c
  if k.counterHeld c i then s.send 0 c c 0 0 0 0 0 0 (.engineAdd 0 i (BitVec.ofNat 64 v))
  else (s.setCore c (k.setCounter i ((k.counter i).engineAdd v))).counterChanged c i

/-- The add of a command that names a counter; 255 names none (R218, R265, R337, R347). -/
def State.namedAdd (s : State) (c : CoreId) (idx : Nat) : State := if 255 ≤ idx then s else s.engineAdd c idx

/-- An engine-class add that comes with no event of its own: it is taken at once, or waits at the counter's core for its turn, and for
a core that takes no deliveries of its launch's context now (R229, R249, R407, R475); 255 names no counter. -/
def State.lateAdd (s : State) (lid : Nat) (c : CoreId) (idx : Nat) : State :=
  let there := isHall c || (s.launch lid).all (fun l => (s.core c).ctx == l.ctx)
  if 255 ≤ idx then s
  else if (s.core c).open' && there && s.addTurn c c idx then s.engineAdd c idx
  else s.send 0 c c lid 0 0 0 0 0 (.engineAdd 0 (BitVec.ofNat 8 idx) 1)

/-! ### Refusals and records for the hall (R249, R362, R405) -/

/-- The negative acknowledgement of an effect, on its way to the issuing seat (R362, R405). -/
def State.nack (s : State) (f : Flight) (cause : Nat) (arg : Word) : State :=
  s.send (s.transit f.dst f.src) f.dst f.src f.lid f.cid f.seat 0 f.ia f.cpc
    (.nack { cause := cause, arg := arg, ia := f.ia, cpc := f.cpc }) f.mig

/-- A record that cannot go on is held by a ticket, and its trap record goes to the hall (R252, R362) (DEDUCED log 54). -/
def State.recordToHall (s : State) (r : Record) (c seat cause : Nat) (arg : Word) (dfr : Bool) (ia cpc : BitVec 48)
    (mig : Bool) (more : Nat := 0) : State :=
  let ctx := s.itemCtx c r.lid r.cid
  let ticket := freeHandle (s.tickets.map (·.id)) s.fresh 1
  let t : Ticket := { id := ticket, core := c, seat := seat, ctx := ctx, record := some r }
  let s : State := { s with tickets := s.tickets ++ [t], fresh := s.fresh + 1 }
  s.postTrap ctx (trapWords ctx (if isHall c then 0 else r.lid) ticket more cause dfr mig seat ia c cpc arg r.w0 r.w1
    (if isHall c then 0 else r.x7))

/-- The seat that runs a continuation, lent seats apart. -/
def State.seatOfCid (s : State) (cid : Nat) : Option (CoreId × Nat) :=
  s.cores.findSome? (fun p => ((List.range 4).find? (fun n =>
    (p.2.seat n).cid == cid && (p.2.seat n).st != .free && (p.2.seat n).st != .lent)).map (fun n => (p.1, n)))

/-- A seat of a core that has been saved is one that something in flight is for: it waits until the core is back (R405, R407). -/
def State.savedSeat (s : State) (p : Seat → Bool) : Bool :=
  s.contexts.any (fun x => x.saved.any (fun q => (List.range 4).any (fun n =>
    let t := q.2.seat n
    t.st != .free && t.st != .lent && p t)))

/-- The record of the continuation behind an effect: its seat's, or the one kept when it retired, as far as it is known. -/
def State.endedRecord (s : State) (cid lid : Nat) : Record :=
  match s.seatOfCid cid, assocGet s.ended cid with
  | some (c, n), _ => (s.seat c n).record
  | none, some r => r
  | none, none => { Record.zero with w1 := BitVec.ofNat 64 (lid % 65536 * 2 ^ 11) }

/-- A refusal whose issuer has retired, or that no continuation issued, goes to the hall with ticket 0 (R235, R405). -/
def State.retiredTrap (s : State) (f : Flight) (t : DeferredTrap) : State :=
  let r := s.endedRecord f.cid f.lid
  let ctx := s.itemCtx f.dst f.lid f.cid
  s.postTrap ctx (trapWords ctx f.lid 0 0 t.cause true f.mig f.seat t.ia f.dst t.cpc t.arg r.w0 r.w1 (if isHall f.dst then 0 else r.x7))

/-! ### Messages and the mailbox -/

/-- The message queue has room (R236). -/
def Core.messageRoom (k : Core) : Bool := k.msgq.length < 64

/-- The order of entries: by key, largest first, then tie and tag, smallest first; an equal arrival goes below (R237). -/
def mailboxAbove (a b : Word) : Bool :=
  let ka := a.field 32 32
  let kb := b.field 32 32
  kb < ka || (ka == kb && a.field 0 32 ≤ b.field 0 32)

/-- Insert a post by rank. -/
def mailboxInsert (v : Word) : List Word → List Word
  | [] => [v]
  | e :: r => if mailboxAbove e v then e :: mailboxInsert v r else v :: e :: r

/-- A post (R237, R254). -/
def State.mailboxPost (s : State) (c : CoreId) (v : Word) : State :=
  let k := s.core c
  let m := k.mailbox
  let posts := min (2 ^ 32 - 1) (m.posts + 1)
  let m' : Mailbox := { m with entries := (mailboxInsert v m.entries).take m.k, posts := posts }
  let s := s.setCore c { k with mailbox := m' }
  if m.posts != posts && posts == m.expected then s.engineAdd c m.idx.toNat else s

/-- A configuration empties the mailbox (R237, R254). -/
def Core.mailboxConfig (k : Core) (depth : Nat) (idx : BitVec 8) (expected : Nat) : Core :=
  { k with mailbox := { k := depth, idx := idx, expected := expected, posts := 0, entries := [] } }

/-! ### Triggers -/

/-- A trap record for an arm of an armed entry; the arm passes to the hall, which fires it in software (R234) (DEDUCED log 74). -/
def State.triggerExhausted (s : State) (f : Flight) (c : CoreId) (e : BitVec 6) (t : Trigger) : State :=
  let k := s.core c
  let s := s.setCore c { k with hallArms := k.hallArms ++ [t] }
  (s.retiredTrap { f with dst := f.src }
    { cause := 0x25, arg := BitVec.ofNat 64 (e.toNat + t.idx.toNat * 256), ia := f.ia, cpc := f.cpc }).fireTriggers c t.idx

/-- TRIGARM at the owner (R234, R253). -/
def State.armTrigger (s : State) (f : Flight) (c : CoreId) (e : BitVec 6) (t : Trigger) : State :=
  let k := s.core c
  if (k.triggers[e.toFin]).armed then s.triggerExhausted f c e t
  else (s.setCore c { k with triggers := k.triggers.set e.toFin t }).fireTriggers c t.idx

/-- TRIGDIS at the owner (R253). -/
def Core.disarm (k : Core) (e : BitVec 6) : Core :=
  { k with triggers := k.triggers.set e.toFin { k.triggers[e.toFin] with armed := false } }

/-! ### Owner atomics (R255 to R257) -/

/-- The new contents of an atomic on memory, from the old ones (R255). -/
def amoResult (op : Nat) (old v w : Nat) : Nat :=
  match op with
  | 0 => (old + v) % 2 ^ 64
  | 1 => addF32 old (v % 2 ^ 32)
  | 2 => if signed v 64 < signed old 64 then v else old
  | 3 => if signed old 64 < signed v 64 then v else old
  | 4 => v
  | 5 => if old = w then v else old
  | 6 => old ||| v
  | 7 => old &&& v
  | 8 => (fpMinMax f32 false old (v % 2 ^ 32)).1
  | _ => (fpMinMax f32 true old (v % 2 ^ 32)).1

/-- An LSAMO executes at its owner: the state, the value returned and the refusal it gives (R256, R257, R463) (DEDUCED log 67). -/
def State.lsamoAt (s : State) (owner src : CoreId) (vf : Option Nat) (ptr : Word) (counter : Bool) (off op : Nat) (v w : Word) :
    State × Word × Option (Nat × Word) :=
  let k := s.core owner
  let idx := BitVec.ofNat 8 off
  let n := amoBytes op
  let admitted := owner == src || ptrSpace ptr == 0 ||
    (if counter then s.admits owner 1 (16 * off) 16 rightAmo src vf else s.admits owner 0 off n rightAmo src vf)
  if !admitted then (s, BitVec.allOnes 64, some (0x28, ptr))
  else if counter then
    if op = 10 then
      let r := (k.counter idx).claim
      ((s.setCore owner (k.setCounter idx r.1)).counterChanged owner idx, r.2, none)
    else
      match s.counterOp owner idx (.add v) src with
      | .ok t => (t, (k.counter idx).value, none)
      | .error e => (s, BitVec.allOnes 64, some (e, ptr))
  else
    match k.guardedBy off n, k.poisonIn off n with
    | some g, _ => (s, BitVec.allOnes 64, some (0x11, BitVec.ofNat 64 g))
    | none, some p => (s, BitVec.allOnes 64, some (0x29, BitVec.ofNat 64 p))
    | none, none =>
      let old := bytesToNat (k.store.bytes off n)
      let out := natToBytes n (amoResult op old v.toNat w.toNat)
      (s.setCore owner ({ k with store := k.store.write off out }.clearPoison off n), BitVec.ofNat 64 old, none)

/-! ### Flights taken at their owner -/

/-- The owner acknowledges a path effect to the committing core (R280). -/
def State.acknowledge (s : State) (f : Flight) : State :=
  (s.complete f.tag).send (s.transit f.dst f.src) f.dst f.src f.lid f.cid f.seat f.tag 0 0 .ack

/-- A deferred result on its way back to the seat (R32, R242). -/
def State.result (s : State) (f : Flight) (tag : Nat) (val : Word) (delay : Nat) : State :=
  s.send (delay + s.transit f.dst f.src) f.dst f.src f.lid f.cid f.seat tag f.ia f.cpc (.deferred tag val)

/-- A path effect executes at its owner (R249, R253, R254, R256): the state after it, with the refusal sent back. -/
def State.pathEffect (s : State) (f : Flight) (h : Held) : State :=
  match h with
  | .counter addr core idx op =>
    if core == f.src || ptrSpace addr == 0 || s.admits core 1 (16 * idx.toNat) 16 rightAmo f.src (s.flightVf f) then
      match s.counterOp core idx op f.src with
      | .ok t => t
      | .error e => s.nack f e addr
    else s.nack f 0x28 addr
  | .trigArm core e idx thr record => s.armTrigger f core e { armed := true, idx := idx, thr := thr, record := record, lid := f.lid }
  | .trigDis core e => s.setCore core ((s.core core).disarm e)
  | .mailboxConfig core depth idx expected => s.setCore core ((s.core core).mailboxConfig depth idx expected)
  | .mailboxPost core v =>
    if core == f.src || s.admits core 5 0 8 rightWr f.src (s.flightVf f) then s.mailboxPost core v
    else s.nack f 0x28 (chipPtr core 5 0)
  | .lsamo ptr core counter off op v w =>
    let r := s.lsamoAt core f.src (s.flightVf f) ptr counter off op v w
    let t := r.1.result f f.tag r.2.1 4
    match r.2.2 with
    | some (cause, arg) => t.nack f cause arg
    | none => t
  | _ => s

/-- Park a waiter, or release its record at once (R200, R233, R252). -/
def State.parkWaiter (s : State) (f : Flight) (addr : Word) (idx : BitVec 8) (thr : Word) (r : Record) : State :=
  let owner := f.dst
  let k := s.core owner
  let home := if isHall f.src then f.src else r.home
  let w : Waiter := { idx := idx, thr := thr, record := r, home := home, lid := r.lid,
                      spilled := 128 ≤ (k.waiters.filter (fun w => !w.spilled)).length }
  if !(owner == f.src || ptrSpace addr == 0 || s.admits owner 1 (16 * idx.toNat) 16 rightRd f.src (s.flightVf f)) then
    s.recordToHall r f.src f.seat 0x28 addr true f.ia f.cpc f.mig
  else if thr.toNat ≤ ((k.counter idx).value).toNat then
    s.releaseOne owner (k.counter idx).value { w with spilled := false }
  else s.setCore owner { k with waiters := k.waiters ++ [w] }

/-- A path effect in flight is taken. -/
def takeEffect (s : State) (f : Nat) (p : Held → Bool) : Option State := do
  let x ← s.arriving f
  match x.body with
  | .effect h => if p h then some (((s.dropFlight f).pathEffect x h).acknowledge x) else none
  | _ => none

/-- The value of a remote CREAD as the owner gives it, with the refusal where the right is missing (R251). -/
def State.creadValue (s : State) (owner src : CoreId) (vf : Option Nat) (addr : Word) (idx : BitVec 8) : Word × Bool :=
  if owner == src || ptrSpace addr == 0 || s.admits owner 1 (16 * idx.toNat) 16 rightRd src vf then
    (((s.core owner).counter idx).value, true)
  else (BitVec.allOnes 64, false)

/-- The seat whose group waits for a read's value gets it: the result is there some cc after the read, and the way back (R191, R242,
R251).  A synchronising load that waits for the read goes on. -/
def State.readLands (s : State) (x : Flight) (v : Vec) (latency : Nat) : State :=
  let fill (g : GroupResult) : GroupResult :=
    if g.waits = x.tag then { g with val := v, waits := 0, readyAt := s.cycle + latency + s.transit x.dst x.src } else g
  let t := s.seat x.src x.seat
  s.setSeat x.src x.seat ({ t with results := t.results.map fill } : Seat).wake

/-- The bytes that a load away from home finds: the chunk's own stores as they were at issue, over the home core's store (R191,
R196). -/
def Core.loaded (k : Core) (places : List Nat) (n : Nat) (own : List Host.Cell) : List (List Byte) :=
  places.map (fun a => (run a n).map (fun i => (assocGet own i).getD (k.store.get i)))

/-- The value that a load makes of its bytes, and its local latency (R10, R151, R156, R243). -/
def LoadForm.value (f : LoadForm) (bs : List (List Byte)) : Vec × Nat :=
  match f with
  | .scalar w => ((loadExtend w (bytesToNat bs.flatten)).setWidth 1024, 4)
  | .vector => (BitVec.ofNat 1024 (bytesToNat bs.flatten), 6)
  | .gather fmt lanes kept =>
    let got := lanes.zip (bs.map bytesToNat)
    (ofLanes (fmtBits fmt) ((List.range (elems fmt)).map (fun i => (assocGet got i).getD (lane kept fmt i))), 8)

/-- A load of a migrated chunk at its home core (R191): a word found poisoned by then aborts the chunk (R463). -/
def State.loadLands (s : State) (x : Flight) (places : List Nat) (n : Nat) (own : List Host.Cell) (form : LoadForm) : State :=
  let k := s.core x.dst
  let t := s.seat x.src x.seat
  match places.findSome? (fun a => k.poisonIn a n) with
  | some p => if t.results.any (fun g => g.waits == x.tag) then s.fault x.src x.seat 0x29 (BitVec.ofNat 64 p) x.ia else s
  | none => let v := form.value (k.loaded places n own); s.readLands x v.1 v.2

/-- COUNTER_UPDATE_AT_OWNER (R229, R231, R249): an update of an instruction, a fired add (R230, R235), or a read (R251); a load of a
migrated chunk comes to its home core here too (R191). -/
def execCounterUpdateAtOwner (f : Nat) (s : State) : Host.Outcome State Fault Refusal :=
  event s (do
    let x ← s.arriving f
    match x.body with
    | .engineAdd addr idx v =>
      let t := s.dropFlight f
      if x.dst == x.src || ptrSpace addr == 0 || s.admits x.dst 1 (16 * idx.toNat) 16 rightAmo x.src (s.flightVf x) then
        some (t.engineAdd x.dst idx.toNat v.toNat)
      else some (t.retiredTrap { x with dst := x.src } { cause := 0x28, arg := addr, ia := x.ia, cpc := x.cpc })
    | .load places n own form => some ((s.dropFlight f).loadLands x places n own form)
    | .cread addr idx =>
      let t := s.dropFlight f
      let r := t.creadValue x.dst x.src (s.flightVf x) addr idx
      let u := t.readLands x (r.1.setWidth 1024) 4
      some (if r.2 then u else u.nack x 0x28 addr)
    | _ => takeEffect s f (fun h => match h with | .counter .. => true | _ => false))

/-- WAITC_ARM_AT_OWNER (R200, R233, R252). -/
def execWaitcArmAtOwner (f : Nat) (s : State) : Host.Outcome State Fault Refusal :=
  event s (do
    let x ← s.arriving f
    match x.body with
    | .waitc addr idx thr r => some (((s.dropFlight f).parkWaiter x addr idx thr r).acknowledge x)
    | _ => none)

/-- TRIGGER_ARM_AT_OWNER (R234, R253); the hall's software fires an arm that passed to it here too. -/
def execTriggerArmAtOwner (f : Nat) (s : State) : Host.Outcome State Fault Refusal :=
  event s (do
    let x ← s.arriving f
    match x.body with
    | .hallFire t => some ((s.dropFlight f).fire x.dst t)
    | _ => takeEffect s f (fun h => match h with | .trigArm .. => true | .trigDis .. => true | _ => false))

/-- LSAMO_EXECUTE (R255 to R257). -/
def execLsamoExecute (f : Nat) (s : State) : Host.Outcome State Fault Refusal :=
  event s (takeEffect s f (fun h => match h with | .lsamo .. => true | _ => false))

/-- MAILBOX_OPERATION (R237, R254): a configuration, a post, or the take of an entry. -/
def execMailboxOperation (f : Nat) (s : State) : Host.Outcome State Fault Refusal :=
  event s (do
    let x ← s.arriving f
    match x.body with
    | .mbtake rank => some ((s.dropFlight f).result x x.tag ((s.core x.dst).mailbox.atRank rank) 8)
    | _ => takeEffect s f (fun h => match h with | .mailboxConfig .. => true | .mailboxPost .. => true | _ => false))

/-- MESSAGE_ARRIVAL (R236, R259, R260): the message joins the queue; with the queue full it waits at the sender. -/
def execMessageArrival (f : Nat) (s : State) : Host.Outcome State Fault Refusal :=
  event s (do
    let x ← s.arriving f
    match x.body with
    | .message m =>
      let k := s.core x.dst
      if k.messageRoom then
        let t := (s.dropFlight f).setCore x.dst { k with msgq := k.msgq ++ [m] }
        some (if x.body.orderClass = 1 then t.acknowledge x else t)
      else none
    | _ => none)

/-- MESSAGE_QUEUE_RETRY (R236): the sender's interface tries a message again after another transit. -/
def execMessageQueueRetry (f : Nat) (s : State) : Host.Outcome State Fault Refusal :=
  event s (do
    let x ← s.arriving f
    match x.body with
    | .message _ =>
      if (s.core x.dst).messageRoom then none
      else
        let later (g : Flight) : Flight := { g with due := s.cycle + 2 * s.transit x.src x.dst + 1 }
        some { s with flights := mapFirst (fun g => g.id == f) later s.flights }
    | _ => none)

/-- PATH_EFFECT_ACKNOWLEDGEMENT (R280). -/
def execPathEffectAcknowledgement (f : Nat) (s : State) : Host.Outcome State Fault Refusal :=
  event s (do
    let x ← s.flight f
    match x.body with
    | .ack =>
      if x.due ≤ s.cycle then
        let t := s.dropFlight f
        some { t with openOps := t.openOps.filter (fun o => o.tag != x.tag) }
      else none
    | _ => none)

end Sys2Proof.Machine
end

