-- ==== Sys2Proof/Machine/Larder.lean ====
section
/-!
DEFINITION. Lists and queues of records: ready and work lists, the larders' queues, load-levelling, spawns, the horizon and
energy (R201, R207, R375 to R387, R392, R393).
-/
namespace Sys2Proof.Machine

/-! ### Lists -/

/-- The fields of a record that decide where it goes (R188). -/
def Record.migratable (r : Record) : Bool := r.w0.bit 48

def Record.isTask (r : Record) : Bool := r.w0.bit 49

/-- A record on its way to a priority queue or a first-in first-out queue of a larder (R377). -/
def State.pushFlight (s : State) (src : CoreId) (larder : Nat) (qn : Option Nat) (lid cid seat tag : Nat) (r : Record) :
    State :=
  s.send 600 src src lid cid seat tag 0 0 (.push larder qn r)

/-- A hall core that has been retired (R471); hall core 2,048 + h stands as 4,096 + h among the physical cores. -/
def State.hallRetired (s : State) (c : CoreId) : Bool := isHall c && s.retired.contains (c + 2048)

/-- The hall cores that work. -/
def State.workingHalls (s : State) : List CoreId := (run 2048 16).filter (fun c => !s.hallRetired c)

/-- A hall thread is ready for a seat: it joins the tail of the run queue, which all hall cores share (R396). -/
def State.queueThread (s : State) (h : HallThread) : State :=
  { s with runQueue := s.runQueue.filter (·.cid != h.cid) ++ [{ h with ready := true, place := none }] }

/-- A record joins a core's ready list; a hall thread's joins the run queue, and another one that is for a retired hall core the
list of a working one (R396, R471). -/
def State.toReady (s : State) (c : CoreId) (r : Record) : State :=
  match (if isHall c then s.thread r.cid else none) with
  | some h => s.queueThread { h with record := some r }
  | none =>
    let c := if s.hallRetired c then s.workingHalls.head?.getD c else c
    let k := s.core c
    s.setCore c { k with ready := k.ready ++ [r] }

/-- A record joins a core's work list, or the priority queue of the nearest larder when 32 records are there (R207).  A push
under a tag is complete where the record is taken (R278). -/
def State.toWork (s : State) (c : CoreId) (r : Record) (tag : Nat := 0) : State :=
  let k := s.core c
  if k.work.length < 32 then (s.setCore c { k with work := k.work ++ [r] }).complete tag
  else s.pushFlight c (nearestLarder c) none r.lid r.cid 0 tag r

/-- The list that a record goes to at a core (R200, R351, R375). -/
def State.toList (s : State) (c : CoreId) (r : Record) : State :=
  if r.migratable && !isHall c then s.toWork c r else s.toReady c r

/-- A negative acknowledgement travels ahead of every record that a later operation of its path releases to the issuing core
(R362). -/
def State.nackBefore (s : State) (x : Flight) : Bool :=
  s.flights.any (fun g => g.id < x.id && g.src == x.src && g.dst == x.dst && (match g.body with | .nack _ => true | _ => false))

/-- A line that came with a record is in the core's cache (R376). -/
def State.keepLine (s : State) (c : CoreId) (line : Option (Nat × List Byte)) : State :=
  match line with
  | some l => let k := s.core c; s.setCore c { k with lines := assocSet k.lines l.1 l.2 }
  | none => s

/-- RECORD_READY (R200, R233); a record placed by TSPAWNAT goes to the ready list (R380), and an initial record brings its entry
line (R376). -/
def execRecordReady (f : Nat) (s : State) : Host.Outcome State Fault Refusal :=
  event s (do
    let x ← s.arriving f
    match x.body with
    | .record r =>
      if s.nackBefore x then none else some (((s.dropFlight f).toList x.dst r).complete x.tag)
    | .spawned r => some (((s.dropFlight f).toReady x.dst r).complete x.tag)
    | .initial r line => some (((s.dropFlight f).keepLine x.dst line).toList x.dst r)
    | _ => none)

/-- LEVELLED_RECORD_ARRIVAL (R207). -/
def execLevelledRecordArrival (f : Nat) (s : State) : Host.Outcome State Fault Refusal :=
  event s (do
    let x ← s.arriving f
    match x.body with
    | .levelled r => some ((s.dropFlight f).toWork x.dst r)
    | _ => none)

/-- The neighbours of a core inside a rectangle in the order north, east, south, west (R207). -/
def neighbours (r : Word) (c : CoreId) : List CoreId :=
  let north := if coreRow c = 0 then [] else [c - 64]
  let east := if coreCol c = 63 then [] else [c + 1]
  let south := if coreRow c = 31 then [] else [c + 64]
  let west := if coreCol c = 0 then [] else [c - 1]
  (north ++ east ++ south ++ west).filter (rectHas r)

/-- What one core ships at a balancing point, given the lengths as they stood (R207). -/
def levelPlan (len : CoreId → Nat) (r : Word) (c : CoreId) : Option (CoreId × Nat) :=
  let ns := neighbours r c
  let least := leastOr (len c) (ns.map len)
  if least + 2 ≤ len c then (ns.find? (fun n => len n == least)).map (fun n => (n, min 4 ((len c - least) / 2))) else none

/-- One core ships records from the tail of its work list. -/
def State.shipTail (s : State) (c d : CoreId) (n : Nat) : State :=
  let k := s.core c
  let keep := k.work.length - n
  let s := s.setCore c { k with work := k.work.take keep }
  (k.work.drop keep).foldl (fun s r => s.send (s.transit c d) c d r.lid r.cid 0 0 0 0 (.levelled r)) s

/-- LOAD_LEVELLING (R207): every core of the launch at one cc, on the lengths as they stand then. -/
def execLoadLevelling (lid : Nat) (s : State) : Host.Outcome State Fault Refusal :=
  event s (do
    let l ← s.launch lid
    if s.cycle < l.levelAt then none
    else
      let len (c : CoreId) : Nat := (s.core c).work.length
      let plans := (rectCores l.rect).filterMap (fun c => (levelPlan len l.rect c).map (fun p => (c, p)))
      let t := plans.foldl (fun s p => s.shipTail p.1 p.2.1 p.2.2) s
      some (t.modLaunch lid (fun l => { l with levelAt := l.levelAt + l.levint })))

/-! ### Larder queues (R377, R381) -/

/-- The records of a launch's queue at a larder. -/
def Launch.queue (l : Launch) (larder : Nat) (qn : Option Nat) : Nat :=
  match qn with
  | some q => ((assocGet l.fifos (larder, q)).getD []).length
  | none => ((l.prio0 ++ l.prio1).filter (·.larder == larder)).length

/-- Append a record to a queue. -/
def Launch.push (l : Launch) (larder : Nat) (qn : Option Nat) (r : Record) : Launch :=
  match qn with
  | some q => { l with fifos := assocSet l.fifos (larder, q) (((assocGet l.fifos (larder, q)).getD []) ++ [r]) }
  | none =>
    if r.isTask then { l with prio1 := l.prio1 ++ [{ larder := larder, record := r }] }
    else { l with prio0 := l.prio0 ++ [{ larder := larder, record := r }] }

/-- How many records a queue can hold, with what the hall has added (R377). -/
def Launch.capacity (l : Launch) (larder : Nat) (qn : Option Nat) : Nat :=
  2 ^ 24 + (assocGet l.extended (larder, match qn with | some q => q | none => 64)).getD 0

/-- An earlier push to the same queue still waits for its extension. -/
def State.extending (s : State) (lid larder : Nat) (qn : Option Nat) (before : Nat) : Bool :=
  s.flights.any (fun g => g.id < before && g.lid == lid &&
    (match g.body with | .extend l q _ => l == larder && q == qn | _ => false))

/-- LARDER_PUSH (R377, R381): the record is taken, or a full queue passes it to the hall. -/
def execLarderPush (f : Nat) (s : State) : Host.Outcome State Fault Refusal :=
  event s (do
    let x ← s.flight f
    match x.body with
    | .push larder qn r => do
      if s.cycle < x.due then none
      else
        let l ← s.launch x.lid
        if l.queue larder qn < l.capacity larder qn && !s.extending x.lid larder qn x.id then
          some (((s.dropFlight f).modLaunch x.lid (fun l => l.push larder qn r)).complete x.tag)
        else
          let g : Flight := { x with due := s.cycle + 20000, body := .extend larder qn r }
          some { s with flights := mapFirst (fun y => y.id == f) (fun _ => g) s.flights }
    | _ => none)

/-- QUEUE_EXTENSION (R377): the hall extends the queue and the push completes in its place. -/
def execQueueExtension (f : Nat) (s : State) : Host.Outcome State Fault Refusal :=
  event s (do
    let x ← s.flight f
    match x.body with
    | .extend larder qn r =>
      if s.extending x.lid larder qn x.id then none
      else
        let key := (larder, match qn with | some q => q | none => 64)
        let grow (l : Launch) : Launch :=
          { l with extended := assocSet l.extended key ((assocGet l.extended key).getD 0 + 1) }
        some (((s.dropFlight f).modLaunch x.lid (fun l => (grow l).push larder qn r)).complete x.tag)
    | _ => none)

/-- LARDER_POP (R381): the head record is removed and lands; the status follows. -/
def execLarderPop (f : Nat) (s : State) : Host.Outcome State Fault Refusal :=
  event s (do
    let x ← s.flight f
    match x.body with
    | .pop larder qn dst home => do
      if s.cycle < x.due || !(s.core home).lands f then none
      else
        let l ← s.launch x.lid
        let q := (assocGet l.fifos (larder, qn)).getD []
        let s := (s.dropFlight f).modLaunch x.lid (fun l => { l with fifos := assocSet l.fifos (larder, qn) (q.drop 1) })
        let t := s.seat x.src x.seat
        let note (p : Popped) : Popped := { p with record := q.head? }
        let s := s.setSeat x.src x.seat { t with popped := mapFirst (fun p => p.tag == x.tag) note t.popped }
        let out := s.deliverPop home (ptrAddr dst) q.head?
        let s := out.1.send 0 x.src x.src x.lid x.cid x.seat x.tag x.ia x.cpc (.deferred x.tag out.2.1)
        some (match out.2.2 with
          | some g => s.deferTrap 0 x.src x.src x.cid x.seat x.lid 0x11 (BitVec.ofNat 64 (0x100 + g)) x.ia x.cpc x.mig
          | none => s)
    | _ => none)

/-! ### Keys and the horizon (R378, R386) -/

/-- A task's key: timestamp, then spawn id (R378). -/
abbrev Key := Nat × Nat

/-- Keys compare timestamp first. -/
def keyLt (a b : Key) : Bool := a.1 < b.1 || (a.1 == b.1 && a.2 < b.2)

/-- The lesser key. -/
def keyMin (a b : Key) : Key := if keyLt b a then b else a

/-- The key of all ones. -/
def topKey : Key := (2 ^ 64 - 1, 2 ^ 64 - 1)

/-- A record's key. -/
def Record.key (r : Record) : Key := (r.w2.toNat, r.x7.toNat)

/-- The key of the task on a seat. -/
def TaskState.key (t : TaskState) : Key := (t.stamp.toNat, t.spawnId.toNat)

/-- Every core's state: on the chip, and saved (R409). -/
def State.allCores (s : State) : List (CoreId × Core) := s.cores ++ s.contexts.flatMap (·.saved)

/-- The task that a seat transfer in flight carries, with its launch. -/
def Body.task : Body → Option (Nat × TaskState)
  | .transfer t => t.task.map (fun x => (t.record.lid, x))
  | .transferBack t => if t.retired then none else t.task.map (fun x => (t.record.lid, x))
  | _ => none

/-- The tasks of a launch that have a seat, on a saved core too, or are between two seats. -/
def State.seatTasks (s : State) (lid : Nat) : List TaskState :=
  s.allCores.flatMap (fun p => [p.2.seat0, p.2.seat1, p.2.seat2, p.2.seat3].filterMap (fun t =>
    if t.lid = lid && !isHall p.1 && t.lentTo.isNone then t.task else none)) ++
  s.flights.filterMap (fun f => f.body.task.bind (fun x => if x.1 = lid then some x.2 else none))

/-- The record a flight carries to a list or a priority queue. -/
def Body.listed : Body → Option Record
  | .record r => some r
  | .spawned r => some r
  | .initial r _ => some r
  | .levelled r => some r
  | .pulled r => r
  | .push _ none r => some r
  | .extend _ none r => some r
  | .transfer t => some t.record
  | .transferBack t => if t.retired then none else some t.record
  | _ => none

/-- The keys of a launch's tasks that wait on lists, in queues or in flight (R386). -/
def State.waitingKeys (s : State) (lid : Nat) : List Key :=
  let lists := s.allCores.flatMap (fun p => p.2.ready ++ p.2.work)
  let queued := match s.launch lid with
    | some l => (l.prio0 ++ l.prio1).map (·.record) ++ l.pending
    | none => []
  let flying := s.flights.filterMap (·.body.listed)
  ((lists ++ queued ++ flying).filter (fun r => r.isTask && r.lid == lid)).map (·.key)

/-- The keys of the ts = 1 records in a launch's first-in first-out queues (R386). -/
def State.fifoKeys (s : State) (lid : Nat) : List Key :=
  match s.launch lid with
  | some l => ((l.fifos.flatMap (·.2)).filter (·.isTask)).map (·.key)
  | none => []

/-- The least key of the unfinished tasks (R386) (DEDUCED log 52). -/
def State.leastUnfinished (s : State) (lid : Nat) : Key :=
  (((s.seatTasks lid).filter (fun t => !t.finished)).map (·.key) ++ s.waitingKeys lid ++ s.fifoKeys lid).foldl keyMin topKey

/-- Every task of a smaller key has committed (R385, R387). -/
def State.smallerCommitted (s : State) (lid : Nat) (k : Key) : Bool :=
  ((s.seatTasks lid).map (·.key) ++ s.waitingKeys lid).all (fun j => !keyLt j k)

/-- The working horizon (R386); none before the first reduction has arrived (DEDUCED log 51). -/
def Launch.workingHorizon (l : Launch) : Option Key :=
  l.horizon.map (fun h => ((l.issuedKeys.filter (fun i => l.horizonFrom ≤ i.1)).map (·.2)).foldl keyMin h)

/-- A core of the launch is saved (R409). -/
def State.launchSaved (s : State) (l : Launch) : Bool :=
  match s.context l.ctx with
  | some x => x.saved.any (fun p => rectHas l.rect p.1)
  | none => false

/-- HORIZON_REDUCTION (R386, R409): every 256 cc, none while a core of the launch is saved. -/
def execHorizonReduction (lid : Nat) (s : State) : Host.Outcome State Fault Refusal :=
  event s (do
    let l ← s.launch lid
    if s.cycle < l.horizonAt then none
    else
      let r : Reduction := { key := s.leastUnfinished lid, startedAt := s.cycle, dueAt := s.cycle + 640 }
      let saved := s.launchSaved l
      some (s.modLaunch lid (fun l =>
        { l with horizonAt := l.horizonAt + 256, reductions := if saved then l.reductions else l.reductions ++ [r] })))

/-- HORIZON_RESULT (R386): the result reaches the cores and the arbiters; while a core of the launch is saved the last one stands
(R409). -/
def execHorizonResult (lid : Nat) (s : State) : Host.Outcome State Fault Refusal :=
  event s (do
    let l ← s.launch lid
    let r ← l.reductions.head?
    if s.cycle < r.dueAt then none
    else if s.launchSaved l then some (s.modLaunch lid (fun l => { l with reductions := l.reductions.drop 1 }))
    else some (s.modLaunch lid (fun l =>
      { l with horizon := some r.key, horizonFrom := r.startedAt, reductions := l.reductions.drop 1,
               issuedKeys := l.issuedKeys.filter (fun i => r.startedAt ≤ i.1) })))

/-! ### Spawns (R378 to R380, R382) -/

/-- The spawn id of a core under a count (R378). -/
def spawnId (c : CoreId) (n : BitVec 32) : Word := BitVec.ofNat 64 (c % 2048 * 2 ^ 32 + n.toNat)

/-- The count that the first of m spawns of a core in a launch takes, and the state with the count past them (R378). -/
def State.takeSpawns (s : State) (c : CoreId) (lid m : Nat) : State × BitVec 32 :=
  let k := s.core c
  let n := (assocGet k.spawnCounts lid).getD 0
  (s.setCore c { k with spawnCounts := assocSet k.spawnCounts lid (n + BitVec.ofNat 32 m) }, n)

/-- The spawn id that a core's next commit in a launch takes (R378). -/
def State.nextSpawn (s : State) (c : CoreId) (lid : Nat) : State × Word :=
  let q := s.takeSpawns c lid 1
  (q.1, spawnId c q.2)

/-- A running task that meets both conditions of R385 is in place, whether or not a commit has come since. -/
def State.meetsPlace (s : State) (l : Launch) (t : TaskState) : Bool :=
  t.inPlace || (!t.finished && l.workingHorizon == some t.key && s.smallerCommitted l.lid t.key)

/-- A task that ends while speculative is finished (R385). -/
def Seat.finish (t : Seat) : Seat :=
  match t.boundary, t.task with
  | some .hend, some x => if x.inPlace then t else { t with task := some { x with finished := true } }
  | some (.waitc ..), some x => if x.inPlace then t else { t with task := some { x with finished := true } }
  | _, _ => t

/-- The largest timestamp of a launch's committed and in-place tasks goes up (R379). -/
def Launch.reach (l : Launch) (stamp : Nat) : Launch :=
  { l with topStamp := some (match l.topStamp with | some f => max f stamp | none => stamp) }

/-- The task of a seat is in place from here on, its routes no longer speculative (R337, R385). -/
def State.putInPlace (s : State) (c n : Nat) : State :=
  let t := s.seat c n
  match t.task with
  | none => s
  | some x =>
    let k := s.core c
    let k : Core := { k with routes := k.routes.map (fun r => if r.cid == t.cid then { r with spec := false } else r) }
    ((s.setCore c k).setSeat c n { t with task := some { x with inPlace := true } }).modLaunch t.lid (fun l => l.reach x.stamp.toNat)

/-- A task that meets both conditions of R385 at a boundary is in place from then on; a speculative one that has reached its end
there is finished. -/
def State.placeTask (s : State) (c n : Nat) : State :=
  let t := s.seat c n
  match t.task, s.launch t.lid with
  | some x, some l => if s.meetsPlace l x then s.putInPlace c n else s.setSeat c n t.finish
  | _, _ => s.setSeat c n t.finish

/-- F of R379: the largest timestamp of a launch's tasks that have committed or are in place. -/
def State.topStamp (s : State) (l : Launch) : Option Nat :=
  (((s.seatTasks l.lid).filter (s.meetsPlace l)).map (·.stamp.toNat)).foldl
    (fun f t => some (match f with | some g => max g t | none => t)) l.topStamp

/-- The timestamp of a spawned task; none when it would be 2^63 or more (R379). -/
def State.stampFor (s : State) (l : Launch) (requested : Nat) : Option Nat :=
  let t := match s.topStamp l with | some f => max requested (f + 1) | none => requested
  if t < 2 ^ 63 then some t else none

/-- A word 1 with its launch and its reserved fields cleared (R188, R380). -/
def spawnWord1 (w : Word) (lid : Nat) : Word :=
  BitVec.ofNat 64 (w.field 35 6 * 2 ^ 35 + w.field 34 1 * 2 ^ 34 + w.field 27 2 * 2 ^ 27 + lid % 65536 * 2 ^ 11 + w.field 0 11)

/-- A word 0 with res cleared, and a bit set or cleared. -/
def word0With (w : Word) (bit : Nat) (on : Bool) : Word :=
  let v := w &&& ~~~(1#64 <<< 54) &&& ~~~(1#64 <<< bit)
  if on then v ||| (1#64 <<< bit) else v

/-- A spawn's key is remembered until the next horizon covers it (R386). -/
def State.issueKey (s : State) (lid : Nat) (k : Key) : State :=
  s.modLaunch lid (fun l => { l with issuedKeys := l.issuedKeys ++ [(s.cycle, k)] })

/-- The record of a spawn with its spawn id and timestamp; none when the timestamp is out of range (R379, R380). -/
def State.spawnedTask (s : State) (l : Launch) (words : List Word) (id : Word) (requested : Nat) : Option Record :=
  (s.stampFor l requested).map (fun t =>
    let r := Record.ofWords words id
    { r with w0 := word0With r.w0 49 true, w1 := spawnWord1 r.w1 l.lid, w2 := BitVec.ofNat 64 t })

/-- TSPAWN and TSPAWNAT at their commit (R380): the state, or a drop (R379). -/
def State.spawnTask (s : State) (c : CoreId) (lid cid seat tag : Nat) (prio : Bool) (words : List Word) (stamp : Word)
    (dst : CoreId) : Option State :=
  let q := s.nextSpawn c lid
  match s.launch lid with
  | none => none
  | some l =>
    match s.spawnedTask l words q.2 stamp.toNat with
    | none => none
    | some r =>
      let s := q.1.issueKey lid r.key
      some (if prio then s.pushFlight c (nearestLarder dst) none lid cid seat tag r
        else if dst = c then (s.toReady c r).complete tag
        else s.send (s.transit c dst + 4) c dst lid cid seat tag 0 0 (.spawned r))

/-- WLPUSH at its commit (R382). -/
def State.pushWork (s : State) (c : CoreId) (lid tag : Nat) (words : List Word) : Option State :=
  let q := s.nextSpawn c lid
  match s.launch lid with
  | none => none
  | some l =>
    let r := Record.ofWords words q.2
    let r : Record := { r with w0 := word0With r.w0 48 true, w1 := spawnWord1 r.w1 lid }
    if r.isTask then
      match s.stampFor l r.w2.toNat with
      | none => none
      | some t =>
        let r : Record := { r with w2 := BitVec.ofNat 64 t }
        some ((q.1.issueKey lid r.key).toWork c r tag)
    else some (q.1.toWork c r tag)

/-! ### Pulls from the priority queue (R201, R384, R392) -/

/-- The launches whose priority queue a core may pull from, the class first and the one served longest ago first (R392). -/
def State.pullOrder (s : State) (c : CoreId) : List Launch :=
  let mine := s.launches.filter (fun l => rectHas l.rect c && l.ctx == (s.core c).ctx)
  (List.range 8).flatMap (fun p =>
    let cls := mine.filter (fun l => l.prio == p)
    let times := cls.foldl (fun t l => insertSorted l.servedLast t) []
    times.flatMap (fun t => cls.filter (fun l => l.servedLast == t)))

/-- The record a pull takes from one launch at one larder: the ts = 0 class first, then the least key inside the window
(R377, R384). -/
def Launch.pull (l : Launch) (larder : Nat) : Option (Record × Launch) :=
  match takeFirst (fun q : Queued => q.larder == larder) l.prio0 with
  | some (q, rest) => some (q.record, { l with prio0 := rest })
  | none =>
    let h := match l.horizon with | some k => k.1 | none => 0
    let ok := l.prio1.filter (fun q => q.larder == larder && decide (q.record.w2.toNat ≤ h + l.window))
    match ok with
    | [] => none
    | q :: r =>
      let best := (r.map (·.record.key)).foldl keyMin q.record.key
      match takeFirst (fun q : Queued => q.larder == larder && q.record.key == best) l.prio1 with
      | some (x, rest) => some (x.record, { l with prio1 := rest })
      | none => none

/-- The first launch in the order that has a record for the pull. -/
def pullFirst (larder : Nat) : List Launch → Option (Record × Launch)
  | [] => none
  | l :: r => (l.pull larder).orElse (fun _ => pullFirst larder r)

/-- PRIORITY_PULL (R201, R384): the larder takes a record and sends it back, or an empty answer. -/
def execPriorityPull (f : Nat) (s : State) : Host.Outcome State Fault Refusal :=
  event s (do
    let x ← s.flight f
    match x.body with
    | .pull larder =>
      if s.cycle < x.due then none
      else
        let s := s.dropFlight f
        match pullFirst larder (s.pullOrder x.src) with
        | none => some (s.send 300 x.src x.src 0 0 0 0 0 0 (.pulled none))
        | some (r, l) =>
          let s := s.modLaunch l.lid (fun _ => { l with servedLast := s.cycle + 1 })
          some (s.send 300 x.src x.src l.lid r.cid 0 0 0 0 (.pulled (some r)))
    | _ => none)

/-- PRIORITY_PULL_RETURN (R201): the record joins the tail of the core's ready list. -/
def execPriorityPullReturn (f : Nat) (s : State) : Host.Outcome State Fault Refusal :=
  event s (do
    let x ← s.arriving f
    match x.body with
    | .pulled r =>
      let t := s.dropFlight f
      let t := t.setCore x.dst { t.core x.dst with pulling := false }
      some (match r with | some r => t.toReady x.dst r | none => t)
    | _ => none)

/-! ### Energy -/

/-- ENERGY_BUDGET_REACHED (R393): one class lower, one more drop, and an energy record to the hall (DESIGN CHOICE log 56). -/
def execEnergyBudgetReached (lid : Nat) (s : State) : Host.Outcome State Fault Refusal :=
  event s (do
    let l ← s.launch lid
    if l.energy = 0 then none
    else
      let prio := min 7 (l.prio + 1)
      let s := s.modLaunch lid (fun l => { l with prio := prio, drops := (l.drops + 1) % 2 ^ 32 })
      some (s.postTrap l.ctx (trapWords l.ctx lid 0 0 0x31 false false 0 0 0 0
        (BitVec.ofNat 64 ((l.drops + 1) % 2 ^ 32 * 2 ^ 32 + prio)) 0 0 0)))

end Sys2Proof.Machine
end

