-- ==== Sys2Proof/Machine/GroupUnit.lean ====
section
/-!
DEFINITION. The sample-group unit: configuring, forking, rewards, cancellation, settlement and its statistics (R346 to R358).
-/
namespace Sys2Proof.Machine

/-! ### Slots -/

/-- Slot n of a core's unit. -/
def Core.group (k : Core) (n : Nat) : GroupSlot := k.groups.toList.getD n GroupSlot.free

/-- The core with a slot replaced. -/
def Core.setGroup (k : Core) (n : Nat) (g : GroupSlot) : Core := { k with groups := k.groups.setIfInBounds n g }

/-- Sibling count, quorum, counter and deadline units of a slot (R347). -/
def GroupSlot.n (g : GroupSlot) : Nat := g.c3.field 8 7

def GroupSlot.quorum (g : GroupSlot) : Nat := g.c3.field 16 7

def GroupSlot.ctr (g : GroupSlot) : Nat := g.c3.field 0 8

def GroupSlot.deadlineUnits (g : GroupSlot) : Nat := g.c2.field 32 32

/-- How many siblings have one of the given settled codes. -/
def GroupSlot.countOf (g : GroupSlot) (codes : List Nat) : Nat := (g.siblings.filter (fun x => codes.contains x.1)).length

/-- The free slots of a core that no commit has reserved, lowest first (R350). -/
def Core.freeGroups (k : Core) : List Nat := (List.range 4).filter (fun n => (k.group n).state == 0 && (k.group n).reserved == 0)

/-- The deadline of a slot's open group has passed by a cc (R355). -/
def GroupSlot.expiredBy (g : GroupSlot) (cycle : Nat) : Bool :=
  g.state == 2 && g.paused.isNone && (match g.deadline with | some d => decide (d < cycle) | none => false)

/-- A handle for a slot (R348). -/
def groupHandle (home lid slot : Nat) : Word :=
  BitVec.ofNat 64 (2 ^ 34 + slot * 2 ^ 27 + lid % 65536 * 2 ^ 11 + home)

/-- A slot with a configuration (R346, R350). -/
def GroupSlot.configured (w : List Word) (lid : Nat) : GroupSlot :=
  { GroupSlot.free with state := 1, c0 := wordAt w 0, c1 := wordAt w 1, c2 := wordAt w 2, c3 := wordAt w 3, lid := lid }

/-! ### The statistics (R356) -/

/-- A binary64 value of bits. -/
def v64 (b : Nat) : Val := decodeFp f64 b

/-- One rounding to binary64. -/
def r64 (r : Raw) : Nat := nearest f64 r

/-- The sum of the rewards, in ascending index. -/
def sumRewards (rs : List Val) : Nat := rs.foldl (fun s r => r64 (fpAdd 0 (v64 s) r)) 0

/-- The sum of squared deviations from the mean. -/
def sumSquares (mu : Nat) (rs : List Val) : Nat :=
  rs.foldl (fun acc r =>
    let d := v64 (r64 (fpAdd 0 r (v64 mu).negate))
    r64 (fpAdd 0 (v64 acc) (v64 (r64 (fpMul d d))))) 0

/-- The mean and the denominator of the rewarded set. -/
def groupMoments (eps : Nat) (rs : List Val) : Nat × Nat :=
  let m : Val := .fin false rs.length 0
  let mu := r64 (fpDiv (v64 (sumRewards rs)) m)
  let v := r64 (fpDiv (v64 (sumSquares mu rs)) m)
  (mu, r64 (fpSqrt (v64 (r64 (fpAdd 0 (v64 v) (decodeFp f32 eps))))))

/-- The advantage of one reward in F32 (R356). -/
def advantage (mu den : Nat) (r : Val) : Nat :=
  if den = 0 then 0
  else nearest f32 (v64 (r64 (fpDiv (v64 (r64 (fpAdd 0 r (v64 mu).negate))) (v64 den)))).asInput

/-- The flag of a sibling's word (R357): unsettled counts as missing. -/
def siblingFlag (code : Nat) : Nat :=
  match code with
  | 1 => 0
  | 2 => 1
  | 3 => 3
  | _ => 2

/-- The advantage words of a complete group (R357). -/
def GroupSlot.words (g : GroupSlot) : List Word :=
  let rs := (g.siblings.filter (·.1 == 1)).map (fun x => decodeFp f32 x.2.toNat)
  let mo := groupMoments (g.c2.field 0 32) rs
  g.siblings.map (fun x =>
    BitVec.ofNat 64 (siblingFlag x.1 * 2 ^ 32 + (if x.1 = 1 then advantage mo.1 mo.2 (decodeFp f32 x.2.toNat) else 0)))

/-- The status word (R357). -/
def GroupSlot.status (g : GroupSlot) (code : Nat) : Word :=
  let m := g.countOf [1]
  let canc := g.countOf [2, 3]
  BitVec.ofNat 64 (code * 2 ^ 48 + m * 2 ^ 40 + (g.n - m - canc) * 2 ^ 32 + canc * 2 ^ 24 + (if g.nonFinite then 2 ^ 23 else 0))

/-! ### Settlement (R355, R357) -/

/-- The time left of a slot's deadline, as paused or running, or all of it before the fork has started it; none where it has no
deadline (R354). -/
def GroupSlot.left (g : GroupSlot) (cycle : Nat) : Option Nat :=
  match g.paused, g.deadline with
  | some n, _ => some n
  | none, some d => some (d - cycle)
  | none, none => if g.state = 1 && g.deadlineUnits != 0 then some (1024 * g.deadlineUnits) else none

/-- The result of a group that leaves the open state, on its way to the home store. -/
def State.groupResult (s : State) (c : CoreId) (slot : Nat) (g : GroupSlot) (state code : Nat) : State :=
  let done : GroupSlot := { g with state := state, deadline := none, paused := g.left s.cycle }
  let s := s.setCore c ((s.core c).setGroup slot done)
  let words := if state = 3 then g.words else []
  s.send (64 + 8 * words.length) c c g.lid 0 0 0 0 0 (.groupWrite g.c0 words g.c1 (g.status code) g.ctr)

/-- The group closes: complete with at least quorum rewards, otherwise failed (R355). -/
def State.closeGroup (s : State) (c : CoreId) (slot : Nat) (g : GroupSlot) : State :=
  if g.quorum ≤ g.countOf [1] then s.groupResult c slot g 3 0 else s.groupResult c slot g 4 1

/-- After a sibling has settled, an open group with every sibling settled closes. -/
def State.settleGroup (s : State) (c : CoreId) (slot : Nat) (g : GroupSlot) : State :=
  if g.countOf [0] = 0 then s.closeGroup c slot g else s.setCore c ((s.core c).setGroup slot g)

/-- A statistic one higher, saturating (R352). -/
def bump (n : Nat) : Nat := min (2 ^ 32 - 1) (n + 1)

/-- The slot with sibling i settled. -/
def GroupSlot.settle (g : GroupSlot) (i code : Nat) (reward : BitVec 32) : GroupSlot :=
  { g with siblings := g.siblings.set i (code, reward) }

/-- A reward (R352). -/
def State.reward (s : State) (c : CoreId) (slot i : Nat) (r : BitVec 32) : State :=
  let g := (s.core c).group slot
  let keep (g : GroupSlot) : State := s.setCore c ((s.core c).setGroup slot g)
  if g.state ≠ 2 then keep { g with late := bump g.late }
  else if g.n ≤ i then keep { g with stray := bump g.stray }
  else if (g.siblings.getD i (1, 0)).1 ≠ 0 then keep { g with dup := bump g.dup }
  else if (r.toNat / 2 ^ 23 % 256 == 255) then s.settleGroup c slot { g.settle i 3 0 with nonFinite := true }
  else s.settleGroup c slot (g.settle i 1 r)

/-- A cancellation (R353). -/
def State.cancelGroup (s : State) (c : CoreId) (slot : Nat) (v : Word) : State :=
  let g := (s.core c).group slot
  let keep (g : GroupSlot) : State := s.setCore c ((s.core c).setGroup slot g)
  if v = BitVec.allOnes 64 then
    if g.state = 1 || g.state == 2 then s.groupResult c slot g 4 2 else keep { g with late := bump g.late }
  else if g.state ≠ 2 then keep { g with late := bump g.late }
  else if g.n ≤ v.toNat then keep { g with stray := bump g.stray }
  else if (g.siblings.getD v.toNat (1, 0)).1 ≠ 0 then keep { g with dup := bump g.dup }
  else s.settleGroup c slot (g.settle v.toNat 2 0)

/-! ### Fork, release and reading -/

/-- A sibling's record (R351). -/
def siblingRecord (words : List Word) (handle id : Word) (i : Nat) : Record :=
  let r := Record.ofWords words id
  let w0 := (word0With r.w0 49 false) ||| (1#64 <<< 50)
  { r with w0 := w0, w1 := BitVec.ofNat 64 (handle.toNat % 2 ^ 35 + i * 2 ^ 35), w2 := 0 }

/-- Place the siblings from the first one on, in ascending index, under consecutive counts (R351, R378). -/
def State.placeSiblings (s : State) (src home : CoreId) (words : List Word) (handle : Word) (first : BitVec 32) :
    List Nat → State
  | [] => s
  | i :: rest =>
    (s.toList home (siblingRecord words handle (spawnId src (first + BitVec.ofNat 32 i)) i)).placeSiblings src home words
      handle first rest

/-- A fork takes its siblings' counts when its commit issues it, in commit order (R378) (DEDUCED log 53). -/
def State.numberFork (s : State) (src issuer lid : Nat) (op : GroupOp) : State × GroupOp :=
  match op with
  | .fork b w none =>
    let g := (s.core (handleHome b)).group (handleSlot b)
    if issuer = handleHome b && g.state == 1 then
      let q := s.takeSpawns src lid g.n
      (q.1, .fork b w (some q.2))
    else (s, op)
  | op => (s, op)

/-- GFORK at the unit: the state and the status (R351).  Of a core that is to be saved, the group's timer pauses at once, and its
siblings are held (R358). -/
def State.fork (s : State) (src issuer lid : CoreId) (h : Word) (words : List Word) (first : Option (BitVec 32)) : State × Word :=
  let home := handleHome h
  let slot := handleSlot h
  let g := (s.core home).group slot
  if issuer ≠ home || g.state ≠ 1 then (s, 0x0220000000000000)
  else
    let q := match first with
      | some n => (s, n)
      | none => s.takeSpawns src lid g.n
    let s := q.1.placeSiblings src home words h q.2 (List.range g.n)
    let k := s.core home
    let stopping := k.hold == .stopping
    let open' : GroupSlot :=
      { g with state := 2, siblings := List.replicate g.n (0, 0), nonFinite := false,
               deadline := if g.deadlineUnits = 0 then none else some (s.cycle + 1024 * g.deadlineUnits)
               paused := if stopping && g.deadlineUnits != 0 then some (1024 * g.deadlineUnits) else none }
    let s := s.setCore home (k.setGroup slot open')
    (if stopping then s.modContext k.ctx (fun x => { x with pausedGroups := (home, slot) :: x.pausedGroups }) else s,
      BitVec.ofNat 64 (g.n * 2 ^ 32))

/-- Deadline units left, rounded up (R354): all of them before the fork has started the timer, and those that were left when
a group closed (DEDUCED log 82). -/
def GroupSlot.unitsLeft (g : GroupSlot) (cycle : Nat) : Nat := match g.left cycle with | some n => (n + 1023) / 1024 | none => 0

/-- The mask of siblings with the given codes (R354). -/
def GroupSlot.mask (g : GroupSlot) (codes : List Nat) : Word :=
  BitVec.ofNat 64 (((List.range g.siblings.length).filter (fun i => codes.contains (g.siblings.getD i (0, 0)).1)).map
    (fun i => 2 ^ i)).sum

/-- GSTAT's value (R354). -/
def GroupSlot.value (g : GroupSlot) (cycle : Nat) (sel : Word) : Word :=
  match sel.toNat with
  | 0 => BitVec.ofNat 64 (g.unitsLeft cycle * 2 ^ 32 + (if g.nonFinite then 2 ^ 16 else 0) + g.countOf [1] * 2 ^ 8 + g.state)
  | 1 => g.mask [1]
  | 2 => g.mask [2, 3]
  | 3 => BitVec.ofNat 64 (g.dup * 2 ^ 32 + g.late)
  | 4 => BitVec.ofNat 64 (g.stray * 2 ^ 32)
  | _ => BitVec.allOnes 64

/-- A configure reserves the lowest free slot of its home core at the grant of its chunk; none where all four are in use
(R350). -/
def State.reserveGroup (s : State) (home tag : Nat) : Option State :=
  match (s.core home).freeGroups with
  | [] => none
  | n :: _ => some (s.setCore home ((s.core home).setGroup n { (s.core home).group n with reserved := tag }))

/-- The slot that a configure has reserved. -/
def Core.reservedGroup (k : Core) (tag : Nat) : Option Nat := (List.range 4).find? (fun n => (k.group n).reserved == tag)

/-- GCFG configure as its effect issues: the slot its grant reserved is configured, and its handle (R350). -/
def State.configureGroup (s : State) (home lid tag : Nat) (w : List Word) : State × Word :=
  match (s.core home).reservedGroup tag with
  | none => (s, BitVec.allOnes 64)
  | some n => (s.setCore home ((s.core home).setGroup n (GroupSlot.configured w lid)), groupHandle home lid n)

/-- GCFG release (R350). -/
def State.releaseGroup (s : State) (issuer : CoreId) (h : Word) : State × Word :=
  let home := handleHome h
  let g := (s.core home).group (handleSlot h)
  if issuer = home && (g.state == 3 || g.state == 4) then
    (s.setCore home ((s.core home).setGroup (handleSlot h) GroupSlot.free), 0)
  else (s, BitVec.allOnes 64)

/-- An operation is a configure, for which its grant has reserved a slot (R350). -/
def GroupOp.configures : GroupOp → Bool
  | .configure _ => true
  | _ => false

/-- The unit takes an operation under a tag: the state, and the value of its result where it has one (R349). -/
def State.groupTake (s : State) (src issuer lid tag : Nat) (op : GroupOp) : State × Option Word :=
  match op with
  | .fork b w n => let r := s.fork src issuer lid b w n; (r.1, some r.2)
  | .reward b c => (s.reward (handleHome b) (handleSlot b) (handleSibling b) (c.setWidth 32), none)
  | .cancel b c => (s.cancelGroup (handleHome b) (handleSlot b) c, none)
  | .configure w => let r := s.configureGroup issuer lid tag w; (r.1, some r.2)
  | .release c => let r := s.releaseGroup issuer c; (r.1, some r.2)
  | .stat b c => (s, some (((s.core (handleHome b)).group (handleSlot b)).value s.cycle c))

/-! ### Events -/

/-- The slot that an operation acts on. -/
def GroupOp.slot (op : GroupOp) : Nat :=
  match op with
  | .fork b _ _ => handleSlot b
  | .reward b _ => handleSlot b
  | .cancel b _ => handleSlot b
  | .configure _ => 4
  | .release c => handleSlot c
  | .stat b _ => handleSlot b

/-- A group's timer runs on once it is released and the operations on it that a save kept have been taken (R358). -/
def State.runTimer (s : State) (c slot : Nat) : State :=
  let g := (s.core c).group slot
  let held := match s.context (s.core c).ctx with | some x => x.pausedGroups.contains (c, slot) | none => false
  let left := s.flights.any (fun f => f.dst == c && decide (f.due ≤ s.cycle) && (match f.body with
    | .effect (.group _ op) => op.slot == slot
    | _ => false))
  match g.paused with
  | some n =>
    if g.state = 2 && !held && !left then
      s.setCore c ((s.core c).setGroup slot { g with deadline := some (s.cycle + n), paused := none })
    else s
  | none => s

/-- A group operation in flight is taken, unless its group's deadline passed before it arrived (R355); its result lands 8 cc
later plus the hops (R349). -/
def takeGroup (s : State) (f : Nat) (p : GroupOp → Bool) : Option State := do
  let x ← s.arriving f
  match x.body with
  | .effect (.group issuer op) =>
    if p op && !((s.core x.dst).group op.slot).expiredBy x.due then
      let r := (s.dropFlight f).groupTake x.src issuer x.lid x.tag op
      let t := (r.1.complete x.tag).runTimer x.dst op.slot
      some (match r.2 with | some v => t.result x x.tag v 8 | none => t)
    else none
  | _ => none

/-- GFORK_TAKEN (R351). -/
def execGforkTaken (f : Nat) (s : State) : Host.Outcome State Fault Refusal :=
  event s (takeGroup s f (fun op => match op with | .fork .. => true | _ => false))

/-- GREWARD_TAKEN (R352). -/
def execGrewardTaken (f : Nat) (s : State) : Host.Outcome State Fault Refusal :=
  event s (takeGroup s f (fun op => match op with | .reward .. => true | _ => false))

/-- GCANCEL_TAKEN (R353). -/
def execGcancelTaken (f : Nat) (s : State) : Host.Outcome State Fault Refusal :=
  event s (takeGroup s f (fun op => match op with | .cancel .. => true | _ => false))

/-- GCFG_TAKEN (R350). -/
def execGcfgTaken (f : Nat) (s : State) : Host.Outcome State Fault Refusal :=
  event s (takeGroup s f (fun op => match op with | .configure _ => true | .release _ => true | _ => false))

/-- GSTAT_TAKEN (R354). -/
def execGstatTaken (f : Nat) (s : State) : Host.Outcome State Fault Refusal :=
  event s (takeGroup s f (fun op => match op with | .stat .. => true | _ => false))

/-- An operation on a slot that arrived by a cc has not been taken, or a commit of the core is about to issue one (R355). -/
def State.groupArrivals (s : State) (c g d : Nat) : Bool :=
  s.flights.any (fun f => f.dst == c && decide (f.due ≤ d) && s.waiting f && (match f.body with
    | .effect (.group _ op) => op.slot == g
    | _ => false)) ||
  (List.range 4).any (fun n => (s.cycle == d && ((s.core c).seat n).granted && decide (((s.core c).seat n).grantAt ≤ d) &&
    ((s.core c).seat n).held.any (fun h => match h.body with
      | .group _ op => op.slot == g
      | _ => false)))

/-- GROUP_DEADLINE (R355): arrivals of the cc come first. -/
def execGroupDeadline (c g : Nat) (s : State) : Host.Outcome State Fault Refusal :=
  event s (do
    let x := (s.core c).group g
    let d ← x.deadline
    if x.state = 2 && x.paused.isNone && d ≤ s.cycle && g < 4 && !s.groupArrivals c g d then some (s.closeGroup c g x) else none)

/-- Land words one after another at a local-store address; words that meet a published slot write nothing (R175, R357). -/
def State.landWords (s : State) (c a : Nat) : List Word → State × Option Nat
  | [] => (s, none)
  | w :: r =>
    match s.landAt c a (wordBytes w) with
    | .ok t => t.landWords c (a + 8) r
    | .error g => let u := s.landWords c (a + 8) r; (u.1, some g)

/-- A deferred ring-guard of a unit's landing goes to the hall (R322, R357). -/
def State.guardToHall (s : State) (f : Flight) (hit : Option Nat) : State :=
  match hit with
  | some g => s.retiredTrap f { cause := 0x11, arg := BitVec.ofNat 64 (0x100 + g), ia := f.ia, cpc := f.cpc }
  | none => s

/-- GROUP_RESULT_WRITE (R357): the advantage words, the status word, then the counter add. -/
def execGroupResultWrite (f : Nat) (s : State) : Host.Outcome State Fault Refusal :=
  event s (do
    let x ← s.arriving f
    match x.body with
    | .groupWrite adv words stat status ctr =>
      if !s.addTurn x.dst x.dst ctr then none else
      let a := (s.dropFlight f).landWords x.dst (ptrAddr adv) words
      let b := a.1.landWords x.dst (ptrAddr stat) [status]
      some (((b.1.guardToHall x (a.2.orElse (fun _ => b.2))).namedAdd x.dst ctr).wakeHomed x.dst)
    | _ => none)

end Sys2Proof.Machine
end

