-- ==== Sys2Proof/Machine/Meeting.lean ====
section
/-!
DEFINITION. The meeting routers: arrivals, admission, combining, delivery, timers and purges (R313 to R326).
-/
namespace Sys2Proof.Machine

/-! ### Binds and operands at their commit (R317, R318) -/

/-- The bind that four words in absolute form hold (R316). -/
def Bind.ofWords (w : List Word) : Bind :=
  let c := wordAt w 3
  { dest := wordAt w 0, stat := wordAt w 1, ctr := wordAt w 2, mask := BitVec.ofNat 16 (c.field 48 16), tmo := c.field 32 16,
    cnt := c.field 8 2 + 1, op := c.field 0 4 }

/-- The vectors that words hold, sixteen each. -/
def wordsVecs : Nat → List Word → List Vec
  | 0, _ => []
  | n + 1, w => BitVec.ofNat 1024 (bytesToNat ((w.take 16).flatMap wordBytes)) :: wordsVecs n (w.drop 16)

/-- The interface of a core has room for one more operand (R318). -/
def Core.ifaceRoom (k : Core) : Bool := k.iface.length < 8

/-! ### Combining (R321) -/

/-- Lane k of w bits. -/
def meetLane (w : Nat) (v : Vec) (k : Nat) : Nat := v.field (w * k) w

/-- A vector of lanes. -/
def meetLanes (w : Nat) (l : List Nat) : Vec :=
  BitVec.ofNat 1024 (l.foldr (fun x acc => x % 2 ^ w + acc * 2 ^ w) 0)

/-- Combine two vectors lane by lane. -/
def zipLanes (w : Nat) (f : Nat → Nat → Nat) (a b : Vec) : Vec :=
  meetLanes w ((List.range (1024 / w)).map (fun k => f (meetLane w a k) (meetLane w b k)))

/-- One fold of a meeting's operation (R316, R321). -/
def meetFold (op : Nat) (a b : Vec) : Vec :=
  match op with
  | 0 => zipLanes 32 addF32 a b
  | 1 => zipLanes 64 (fun x y => (x + y) % 2 ^ 64) a b
  | 2 => zipLanes 32 (fun x y => (fpMinMax f32 true x y).1) a b
  | 3 => zipLanes 32 (fun x y => (fpMinMax f32 false x y).1) a b
  | 4 => zipLanes 64 (fun x y => if signed x 64 < signed y 64 then y else x) a b
  | 5 => zipLanes 64 (fun x y => if signed y 64 < signed x 64 then y else x) a b
  | _ => a ||| b

/-- Fold an operand into a prefix; the first operand becomes the prefix unchanged. -/
def foldInto (op : Nat) (pre : List Vec) (x : List Vec) : List Vec :=
  if pre = [] then x else (pre.zip x).map (fun p => meetFold op p.1 p.2)

/-- The parties of a mask, ascending. -/
def parties (m : BitVec 16) : List Nat := (List.range 16).filter (fun i => m.bit i)

/-- A party's bit. -/
def partyBit (p : Nat) : BitVec 16 := 1#16 <<< p

/-- The lowest party of the mask that is not in the prefix. -/
def MeetEntry.nextParty (e : MeetEntry) (b : Bind) : Option Nat := (parties b.mask).find? (fun p => !e.included.bit p)

/-- Put a party's operand into the prefix. -/
def MeetEntry.include (e : MeetEntry) (op p : Nat) (x : List Vec) : MeetEntry :=
  { e with folded := foldInto op e.folded x, included := e.included ||| partyBit p }

/-- Fold what can be folded of the held operands: all of them for an unordered operation, the next parties in order for
ADD.F32. -/
def MeetEntry.absorb (e : MeetEntry) (b : Bind) : Nat → MeetEntry
  | 0 => e
  | n + 1 =>
    let next := if b.op = 0 then (e.nextParty b).bind (fun p => takeFirst (fun w => w.1 == p) e.waiting)
      else takeFirst (fun _ => true) e.waiting
    match next with
    | none => e
    | some (w, rest) => MeetEntry.absorb ({ e with waiting := rest }.include b.op w.1 w.2) b n

/-- Fold the held operands of a bound entry. -/
def MeetEntry.settle (e : MeetEntry) : MeetEntry :=
  match e.bind with
  | some b => e.absorb b e.waiting.length
  | none => e

/-- An entry is complete (R322). -/
def MeetEntry.complete (e : MeetEntry) : Bool :=
  match e.bind with
  | some b => e.arrived == b.mask && e.included == b.mask
  | none => false

/-- The cc at which an entry's timer expires (R323). -/
def MeetEntry.expiry (e : MeetEntry) : Nat :=
  match e.bind with
  | some b => e.created + 1024 * b.tmo
  | none => e.created + 1024 * 65535

/-! ### Delivery (R322, R323) -/

/-- The core and offset of an absolute pointer into region 0. -/
def absolute (p : Word) : CoreId × Nat := (chipCore (ptrAddr p), chipOffset (ptrAddr p))

/-- The value an orphan delivers with the parties in it (R323). -/
def MeetEntry.orphanValue (e : MeetEntry) : List Vec × BitVec 16 :=
  if e.folded != [] then (e.folded, e.included)
  else match e.waiting.foldl (fun (b : Option (Nat × List Vec)) w =>
      match b with
      | some x => if w.1 < x.1 then some w else b
      | none => some w) none with
    | some w => (w.2, partyBit w.1)
    | none => ([], 0)

/-- The status word of a meeting (R322). -/
def meetStatus (code : Nat) (incl arr : BitVec 16) : Word :=
  BitVec.ofNat 64 (code * 2 ^ 48 + incl.toNat * 2 ^ 32 + arr.toNat * 2 ^ 16)

/-- Deliver a value, a status and the counter add; a deferred ring-guard goes to the hall (R322). -/
def State.meetLand (s : State) (c : CoreId) (lid : Nat) (b : Bind) (value : List Vec) (status : Word) : State :=
  let d := absolute b.dest
  let q := absolute b.stat
  let a := s.landWords d.1 d.2 (value.flatMap vecWords)
  let r := a.1.landWords q.1 q.2 [status]
  let f : Flight := { id := 0, due := 0, src := c, dst := c, lid := lid, cid := 0, seat := 0, tag := 0, ia := 0, cpc := 0,
                      backoff := 64, body := .ack }
  let s := r.1.guardToHall f (a.2.orElse (fun _ => r.2))
  let s := if b.ctr = 0 then s else s.lateAdd lid (chipCore (ptrAddr b.ctr)) (chipOffset (ptrAddr b.ctr) / 16)
  s.wakeHomed d.1

/-- The unit's entries without one of them. -/
def State.dropMeet (s : State) (c : CoreId) (e : MeetEntry) : State :=
  let k := s.core c
  s.setCore c { k with meets := k.meets.filter (fun x => !(x.lid == e.lid && x.id == e.id && x.gen == e.gen)) }

/-- The unit with one entry replaced. -/
def State.setMeet (s : State) (c : CoreId) (e : MeetEntry) : State :=
  let k := s.core c
  s.setCore c { k with meets := mapFirst (fun x => x.lid == e.lid && x.id == e.id && x.gen == e.gen) (fun _ => e) k.meets }

/-- A complete entry is delivered. -/
def State.deliverMeet (s : State) (c : CoreId) (e : MeetEntry) : State :=
  match e.bind with
  | some b => (s.dropMeet c e).meetLand c e.lid b e.folded (meetStatus 0 e.included e.arrived)
  | none => s

/-- A bound entry is delivered as an orphan. -/
def State.deliverOrphan (s : State) (c : CoreId) (e : MeetEntry) : State :=
  match e.bind with
  | some b =>
    let v := e.orphanValue
    ((s.dropMeet c e).meetStat e.lid (fun m => { m with orphan := bumpBy 1 m.orphan })).meetLand c e.lid b v.1
      (meetStatus 1 v.2 e.arrived)
  | none => s

/-- A checked entry whose time is over: delivered whole where it is complete, else as an orphan (R323). -/
def State.deliverMeetOr (s : State) (c : CoreId) (e : MeetEntry) : State := if e.complete then s.deliverMeet c e else s.deliverOrphan c e

/-- Delivery needs its cores there, with the launch's context; until they are, an entry that is to be delivered waits at its unit, and
goes on taking what arrives for it (R326, R397, R407). -/
def State.meetTargets (s : State) (e : MeetEntry) : Bool :=
  let there (p : Word) : Bool :=
    let c := (absolute p).1
    (s.core c).open' && (s.launch e.lid).all (fun l => (s.core c).ctx == l.ctx)
  match e.bind with
  | some b => there b.dest && there b.stat
  | none => true

/-- An entry as it now stands: delivered once complete and checked. -/
def State.settleMeet (s : State) (c : CoreId) (e : MeetEntry) : State :=
  if e.complete && e.checked && s.meetTargets e then s.deliverMeet c e else s.setMeet c e

/-! ### Arrivals (R319, R320) -/

/-- Slots in use at a unit (R315). -/
def Core.meetSlots (k : Core) : Nat := (k.meets.map (fun e => 1 + e.waiting.length)).sum

/-- The entry of a tag. -/
def Core.meetOf (k : Core) (lid id gen : Nat) : Option MeetEntry :=
  k.meets.find? (fun e => e.lid == lid && e.id == id && e.gen == gen)

/-- A new entry; its creation check reads the tag table now and runs about 600 cc (R319, DESIGN CHOICE log 10). -/
def State.newMeet (s : State) (lid id gen count : Nat) : MeetEntry :=
  { lid := lid, id := id, gen := gen, bind := none, arrived := 0, included := 0, folded := [], waiting := [], count := count,
    created := s.cycle, checkAt := s.cycle + 600, live := s.tagLive lid id gen, checked := false, expired := false, paused := none }

/-- What an operand meets at an entry that exists. -/
inductive Admission where
  | late
  | duplicate
  | stray
  | mismatch
  | full
  | taken
  deriving DecidableEq, Repr

/-- Admission of an operand to an entry, given the free slots (R319, R320, R323). -/
def MeetEntry.admission (e : MeetEntry) (o : MeetOperand) (free : Nat) : Admission :=
  if e.expired then .late
  else if e.arrived.bit o.party then .duplicate
  else
    match e.bind with
    | some b =>
      if !b.mask.bit o.party then .stray
      else if o.data.length != b.cnt then .mismatch
      else if b.op != 0 || e.nextParty b == some o.party || 1 ≤ free then .taken else .full
    | none => if o.data.length != e.count then .mismatch else if 1 ≤ free then .taken else .full

/-- The entry with an operand taken. -/
def MeetEntry.take (e : MeetEntry) (o : MeetOperand) : MeetEntry :=
  { e with arrived := e.arrived ||| partyBit o.party, waiting := e.waiting ++ [(o.party, o.data)] }.settle

/-- An operand leaves its interface: it has been taken or dropped, and its MEET is complete (R278, R318). -/
def State.acceptOperand (s : State) (f : Flight) (o : MeetOperand) : State :=
  let k := s.core f.src
  (s.setCore f.src { k with iface := k.iface.filter (·.op != o.op) }).complete o.op

/-- A negative acknowledgement: the interface sends the operand again after its backoff (R320) (DEDUCED log 81). -/
def State.nakOperand (s : State) (f : Flight) (o : MeetOperand) (expiry : Option Nat) : State :=
  let k := s.core f.src
  let again (x : MeetOperand) : MeetOperand :=
    { x with inFlight := false, retryAt := s.cycle + s.transit f.dst f.src + x.backoff, backoff := min 8192 (2 * x.backoff)
             expiry := expiry.orElse (fun _ => x.expiry) }
  (s.setCore f.src { k with iface := mapFirst (fun x => x.op == o.op) again k.iface }).meetStat o.lid
    (fun m => { m with nak := bumpBy 1 m.nak })

/-- An entry's expiry is due and has not been taken yet. -/
def MeetEntry.overdue (e : MeetEntry) (cycle : Nat) : Bool := !e.expired && e.expiry < cycle

/-- The entry's expiry that a refused operand carries has passed. -/
def MeetOperand.passed (o : MeetOperand) (cycle : Nat) : Bool := match o.expiry with | some d => decide (d < cycle) | none => false

/-- An operand is dropped and counted as late: its MEET is complete (R320, R323). -/
def State.dropLate (s : State) (f : Flight) (o : MeetOperand) : State :=
  ((s.dropFlight f.id).acceptOperand f o).meetStat o.lid (fun m => { m with late := bumpBy 1 m.late })

/-- The operand at its router; one that is sent again after the expiry it carries is late (R320). -/
def State.operandAt (s : State) (f : Flight) (o : MeetOperand) : Option State :=
  let s := s.settleFrees o.lid
  let k := s.core f.dst
  if o.passed s.cycle then some (s.dropLate f o)
  else match k.meetOf o.lid o.id o.gen with
  | some e =>
    if e.overdue s.cycle && !e.complete then none
    else
      let t := s.dropFlight f.id
      let drop (g : MeetStats → MeetStats) : State := (t.acceptOperand f o).meetStat o.lid g
      match e.admission o (16 - k.meetSlots) with
      | .late => some (s.dropLate f o)
      | .duplicate => some (drop (fun m => { m with duplicate := bumpBy 1 m.duplicate }))
      | .stray => some (drop (fun m => { m with stray := bumpBy 1 m.stray }))
      | .mismatch => some (drop (fun m => { m with mismatch := bumpBy 1 m.mismatch }))
      | .full => some (t.nakOperand f o (some e.expiry))
      | .taken => some ((t.acceptOperand f o).settleMeet f.dst (e.take o))
  | none =>
    let t := s.dropFlight f.id
    if k.meetSlots + 2 ≤ 16 then
      let t := t.acceptOperand f o
      let k := t.core f.dst
      some (t.setCore f.dst { k with meets := k.meets ++ [(s.newMeet o.lid o.id o.gen o.data.length).take o] })
    else some (t.nakOperand f o none)

/-- MEET_OPERAND_ARRIVAL (R319 to R321). -/
def execMeetOperandArrival (f : Nat) (s : State) : Host.Outcome State Fault Refusal :=
  event s (do
    let x ← s.arriving f
    match x.body with
    | .operand o => s.operandAt x o
    | _ => none)

/-- MEET_NAK_RETRY (R320): the interface sends an operand again, or drops it as late once its entry's expiry has passed. -/
def execMeetNakRetry (c e : Nat) (s : State) : Host.Outcome State Fault Refusal :=
  event s (do
    let k := s.core c
    let o ← k.iface.find? (·.op == e)
    if o.inFlight || k.away then none
    else if o.passed s.cycle then
      let s := s.setCore c { k with iface := k.iface.filter (·.op != e) }
      some ((s.complete e).meetStat o.lid (fun m => { m with late := bumpBy 1 m.late }))
    else if o.retryAt ≤ s.cycle then
      let p : MeetOperand := { o with inFlight := true }
      let s := s.setCore c { k with iface := mapFirst (fun x => x.op == e) (fun _ => p) k.iface }
      some (s.send (s.transit c o.router) c o.router o.lid 0 0 e 0 0 (.operand p))
    else none)

/-- Operands held from before the bind that do not suit it are dropped and counted (R319). -/
def State.sift (s : State) (e : MeetEntry) (b : Bind) : State × MeetEntry :=
  let stray := e.waiting.filter (fun w => !b.mask.bit w.1)
  let wrong := e.waiting.filter (fun w => b.mask.bit w.1 && w.2.length != b.cnt)
  let keep := e.waiting.filter (fun w => b.mask.bit w.1 && w.2.length == b.cnt)
  (s.meetStat e.lid (fun m => { m with stray := bumpBy stray.length m.stray, mismatch := bumpBy wrong.length m.mismatch }),
   { e with waiting := keep, arrived := keep.foldl (fun a w => a ||| partyBit w.1) 0, bind := some b })

/-- The bind at its router. -/
def State.bindAt (s : State) (f : Flight) (id gen : Nat) (b : Bind) (backoff : Nat) : Option State :=
  let s := s.settleFrees f.lid
  let k := s.core f.dst
  let t := (s.dropFlight f.id).complete f.tag
  match k.meetOf f.lid id gen with
  | some e =>
    if e.overdue s.cycle && !e.complete then none
    else if e.expired then some (t.meetStat f.lid (fun m => { m with late := bumpBy 1 m.late }))
    else if e.bind.isSome then some (t.meetStat f.lid (fun m => { m with rebind := bumpBy 1 m.rebind }))
    else
      let r := t.sift e b
      let e := r.2.settle
      if e.expiry < s.cycle then
        some (if e.checked && s.meetTargets e then r.1.deliverMeetOr f.dst e else r.1.setMeet f.dst { e with expired := true })
      else some (r.1.settleMeet f.dst e)
  | none =>
    if k.meetSlots + 1 ≤ 16 then
      let e : MeetEntry := { s.newMeet f.lid id gen b.cnt with bind := some b }
      some (t.setCore f.dst { t.core f.dst with meets := (t.core f.dst).meets ++ [e] })
    else
      let later (g : Flight) : Flight :=
        { g with due := s.cycle + 2 * s.transit f.dst f.src + backoff, body := .bind id gen b (min 8192 (2 * backoff)) }
      some (({ s with flights := mapFirst (fun g => g.id == f.id) later s.flights } : State).meetStat f.lid
        (fun m => { m with nak := bumpBy 1 m.nak }))

/-- TAGBIND at its commit: the bind leaves for the tag's router; the executing core's own takes it at once, where it has room (R278). -/
def State.issueBind (s : State) (c : CoreId) (lid cid seat optag : Nat) (tag : Word) (record : List Word) : Option State :=
  match s.launch lid with
  | none => some (s.complete optag)
  | some l =>
    let r := routerOf l.rect (tagId tag)
    let b := Bind.ofWords record
    let room := ((s.core c).meetOf lid (tagId tag) (tagGen tag)).isSome || (s.core c).meetSlots < 16
    if r = c && room then
      if !s.ownTurn c 3 then none
      else s.tick.bindAt { id := s.fresh, due := s.cycle, src := c, dst := c, lid := lid, cid := cid, seat := seat, tag := optag,
                           ia := 0, cpc := 0,
                           backoff := 64, body := .bind (tagId tag) (tagGen tag) b 64 } (tagId tag) (tagGen tag) b 64
    else some (s.send (s.transit c r + 4) c r lid cid seat optag 0 0 (.bind (tagId tag) (tagGen tag) b 64))

/-- MEET at its commit: the operand waits at the committing core's interface for its acceptance; the executing core's own router has
it at once (R278). -/
def State.issueMeet (s : State) (c : CoreId) (lid cid seat optag : Nat) (tag : Word) (words : List Word) : Option State :=
  match s.launch lid with
  | none => some (s.complete optag)
  | some l =>
    let r := routerOf l.rect (tagId tag)
    let o : MeetOperand :=
      { lid := lid, id := tagId tag, gen := tagGen tag, party := tagParty tag, data := wordsVecs (words.length / 16) words,
        op := optag, router := r, backoff := 64, retryAt := 0, expiry := none, inFlight := true }
    let k := s.core c
    let u := s.setCore c { k with iface := k.iface ++ [o] }
    if r = c then
      if !s.ownTurn c 3 then none
      else u.tick.operandAt { id := s.fresh, due := s.cycle, src := c, dst := c, lid := lid, cid := cid, seat := seat, tag := optag, ia := 0,
                              cpc := 0, backoff := 64, body := .operand o } o
    else some (u.send (s.transit c r + 4) c r lid cid seat optag 0 0 (.operand o))

/-- BIND_ARRIVAL (R317, R319, R320). -/
def execBindArrival (f : Nat) (s : State) : Host.Outcome State Fault Refusal :=
  event s (do
    let x ← s.arriving f
    match x.body with
    | .bind id gen b backoff => s.bindAt x id gen b backoff
    | _ => none)

/-! ### Checks and timers (R319, R323) -/

/-- Entry number e of a core's unit. -/
def Core.meetAt (k : Core) (e : Nat) : Option MeetEntry := k.meets[e]?

/-- How many operands an entry has taken. -/
def MeetEntry.operands (e : MeetEntry) : Nat := (parties e.arrived).length

/-- MEET_CREATION_CHECK (R319, R323): the end of the check; and, where an entry that is to be delivered has waited for its cores, its
delivery (R326, R407). -/
def execMeetCreationCheck (c e : Nat) (s : State) : Host.Outcome State Fault Refusal :=
  event s (do
    let x ← (s.core c).meetAt e
    if x.paused.isSome then none
    else if x.checked then
      (if (x.complete || x.expired) && s.meetTargets x then some (s.deliverMeetOr c x) else none)
    else if s.cycle < x.checkAt then none
    else
      let stale := x.operands + (if x.bind.isSome then 1 else 0)
      if !x.live then some ((s.dropMeet c x).meetStat x.lid (fun m => { m with stale := bumpBy stale m.stale }))
      else
        let y : MeetEntry := { x with checked := true }
        if (y.complete || y.expired) && s.meetTargets y then some (s.deliverMeetOr c y)
        else some (s.setMeet c y))

/-- An arrival for an entry that is due in this cc comes before its expiry (R323). -/
def State.arrivalDue (s : State) (c : CoreId) (e : MeetEntry) : Bool :=
  s.flights.any (fun f => f.dst == c && f.due ≤ s.cycle && f.lid == e.lid &&
    (match f.body with
     | .operand o => o.id == e.id && o.gen == e.gen
     | .bind id gen _ _ => id == e.id && gen == e.gen
     | _ => false))

/-- MEET_EXPIRY (R323) (DEDUCED log 60). -/
def execMeetExpiry (c e : Nat) (s : State) : Host.Outcome State Fault Refusal :=
  event s (do
    let x ← (s.core c).meetAt e
    let early := x.expiry == s.cycle && s.arrivalDue c x
    if x.expired || s.cycle < x.expiry || early || x.paused.isSome || x.complete then none
    else if x.bind.isNone then
      some ((s.dropMeet c x).meetStat x.lid (fun m => { m with unbound := bumpBy 1 m.unbound }))
    else if x.checked && s.meetTargets x then some (s.deliverOrphan c x)
    else some (s.setMeet c { x with expired := true }))

/-! ### Frees and purges (R313, R324) -/

/-- TAGFREE_AT_LARDER (R313). -/
def execTagfreeAtLarder (f : Nat) (s : State) : Host.Outcome State Fault Refusal :=
  event s (do
    let x ← s.flight f
    match x.body with
    | .tagFree tag n => do
      if s.cycle < x.due then none else some ((s.dropFlight f).freeTag x tag n)
    | _ => none)

/-- TAG_PURGE (R324). -/
def execTagPurge (f : Nat) (s : State) : Host.Outcome State Fault Refusal :=
  event s (do
    let x ← s.arriving f
    match x.body with
    | .purge id => do
      let l ← s.launch x.lid
      let t := s.dropFlight f
      let k := t.core x.dst
      let old (e : MeetEntry) : Bool := e.lid == x.lid && e.id == id && e.gen != l.gen id
      let n := ((k.meets.filter old).map MeetEntry.operands).sum
      some ((t.setCore x.dst { k with meets := k.meets.filter (fun e => !old e) }).meetStat x.lid
        (fun m => { m with stale := bumpBy n m.stale }))
    | _ => none)

end Sys2Proof.Machine
end

