-- ==== Sys2Proof/Machine/Names.lean ====
section
/-!
DEFINITION. What the issue of an instruction needs to know before its meaning runs: the x registers it names (R37), the
group results it starts (R35) and its unit class (R193).
-/
namespace Sys2Proof.Machine

/-- The payload registers of SEND (R258). -/
def payloadNames (b : BitVec 6) (n : BitVec 4) : List (BitVec 6) :=
  (List.range n.toNat).map (fun k => b + BitVec.ofNat 6 k)

/-- The x registers an instruction reads or names as its destination (R37); only x registers take deferred results. -/
def xNames : Instr → List (BitVec 6)
  | .jal _ l _ => [l]
  | .jr _ t => [t]
  | .beq _ a b _ => [a, b]
  | .bne _ a b _ => [a, b]
  | .blt _ a b _ => [a, b]
  | .bge _ a b _ => [a, b]
  | .bltn _ a b _ => [a, b]
  | .bgen _ a b _ => [a, b]
  | .loop _ c _ => [c]
  | .addR _ d b c _ => [d, b, c]
  | .addI _ d b _ _ => [d, b]
  | .subR _ d b c _ => [d, b, c]
  | .subI _ d b _ _ => [d, b]
  | .mulR _ d b c _ => [d, b, c]
  | .mulI _ d b _ _ => [d, b]
  | .mulhR _ d b c _ _ => [d, b, c]
  | .mulhI _ d b _ _ _ => [d, b]
  | .divR _ d b c _ _ => [d, b, c]
  | .divI _ d b _ _ _ => [d, b]
  | .remR _ d b c _ _ => [d, b, c]
  | .remI _ d b _ _ _ => [d, b]
  | .andR _ d b c _ => [d, b, c]
  | .andI _ d b _ _ => [d, b]
  | .orR _ d b c _ => [d, b, c]
  | .orI _ d b _ _ => [d, b]
  | .xorR _ d b c _ => [d, b, c]
  | .xorI _ d b _ _ => [d, b]
  | .andnR _ d b c _ => [d, b, c]
  | .andnI _ d b _ _ => [d, b]
  | .shlR _ d b c _ => [d, b, c]
  | .shlI _ d b _ _ => [d, b]
  | .shrR _ d b c _ => [d, b, c]
  | .shrI _ d b _ _ => [d, b]
  | .sraR _ d b c _ => [d, b, c]
  | .sraI _ d b _ _ => [d, b]
  | .minR _ d b c _ _ => [d, b, c]
  | .minI _ d b _ _ _ => [d, b]
  | .maxR _ d b c _ _ => [d, b, c]
  | .maxI _ d b _ _ _ => [d, b]
  | .sel _ d b c k => [d, b, c, k]
  | .li16 _ d _ => [d]
  | .li32 _ d _ => [d]
  | .li64 _ d _ => [d]
  | .lih _ d _ => [d]
  | .cmpR _ d b c _ => [d, b, c]
  | .cmpI _ d b _ _ => [d, b]
  | .clz _ d b _ => [d, b]
  | .ctz _ d b _ => [d, b]
  | .popc _ d b _ => [d, b]
  | .sext _ d b _ => [d, b]
  | .zext _ d b _ => [d, b]
  | .bfx _ d b _ _ _ => [d, b]
  | .bfi _ d b _ _ => [d, b]
  | .paddR _ d b c => [d, b, c]
  | .paddI _ d b _ => [d, b]
  | .psubR _ d b c => [d, b, c]
  | .psubI _ d b _ => [d, b]
  | .ptag _ d b _ _ => [d, b]
  | .pget _ d b _ => [d, b]
  | .fadd _ d b c _ _ _ => [d, b, c]
  | .fsub _ d b c _ _ _ => [d, b, c]
  | .fmul _ d b c _ _ _ => [d, b, c]
  | .fmin _ d b c _ => [d, b, c]
  | .fmax _ d b c _ => [d, b, c]
  | .ffma _ d b c e _ _ _ => [d, b, c, e]
  | .fdiv _ d b c _ _ _ => [d, b, c]
  | .fsqrt _ d b _ _ _ => [d, b]
  | .fcmp _ d b c _ _ => [d, b, c]
  | .fcvt _ d b _ _ _ _ => [d, b]
  | .fclass _ d b _ => [d, b]
  | .ld _ d b _ _ => [d, b]
  | .st _ a b _ _ => [a, b]
  | .ldf _ d b _ => [d, b]
  | .ldfe _ d b _ => [d, b]
  | .stf _ a b _ => [a, b]
  | .sete _ a l => [a, l]
  | .setf _ a l => [a, l]
  | .caddR _ c b => [c, b]
  | .caddI _ c _ => [c]
  | .cread _ d c => [d, c]
  | .waitc _ c t => [c, t]
  | .cexpectR _ c b => [c, b]
  | .cexpectI _ c _ => [c]
  | .bainitR _ c b => [c, b]
  | .bainitI _ c _ => [c]
  | .barrive _ c p => [c, p]
  | .badrop _ c p => [c, p]
  | .trigarm _ _ b c d => [b, c, d]
  | .mbcfg _ b c d => [b, c, d]
  | .mbpost _ b c => [b, c]
  | .mbtake _ d b => [d, b]
  | .lsamo _ d b c e _ => [d, b, c, e]
  | .vred _ d _ _ _ _ _ _ => [d]
  | .vld _ _ b _ => [b]
  | .vst _ _ b _ => [b]
  | .vldf _ _ b _ => [b]
  | .vstf _ _ b _ => [b]
  | .vgath _ _ b _ _ _ _ => [b]
  | .vscat _ _ b _ _ _ => [b]
  | .vbcast _ _ b _ _ _ => [b]
  | .vextr _ d _ c _ => [d, c]
  | .vscale _ _ _ c _ _ _ _ _ => [c]
  | .vcbdecLoad _ b => [b]
  | .qcnt _ d _ => [d]
  | .ringcfg _ _ b => [b]
  | .rpub _ _ b => [b]
  | .rstat _ d _ => [d]
  | .accscl _ _ b => [b]
  | .mgate _ _ b => [b]
  | .mwait _ d => [d]
  | .send _ a b n _ => a :: payloadNames b n
  | .bqfetch _ a b c d _ _ => [a, b, c, d]
  | .bqstore _ a b c d _ _ => [a, b, c, d]
  | .bqtile _ a b c d _ _ => [a, b, c, d]
  | .bqgath _ a b c d _ _ => [a, b, c, d]
  | .bqamo _ a b c _ _ _ => [a, b, c]
  | .bqcas _ a b c d _ _ => [a, b, c, d]
  | .lscopy _ b c d _ _ => [b, c, d]
  | .xcopy _ b c d _ _ _ => [b, c, d]
  | .fence _ scope _ r => if scope = 2 then [r] else []
  | .tagalloc _ d n => [d, n]
  | .tagfree _ t n => [t, n]
  | .tagbind _ t r => [t, r]
  | .meet _ t _ _ => [t]
  | .exroute _ a b c d => [a, b, c, d]
  | .exrepl0 _ a b c => [a, b, c]
  | .exrepl1 _ a b c d => [a, b, c, d]
  | .exretire0 _ a b c => [a, b, c]
  | .exretire1 _ a b c => [a, b, c]
  | .exstep0 _ a b => [a, b]
  | .exstep1 _ a b c => [a, b, c]
  | .exstat _ a b c => [a, b, c]
  | .exlook _ a b c => [a, b, c]
  | .gfork _ a b c => [a, b, c]
  | .greward _ b c => [b, c]
  | .gcancel _ b c => [b, c]
  | .gcfgConfigure _ a b => [a, b]
  | .gcfgRelease _ a c => [a, c]
  | .gstat _ a b c => [a, b, c]
  | .tspawn _ a b => [a, b]
  | .tspawnat _ a b c => [a, b, c]
  | .qpush _ a _ => [a]
  | .qpop _ a b _ => [a, b]
  | .wlpush _ a => [a]
  | .wlpop _ a b => [a, b]
  | .sysr _ d _ => [d]
  | .sysw _ a _ => [a]
  | .seedWrite _ a => [a]
  | .hdecideResume _ a => [a]
  | .hdecideEndContinuation _ a => [a]
  | .hdecideEndLaunch _ a => [a]
  | .capr _ d _ => [d]
  | .rfcfg _ b _ _ _ => [b]
  | .tlbinv _ a b => [a, b]
  | .ctxsave _ k b c => [k, b, c]
  | .ctxload _ k b c => [k, b, c]
  | .lpmap _ d b c => [d, b, c]
  | .vfcfgConfigure _ d b c => [d, b, c]
  | .vfcfgActivate _ d b c => [d, b, c]
  | .vfcfgDeactivate _ d b c => [d, b, c]
  | .winset _ _ b c d _ => [b, c, d]
  | _ => []

/-- How many group results a head starts (R32, R162); the minor f decides for 0x5D and 0x7B. -/
def resultCount (maj f : Nat) : Nat :=
  if maj = 0x5B then 2
  else if maj = 0x5D then (if f = 1 then 0 else 1)
  else if maj = 0x7B then (if f = 0 then 1 else 0)
  else if (0x12 ≤ maj && maj ≤ 0x15) || (0x2A ≤ maj && maj ≤ 0x2F) || (0x40 ≤ maj && maj ≤ 0x5F && maj != 0x51 &&
      maj != 0x53 && maj != 0x55) || [0x30, 0x32, 0x33, 0x37, 0x65, 0x68, 0x6E, 0x7C].contains maj then 1
  else 0

/-- The class of a major (R193). -/
def unitClass (maj : Nat) : UnitClass :=
  if maj < 0x30 || maj = 0x7B || maj = 0x7C then .scalar
  else if (0x40 ≤ maj && maj ≤ 0x4F) || (0x60 ≤ maj && maj ≤ 0x6F) || (0x56 ≤ maj && maj ≤ 0x5F) then .vector
  else .memory

end Sys2Proof.Machine
end

