-- ==== Sys2Proof/Machine/Issue.lean ====
section
/-!
DEFINITION. Issue: fetching the head at a PC from the line cache (R19 to R23), the checks that come before an
instruction's meaning (R35, R37, R195), and which row a word with a register-selected operation stands for (DEDUCED log 6).
-/
namespace Sys2Proof.Machine

/-- What the scan of the cached line finds at a PC (R21, R22). -/
inductive Fetch where
  | missing
  | noHead
  | done
  | malformed (head : Nat)
  | words (w : Words)
  deriving DecidableEq, Repr

/-- Fetch at a PC. -/
def fetchAt (k : Core) (pc : BitVec 48) : Fetch :=
  match k.line pc.toNat with
  | none => .missing
  | some bs =>
    match lineSlot bs (pc.toNat % 64) with
    | none => .noHead
    | some .done => .done
    | some (.malformed h) => .malformed h
    | some (.words w) => .words w

/-- A register has a pending deferred result (R37). -/
def Seat.pending (t : Seat) (r : BitVec 6) : Bool := t.deferred.any (fun d => d.reg == .x r)

/-- The operation behind a register's deferred result is still held in this chunk (R37). -/
def Seat.pendingHeld (t : Seat) (r : BitVec 6) : Bool :=
  t.deferred.any (fun d => d.reg == .x r && t.held.any (·.tag == d.tag))

/-- What comes before an instruction issues. -/
inductive Gate where
  /-- the instruction issues -/
  | go
  /-- the seat parks first, as if the preceding instruction carried S = 1 (R35) -/
  | parkFirst
  /-- the chunk ends first at an implicit boundary (R37, R195) -/
  | boundary
  /-- the seat stalls in place (R37) -/
  | stall
  deriving DecidableEq, Repr

/-- The minor that decides whether a head of 0x5D or 0x7B starts a group result: tail bits 45:42 and 25:22 (R93, R99). -/
def tailMinor (maj tail : Nat) : Nat := if maj = 0x5D then field tail 42 4 else field tail 22 4

/-- The checks of R37 and R35 for an instruction with its words. -/
def gate (t : Seat) (w : Words) (i : Instr) : Gate :=
  if (xNames i).any t.pendingHeld then .boundary
  else if (xNames i).any t.pending then .stall
  else if 32 < t.results.length + resultCount (w.head / 64 % 128) (tailMinor (w.head / 64 % 128) w.tail) && t.results != [] then .parkFirst
  else .go

/-- The row that an instruction's operand selects where rows share one word (R403, R415, DEDUCED log 6). -/
def resolve (s : State) (i : Instr) : Instr :=
  match i with
  | .sysw sw a num =>
    if num = 0x207 then
      match (s.x a).field 16 2 with
      | 0 => .hdecideResume sw a
      | 1 => .hdecideEndContinuation sw a
      | 2 => .hdecideEndLaunch sw a
      | _ => i
    else i
  | .vfcfgConfigure sw d b c =>
    match (s.x b).field 8 2 with
    | 1 => .vfcfgActivate sw d b c
    | 2 => .vfcfgDeactivate sw d b c
    | _ => i
  | _ => i

/-- The class of the instruction that a seat would issue; none where the fetch finds no instruction. -/
def nextClass (k : Core) (t : Seat) : Option UnitClass :=
  match fetchAt k t.regs.pc with
  | .words w => some (unitClass (w.head / 64 % 128))
  | _ => none

/-- The issuing seat at an issue: the chunk's budget runs from its first issue (R197). -/
def Seat.markIssue (t : Seat) (cycle budget : Nat) (cls : UnitClass) : Seat :=
  { t with
    lastClass := cls
    budget := if t.started then t.budget else budget
    startAt := if t.started then t.startAt else cycle
    started := true }

/-- The state with the issuing seat marked. -/
def State.marked (s : State) : State :=
  s.setMe (s.me.markIssue s.cycle (s.contextBudget (s.ctxOf s.curCore s.me)) ((nextClass s.here s.me).getD .scalar))

/-- A hall seat at a chunk boundary is to go to its service first: its slice has ended (R398). -/
def Seat.serviceDue (t : Seat) : Bool := t.st == .running && !t.started && t.hall.sliceEnd && !t.hall.service

/-- A seat may issue: it runs, its take or commit is over, no halt or stop holds it, and no service entry comes first (R192, R198, R201,
R398, R406, R474). -/
def canIssue (k : Core) (t : Seat) (cycle : Nat) : Bool :=
  t.st == .running && t.resumeAt ≤ cycle && !t.halted && !(t.stop && !t.started) && !t.serviceDue && k.power != .off

/-- The chunk has reached its budget (R197); a halt pauses the count (R474). -/
def Seat.overBudget (t : Seat) (cycle : Nat) : Bool := t.started && !t.halted && decide (t.budget ≤ cycle - t.startAt)

/-- Put a seat into an order by the cc of the last issue, ties to the lower number. -/
def insertSeat (k : Core) (n : Nat) : List Nat → List Nat
  | [] => [n]
  | m :: r => if (k.seat n).lastIssue < (k.seat m).lastIssue then n :: m :: r else m :: insertSeat k n r

/-- The seats of a core, the oldest issue first (R194). -/
def Core.order (k : Core) : List Nat := (List.range 4).foldl (fun l n => insertSeat k n l) []

/-- An issue slot of this cc falls to a seat (R193, R194): the first to the oldest running seat, the second to the next one
whose instruction is of another class. -/
def Core.slotFor (k : Core) (cycle n : Nat) : Bool :=
  let issued := (List.range 4).filter (fun m => (k.seat m).lastIssue == cycle + 1)
  let running := k.order.filter (fun m => canIssue k (k.seat m) cycle && (k.seat m).lastIssue != cycle + 1)
  match issued with
  | [] => running.head? == some n
  | [m] => running.find? (fun j => nextClass k (k.seat j) != some (k.seat m).lastClass) == some n
  | _ => false

end Sys2Proof.Machine
end

