-- ==== Sys2Proof/Machine/Cipher.lean ====
section
/-!
DEFINITION. AES-XTS-256 over the 64-byte lines of device memory (R482).  The spec names the cipher and its tweak; the cipher
itself is the published one (PRESUMED log 103).
-/
namespace Sys2Proof.Machine

/-! ### The field of 256 elements -/

/-- Times x. -/
def xtime (a : Byte) : Byte := (a <<< 1) ^^^ (if a.bit 7 then 0x1B else 0)

/-- A product, over the lowest n bits of the second factor. -/
def fieldMul (a b : Byte) : Nat → Byte
  | 0 => 0
  | n + 1 => (if b.bit 0 then a else 0) ^^^ fieldMul (xtime a) (b >>> 1) n

/-- A square. -/
def fieldSquare (a : Byte) : Byte := fieldMul a a 8

/-- The product of the 2nd, 4th, and so on powers of an element: after seven of them its inverse, and 0 for 0. -/
def fieldInv : Nat → Byte → Byte
  | 0, _ => 1
  | n + 1, a => let b := fieldSquare a; fieldMul b (fieldInv n b) 8

/-- The substitution of a byte. -/
def subByte (a : Byte) : Byte :=
  let b := fieldInv 7 a
  b ^^^ b.rotateLeft 1 ^^^ b.rotateLeft 2 ^^^ b.rotateLeft 3 ^^^ b.rotateLeft 4 ^^^ 0x63

/-- The substitution undone. -/
def unsubByte (s : Byte) : Byte := fieldInv 7 (s.rotateLeft 1 ^^^ s.rotateLeft 3 ^^^ s.rotateLeft 6 ^^^ 0x05)

/-! ### Blocks of sixteen bytes, column by column -/

/-- Byte i of a block. -/
def blockByte (b : List Byte) (i : Nat) : Byte := b.getD i 0

/-- Two blocks combined by exclusive or. -/
def blockXor (a b : List Byte) : List Byte := (List.range 16).map (fun i => blockByte a i ^^^ blockByte b i)

/-- Row r of a block moves by r columns, or by the columns that bring it back. -/
def shiftRows (b : List Byte) (back : Bool) : List Byte :=
  (List.range 16).map (fun i =>
    let r := i % 4
    blockByte b (r + 4 * ((i / 4 + (if back then 4 - r else r)) % 4)))

/-- Every column times a circulant matrix whose first row is given. -/
def mixColumns (row : List Byte) (b : List Byte) : List Byte :=
  (List.range 16).map (fun i =>
    ((List.range 4).map (fun k => fieldMul (blockByte b (i / 4 * 4 + k)) (row.getD ((k + 4 - i % 4) % 4) 0) 8)).foldl (· ^^^ ·) 0)

/-! ### Round keys -/

/-- The round constant of a number from 1 on. -/
def roundConstant : Nat → Byte
  | 0 => 0x8D
  | n + 1 => xtime (roundConstant n)

/-- Word i of the key schedule, from the words before it. -/
def scheduleWord (l : List (List Byte)) (i : Nat) : List Byte :=
  let w (j : Nat) : List Byte := l.getD j []
  let last := w (i - 1)
  let t :=
    if i % 8 = 0 then
      (((last.drop 1) ++ last.take 1).map subByte).zipIdx.map (fun x => if x.2 = 0 then x.1 ^^^ roundConstant (i / 8) else x.1)
    else if i % 8 = 4 then last.map subByte
    else last
  (w (i - 8)).zipWith (· ^^^ ·) t

/-- The fifteen round keys of a key of 32 bytes. -/
def roundKeys (key : List Byte) : List (List Byte) :=
  let first := (List.range 8).map (fun j => (key.drop (4 * j)).take 4)
  let all := (List.range 52).foldl (fun l j => l ++ [scheduleWord l (j + 8)]) first
  (List.range 15).map (fun r => ((all.drop (4 * r)).take 4).flatten)

/-- A block under round keys: the first is added, every later one ends a round, the last without mixing. -/
def encryptBlock (keys : List (List Byte)) (b : List Byte) : List Byte :=
  let round (b : List Byte) (r : Nat) : List Byte :=
    let s := shiftRows (b.map subByte) false
    blockXor (if r = 14 then s else mixColumns [2, 3, 1, 1] s) (keys.getD r [])
  ((List.range 14).map (· + 1)).foldl round (blockXor b (keys.getD 0 []))

/-- The rounds undone. -/
def decryptBlock (keys : List (List Byte)) (b : List Byte) : List Byte :=
  let round (b : List Byte) (j : Nat) : List Byte :=
    let s := blockXor b (keys.getD (14 - j) [])
    (shiftRows (if j = 0 then s else mixColumns [14, 11, 13, 9] s) true).map unsubByte
  blockXor ((List.range 14).foldl round b) (keys.getD 0 [])

/-! ### Lines -/

/-- The tweak of the next block of a line. -/
def nextTweak (t : List Byte) : List Byte :=
  let v := 2 * bytesToNat t
  natToBytes 16 (if v < 2 ^ 128 then v else (v % 2 ^ 128) ^^^ 0x87)

/-- The tweaks of the four blocks of a line. -/
def lineTweaks (key2 : List (List Byte)) (line : Nat) : List (List Byte) :=
  let t0 := encryptBlock key2 (natToBytes 16 line)
  let t1 := nextTweak t0
  let t2 := nextTweak t1
  [t0, t1, t2, nextTweak t2]

/-- A line under a key pair: bits 255:0 of the number are the key of the data, the 256 bits above it that of the tweak. -/
def cipherLine (key line : Nat) (f : List (List Byte) → List Byte → List Byte) (bs : List Byte) : List Byte :=
  let k1 := roundKeys (natToBytes 32 key)
  let k2 := roundKeys (natToBytes 32 (key / 2 ^ 256))
  (lineTweaks k2 line).zipIdx.flatMap (fun t => blockXor (f k1 (blockXor ((bs.drop (16 * t.2)).take 16) t.1)) t.1)

/-- The 64 bytes that a streamer stores for a line. -/
def encryptLine (key line : Nat) (bs : List Byte) : List Byte := cipherLine key line encryptBlock bs

/-- The 64 bytes that a stored line stands for. -/
def decryptLine (key line : Nat) (bs : List Byte) : List Byte := cipherLine key line decryptBlock bs

end Sys2Proof.Machine
end

