-- ==== Sys2Proof/Machine/Dram.lean ====
section
/-!
DEFINITION. Device memory: lines, parity, mirrors, poison and the error logs (R455 to R462), the encryption of a sealed
virtual function's lines (R482), and reads and writes of physical addresses.
-/
namespace Sys2Proof.Machine

/-- A physical address in HBM (R421). -/
def inHbm (pa : Nat) : Bool := pa < 0x7800000000

/-- A physical address in the cellar (R421). -/
def inCellar (pa : Nat) : Bool := 0x10000000000 ≤ pa && pa < 0x30000000000

/-- The stack of an HBM address: the top three bits of its pseudo-channel (R421, DEDUCED log 27). -/
def stackOf (pa : Nat) : Nat := field pa 18 3

/-- The line of an address. -/
def lineOf (pa : Nat) : Nat := pa / 64 * 64

/-- The lines that n bytes from an address touch. -/
def dramLines (pa n : Nat) : List Nat := (linesOf pa n).map (64 * ·)

/-! ### Stripes (R457, DEDUCED log 27) -/

/-- Member i of the stripe of a line: the sixteen pseudo-channels that PA[15:12] selects. -/
def stripeMember (line i : Nat) : Nat := line / 2 ^ 16 * 2 ^ 16 + i * 2 ^ 12 + line % 2 ^ 12

/-- The stripe number, and the member that holds the parity. -/
def stripeNumber (line : Nat) : Nat := line / 2 ^ 16 * 64 + line % 2 ^ 12 / 64

def parityMember (line : Nat) : Nat := stripeNumber line % 16

/-- The parity line of a line's stripe. -/
def parityLine (line : Nat) : Nat := stripeMember line (parityMember line)

/-- A line lies in a guarded region, in units of 2 MiB. -/
def State.guarded (s : State) (line : Nat) : Bool := inHbm line && s.guards.contains (line / 2 ^ 21)

/-- Bytes combined by exclusive or. -/
def xorBytes : List Byte → List Byte → List Byte
  | a :: r, b :: t => (a ^^^ b) :: xorBytes r t
  | l, [] => l
  | [], l => l

/-! ### Errors (R456, R459, R462) -/

/-- A stack's error log takes an entry, keeping 256. -/
def State.logError (s : State) (line kind vf : Nat) : State :=
  let e : ErrorRecord := { stack := stackOf line, line := line, kind := kind, vf := vf, time := s.cycle }
  let mine := s.errlogs.filter (·.stack == e.stack)
  { s with errlogs := s.errlogs.filter (·.stack != e.stack) ++ (mine ++ [e]).drop (mine.length + 1 - 256) }

/-- The exclusive or of the other fifteen lines of a stripe. -/
def State.rebuilt (s : State) (line : Nat) : List Byte :=
  (((List.range 16).map (stripeMember line)).filter (· != line)).foldl
    (fun acc m => xorBytes acc (s.dram.bytes m 64)) (List.replicate 64 0)

/-- The clean mirror of a line's granule (R458). -/
def State.cleanMirror (s : State) (line : Nat) : Option Mirror :=
  s.mirrors.find? (fun m => m.granule == line / 2 ^ 16 && m.clean)

/-- The cellar line that mirrors a line. -/
def Mirror.lineFor (m : Mirror) (line : Nat) : Nat := m.cellar + line % 2 ^ 16

/-- A write that a streamer executes clears the clean bits of the granules it touches (R458). -/
def State.unclean (s : State) (lines : List Nat) : State :=
  { s with mirrors := s.mirrors.map (fun (m : Mirror) =>
      if lines.any (fun l => inHbm l && l / 2 ^ 16 == m.granule) then { m with clean := false } else m) }

/-- No other line of the stripe fails its check. -/
def State.stripeSound (s : State) (line : Nat) : Bool :=
  (((List.range 16).map (stripeMember line)).filter (· != line)).all
    (fun m => !s.badLines.contains m && !s.poisonLines.contains m)

/-- A line that fails its check and has no source is poisoned, and the log says so (R456, R459, R462). -/
def State.poisonLine (s : State) (vf line : Nat) : State :=
  ({ s with badLines := s.badLines.filter (· != line), poisonLines := line :: s.poisonLines.filter (· != line) } : State).logError
    line 3 vf

/-- A line takes bytes that are sound. -/
def State.setLine (s : State) (line : Nat) (bs : List Byte) : State :=
  { s with dram := s.dram.write line bs, badLines := s.badLines.filter (· != line), poisonLines := s.poisonLines.filter (· != line) }

/-- One parity update is folded into its line, a write like any other to the granule's mirror (R458).  A parity line that fails its
own check is recomputed from its data lines, which holds every update sent so far (R457). -/
def State.foldParity (s : State) (u : ParityUpdate) : State :=
  let a := u.line + u.offset
  let broken := s.badLines.contains u.line || s.poisonLines.contains u.line
  if broken && s.stripeSound u.line then
    (({ s.setLine u.line (s.rebuilt u.line) with parityDue := s.parityDue.filter (·.line != u.line) } : State).logError u.line 4 0).unclean
      [u.line]
  else
    ({ s with dram := s.dram.write a (xorBytes (s.dram.bytes a u.delta.length) u.delta)
              parityDue := s.parityDue.filter (·.id != u.id) } : State).unclean [u.line]

/-- Every parity update already sent for a line's stripe is folded in. -/
def State.settleParity (s : State) (line : Nat) : State :=
  (s.parityDue.filter (·.line == parityLine line)).foldl (fun s u => if s.parityDue.contains u then s.foldParity u else s) s

/-- Lines whose check corrects them are written back, and the log says so (R455, R462). -/
def State.correct (s : State) (vf : Nat) (lines : List Nat) : State :=
  let weak := lines.filter s.weakLines.contains
  weak.foldl (fun s l => s.logError l 0 vf) { s with weakLines := s.weakLines.filter (fun l => !weak.contains l) }

/-- A line that fails its check is rebuilt, or poisoned where it has no source (R456).  A copy in the cellar is a source as long as
its own line is sound: one that is not becomes poisoned itself (R459, R460). -/
def State.mendLine (s : State) (vf line : Nat) : State :=
  if s.guarded line && s.stripeSound line then
    let t := (s.settleParity line).correct vf (((List.range 16).map (stripeMember line)).filter (· != line))
    (t.setLine line (t.rebuilt line)).logError line (if line = parityLine line then 4 else 1) vf
  else
    match (if inHbm line then s.cleanMirror line else none) with
    | some m =>
      let copy := m.lineFor line
      if s.poisonLines.contains copy then s.poisonLine vf line
      else if s.badLines.contains copy then (s.poisonLine vf copy).poisonLine vf line
      else
        let t := s.correct vf [copy]
        (t.setLine line (t.dram.bytes copy 64)).logError line 2 vf
    | none => s.poisonLine vf line

/-- The cc by which mending the lines among those touched that fail their check delays the one who reads them: about 1,400 by
parity, 2,000 by a mirror; a parity line's own failure delays no one (R456, R457). -/
def State.mendLag (s : State) (lines : List Nat) : Nat :=
  (lines.filter s.badLines.contains).foldl (fun m l =>
    max m (if s.guarded l && s.stripeSound l then (if l = parityLine l then 0 else 1400)
      else if inHbm l && (s.cleanMirror l).any (fun m => !s.badLines.contains (m.lineFor l) && !s.poisonLines.contains (m.lineFor l))
        then 2000 else 0)) 0

/-- The lines among those touched that fail their check are mended; whether there were any that hold data (R457). -/
def State.mend (s : State) (vf : Nat) (lines : List Nat) : State × Bool :=
  let bad := lines.filter s.badLines.contains
  (bad.foldl (fun s l => s.mendLine vf l) s, bad.any (fun l => !(s.guarded l && l == parityLine l)))

/-! ### Sealed functions (R480, R482) -/

/-- The key pair under which the streamers keep the lines of a virtual function: none where it is not sealed; all zeros once
it has been zeroized (R480) (PRESUMED log 103). -/
def State.vfKey (s : State) (vf : Nat) : Option Nat :=
  match s.vfs.find? (·.vf == vf) with
  | some v => if v.isSealed then some (v.key.getD 0) else none
  | none => none

/-- The cc that a read of a virtual function's lines takes longer for their decryption (R482). -/
def State.cipherLag (s : State) (vf : Nat) : Nat := if (s.vfKey vf).isSome then 8 else 0

/-- The bytes from a physical address that the stored lines stand for under a key pair; as they are stored under none. -/
def State.plainBytes (s : State) (key : Option Nat) (pa n : Nat) : List Byte :=
  match key with
  | none => s.dram.bytes pa n
  | some k => (((dramLines pa n).flatMap (fun l => decryptLine k l (s.dram.bytes l 64))).drop (pa % 64)).take n

/-- What a write stores, from which address up: the bytes, or under a key pair every line they touch, enciphered whole. -/
def State.storedBytes (s : State) (key : Option Nat) (pa : Nat) (bs : List Byte) : Nat × List Byte :=
  match key with
  | none => (pa, bs)
  | some k =>
    let ls := dramLines pa bs.length
    let old := s.plainBytes key (lineOf pa) (64 * ls.length)
    let new := old.take (pa % 64) ++ bs ++ old.drop (pa % 64 + bs.length)
    (lineOf pa, (ls.zipIdx.map (fun l => encryptLine k l.1 ((new.drop (64 * l.2)).take 64))).flatten)

/-! ### Reads and writes -/

/-- A read of device memory under a key pair: the bytes and whether they came late, or none where a line is poisoned (R456,
R459). -/
def State.readUnder (s : State) (key : Option Nat) (vf pa n : Nat) : State × Option (List Byte × Bool) :=
  let ls := dramLines pa n
  let m := (s.correct vf ls).mend vf ls
  if ls.any m.1.poisonLines.contains then (m.1, none) else (m.1, some (m.1.plainBytes key pa n, m.2))

/-- A read of device memory for a virtual function (R456, R459, R482). -/
def State.dramRead (s : State) (vf pa n : Nat) : State × Option (List Byte × Bool) := s.readUnder (s.vfKey vf) vf pa n

/-- A word of device memory as a virtual function's streamers read it, an entry of its page tables among them; none where its line
is poisoned or has no source (R422, R456, R459, R482). -/
def State.tableWord (s : State) (vf a : Nat) : Option Word :=
  (s.dramRead vf a 8).2.map (fun x => BitVec.ofNat 64 (bytesToNat x.1))

/-- The lines that n bytes from an address cover whole. -/
def coveredLines (pa n : Nat) : List Nat := (dramLines pa n).filter (fun l => pa ≤ l && l + 64 ≤ pa + n)

/-- Parity updates for a write to data lines of guarded regions (R457). -/
def State.sendParity (s : State) (pa : Nat) (old new : List Byte) : State :=
  (dramLines pa new.length).foldl (fun (s : State) l =>
    if s.guarded l && l != parityLine l then
      let lo := max pa l
      let n := min (pa + new.length) (l + 64) - lo
      let u : ParityUpdate := { id := s.fresh, line := parityLine l, offset := lo - l,
                                delta := xorBytes ((old.drop (lo - pa)).take n) ((new.drop (lo - pa)).take n) }
      { s with parityDue := s.parityDue ++ [u], fresh := s.fresh + 1 }
    else s) s

/-- A write of n bytes meets its lines: those it covers in part are corrected where their check can (R455); one that fails its
check is poisoned, and no partial write of a poisoned line is taken (R459).  A partial write does not have its line rebuilt, whatever
source there is: after it only a write of the whole line clears the poison (R464). -/
def State.admitWrite (s : State) (vf pa n : Nat) : State × Bool :=
  let part := (dramLines pa n).filter (fun l => !(coveredLines pa n).contains l)
  let t := s.correct vf part
  let u := (part.filter t.badLines.contains).foldl (fun u l => u.poisonLine vf l) t
  (u, !part.any u.poisonLines.contains)

/-- Bytes that a write stores, under a key pair; parity is computed over what is stored, and lines written whole are sound again
(R457 to R459, R482). -/
def State.storeBytes (s : State) (key : Option Nat) (pa : Nat) (bs : List Byte) : State :=
  let ls := dramLines pa bs.length
  let whole := coveredLines pa bs.length
  let w := s.storedBytes key pa bs
  let t := s.sendParity w.1 (s.dram.bytes w.1 w.2.length) w.2
  ({ t with
    dram := t.dram.write w.1 w.2
    poisonLines := t.poisonLines.filter (fun l => !whole.contains l)
    badLines := t.badLines.filter (fun l => !whole.contains l)
    weakLines := t.weakLines.filter (fun l => !whole.contains l) } : State).unclean ls

/-- A write of device memory under a key pair, and whether it was taken (R456 to R459, R482). -/
def State.writeUnder (s : State) (key : Option Nat) (vf pa : Nat) (bs : List Byte) : State × Bool :=
  let a := s.admitWrite vf pa bs.length
  if a.2 then (a.1.storeBytes key pa bs, true) else (a.1, false)

/-- A write of device memory for a virtual function, and whether it was taken (R456 to R459, R482). -/
def State.dramWrite (s : State) (vf pa : Nat) (bs : List Byte) : State × Bool := s.writeUnder (s.vfKey vf) vf pa bs

/-- An error of a stored line, beyond its check or within it (R455). -/
def State.failLine (s : State) (line : Nat) (hard : Bool) : State :=
  if !(inHbm line || inCellar line) then s
  else if hard then
    (if s.badLines.contains line then s
     else { s with badLines := line :: s.badLines, weakLines := s.weakLines.filter (· != line) })
  else if s.weakLines.contains line || s.badLines.contains line then s
  else { s with weakLines := line :: s.weakLines }

/-- The parity of a stripe of a region, as the service sets it up: the exclusive or of its fifteen data lines (R457). -/
def State.setParity (s : State) (line : Nat) : State :=
  let p := parityLine line
  (s.setLine p (s.rebuilt p)).unclean [p]

/-- The guard map takes or loses a region of 2 MiB; a region's parity lines are made when it becomes guarded (R457). -/
def State.setGuard (s : State) (region : Nat) (on : Bool) : State :=
  let lines := (List.range 32).flatMap (fun g => (List.range 64).map (fun l => region * 2 ^ 21 + g * 2 ^ 16 + 64 * l))
  let rest := s.guards.filter (· != region)
  if !inHbm (region * 2 ^ 21) then s
  else if on && !s.guards.contains region then lines.foldl (fun s l => s.setParity l) { s with guards := region :: s.guards }
  else if on then s
  else { s with guards := rest }

/-- The mirror table takes an entry, not clean before its first copy, or loses one; a stack holds 4,096 (R458). -/
def State.setMirror (s : State) (granule : Nat) (cellar : Option Nat) : State :=
  let pa := granule * 2 ^ 16
  let rest := s.mirrors.filter (·.granule != granule)
  match cellar with
  | none => { s with mirrors := rest }
  | some c =>
    if inHbm pa && inCellar c && c % 2 ^ 16 == 0 && (rest.filter (fun m => stackOf (m.granule * 2 ^ 16) == stackOf pa)).length < 4096
    then { s with mirrors := rest ++ [{ granule := granule, cellar := c, clean := false }] }
    else s

/-- A word of a core's local store or accumulator store found uncorrectable (R463). -/
def State.failWord (s : State) (c : CoreId) (a : Nat) : State :=
  let k := s.core c
  if (a < 0x80000 || (0x90000 ≤ a && a < 0xA0000)) && !k.poison.contains a then s.setCore c { k with poison := a :: k.poison }
  else s

end Sys2Proof.Machine
end

