-- ==== Sys2Proof/Machine/Translate.lean ====
section
/-!
DEFINITION. Address translation: page tables, caches and walks, held faults and their records (R420 to R428), and the
invalidation of translations (R413).
-/
namespace Sys2Proof.Machine

/-! ### Entries (R420, R421) -/

/-- The physical address of an entry. -/
def entryPa (e : Word) : Nat := e.field 12 36 * 4096

/-- A valid entry with a reserved bit set is malformed. -/
def entryReserved (e : Word) : Bool := e.field 52 11 != 0 || e.field 48 4 != 0 || e.field 8 4 != 0

/-- A physical address that exists. -/
def paInRange (pa : Nat) : Bool := inHbm pa || inCellar pa

/-- What one entry of a level covers. -/
def levelSize (l : Nat) : Nat := 2 ^ (39 - 9 * l)

/-- How many entries a contiguous group has at a level, 1 where there are none. -/
def groupSize (l : Nat) (e : Word) : Nat := if e.bit 5 then (if l = 2 then 32 else if l = 3 then 16 else 1) else 1

/-- How a walk ends (R424); one that cannot read a table's line ends with 0x0103 (R459). -/
inductive WalkEnd where
  | leaf (e : Word) (size : Nat)
  | absent (e : Word)
  | poisoned
  | unreadable
  | bad (reason : Nat) (e : Word)
  deriving DecidableEq, Repr

/-- An entry that a walk takes as a leaf of a contiguous group. -/
def groupLeaf (e : Word) : Bool := e.bit 0 && !e.bit 1 && e.bit 5 && !entryReserved e && paInRange (entryPa e)

/-- The entry that translates a contiguous group: the walked one, or where the group's entries differ beside their address any one of
those that translate (R420, DESIGN CHOICE log 13). -/
def groupChoice (read : Nat → Option Word) (table index n seed : Nat) (e : Word) : Word :=
  let es := (run (index / n * n) n).filterMap (fun i => read (table + 8 * i))
  let rights (x : Word) : Word := x &&& ~~~0x0000FFFFFFFFF000
  let ok := es.filter groupLeaf
  if es.all (fun x => rights x == rights e) then e else ok.getD (Config.groupEntry seed % ok.length) e

/-- What a walk has found: its end, the table entries on the way with their levels, and the addresses it read. -/
structure WalkTrace where
  stop : WalkEnd
  tables : List (Nat × Word)
  reads : List Nat
  deriving DecidableEq, Repr

/-- A walk of one level more. -/
def WalkTrace.through (w : WalkTrace) (l : Nat) (e : Word) (a : Nat) : WalkTrace :=
  { w with tables := (l, e) :: w.tables, reads := a :: w.reads }

/-- Walk the given levels from a table, through a reading of the words of tables. -/
def walkLevels (read : Nat → Option Word) (seed va table : Nat) : List Nat → WalkTrace
  | [] => { stop := .bad 2 0, tables := [], reads := [] }
  | l :: r =>
    let index := va / levelSize l % 512
    let a := table + 8 * index
    let ends (x : WalkEnd) : WalkTrace := { stop := x, tables := [], reads := [a] }
    match read a with
    | none => ends .unreadable
    | some e =>
      if !e.bit 0 then ends (if e.bit 63 then .poisoned else .absent e)
      else if entryReserved e || (e.bit 1 && l == 3) || (!e.bit 1 && l == 0) then ends (.bad 2 e)
      else if !paInRange (entryPa e) then ends (.bad 3 e)
      else if e.bit 1 then (walkLevels read seed va (entryPa e) r).through l e a
      else
        let n := groupSize l e
        ends (.leaf (groupChoice read table index n seed e) (n * levelSize l))

/-! ### Caches (R424, R427) -/

/-- A cached entry covers an address. -/
def TlbEntry.covers (t : TlbEntry) (ctx vf va : Nat) : Bool :=
  t.ctx == ctx && t.vf == vf && t.base ≤ va && va < t.base + t.size

/-- The leaf that a cache holds for an address. -/
def findLeaf (l : List TlbEntry) (ctx vf va : Nat) : Option TlbEntry :=
  l.find? (fun t => !t.entry.bit 1 && t.covers ctx vf va)

/-- The deepest table entry that a cache holds for an address. -/
def findTable (l : List TlbEntry) (ctx vf va : Nat) : Option TlbEntry :=
  [2, 1, 0].findSome? (fun k => l.find? (fun t => t.entry.bit 1 && t.size == levelSize k && t.covers ctx vf va))

/-- A cache takes an entry; with the cache full, which entry leaves is open (DESIGN CHOICE log 12). -/
def fillCache (cap seed : Nat) (l : List TlbEntry) (e : TlbEntry) : List TlbEntry :=
  if l.contains e then l
  else if l.length < cap then e :: l else e :: l.eraseIdx (Config.pick seed 4 % l.length)

/-- A die's shared cache takes an entry; up to 512 pinned ones stand apart. -/
def DieTlb.fill (d : DieTlb) (seed : Nat) (e : TlbEntry) : DieTlb :=
  if e.entry.bit 6 && d.pinned.length < 512 then
    { d with pinned := if d.pinned.contains e then d.pinned else e :: d.pinned }
  else { d with entries := fillCache 4096 seed d.entries e }

/-- The shared cache of a core's die. -/
def State.dieTlb (s : State) (c : CoreId) : DieTlb := s.dieTlbs.toList.getD (coreDie c) { entries := [], pinned := [] }

/-- Entries into the shared cache of a core's die. -/
def State.fillDie (s : State) (c : CoreId) (es : List TlbEntry) : State :=
  let d := es.foldl (fun (d : DieTlb) e => d.fill s.fresh e) (s.dieTlb c)
  { s with dieTlbs := s.dieTlbs.setIfInBounds (coreDie c) d }

/-- An entry into a core's cache. -/
def State.fillCore (s : State) (c : CoreId) (e : TlbEntry) : State :=
  let k := s.core c
  s.setCore c { k with tlb := fillCache 64 s.fresh k.tlb e }

/-! ### Translation -/

/-- What a translation gives. -/
inductive Translated where
  | frame (pa : Nat)
  | code (c : Nat)
  | held (reason : Nat) (e : Word)
  | report (reason : Nat) (e : Word)
  | walk
  deriving DecidableEq, Repr

/-- The rights and COW of an entry decide (R423, R424): access 0 read, 1 write, 2 atomic, 3 fetch. -/
def grant (access : Nat) (t : TlbEntry) (va : Nat) : Translated :=
  let e := t.entry
  let ok := match access with
    | 0 => e.bit 2
    | 1 => e.bit 3
    | 2 => e.bit 2 && e.bit 3
    | _ => e.bit 4
  if !ok then .code 0x0101
  else if (access = 1 || access = 2) && e.bit 7 then .held 1 e
  else .frame (entryPa e / t.size * t.size + (va - t.base))

/-- The virtual function of a context. -/
def State.vfOf (s : State) (ctx : Nat) : Nat := ((s.context ctx).map (·.vf)).getD 0

/-- Translate an address for a core through its cache and its die's (R424); a miss in both asks for a walk. -/
def State.translate (s : State) (c : CoreId) (ctx va access : Nat) : State × Translated :=
  let vf := s.vfOf ctx
  if 2 ^ 48 ≤ va then (s, .code 0x0100)
  else
    match findLeaf (s.core c).tlb ctx vf va with
    | some t => (s, grant access t va)
    | none =>
      match findLeaf ((s.dieTlb c).pinned ++ (s.dieTlb c).entries) ctx vf va with
      | some t => (s.fillCore c t, grant access t va)
      | none => (s, .walk)

/-- The cc that finding an address in the core's cache takes, or in its die's after that, which the core cache misses (R424). -/
def State.lookupTime (s : State) (c : CoreId) (ctx va : Nat) : Nat :=
  if (findLeaf (s.core c).tlb ctx (s.vfOf ctx) va).isSome then 4 else 64

/-- The table and the levels a walk begins with: below the deepest cached table entry, or the context's root (R422, R424) (DEDUCED
DEDUCED log 58). -/
def State.walkStart (s : State) (c : CoreId) (ctx vf va : Nat) : Nat × List Nat :=
  match findTable ((s.dieTlb c).pinned ++ (s.dieTlb c).entries) ctx vf va with
  | some t => (entryPa t.entry, (List.range 4).filter (fun l => levelSize l < t.size))
  | none => (((s.context ctx).map (fun x => x.root.field 12 36 * 4096)).getD 0, [0, 1, 2, 3])

/-- A walk reads its tables' words, each as any read of device memory is: corrected, or rebuilt, or found poisoned (R455, R456,
R459). -/
def State.readTables (s : State) (vf : Nat) (reads : List Nat) : State := reads.foldl (fun s a => (s.dramRead vf a 8).1) s

/-- A walk of a context's tables from where it begins. -/
def State.tableWalk (s : State) (vf va : Nat) (start : Nat × List Nat) : State × WalkTrace :=
  let w := walkLevels (s.tableWord vf) s.fresh va start.1 start.2
  ((s.readTables vf w.reads).tick, w)

/-- The cc that a walk waits for the lines of tables that have to be rebuilt (R456). -/
def State.walkLag (s : State) (c : CoreId) (ctx va : Nat) : Nat :=
  let st := s.walkStart c ctx (s.vfOf ctx) va
  s.mendLag ((walkLevels (s.tableWord (s.vfOf ctx)) s.fresh va st.1 st.2).reads.map lineOf)

/-- The cached form of a leaf that covers an address. -/
def leafEntry (ctx vf va size : Nat) (e : Word) : TlbEntry :=
  { ctx := ctx, vf := vf, base := va / size * size, size := size, entry := e }

/-- What the end of a walk is for an access (R424). -/
def WalkEnd.outcome (w : WalkEnd) (ctx vf va access : Nat) : Translated :=
  match w with
  | .leaf e size => grant access (leafEntry ctx vf va size e) va
  | .absent e => .held 0 e
  | .poisoned => .code 0x0100
  | .unreadable => .code 0x0103
  | .bad r e => .report r e

/-- A walk ends: its die's cache takes the table entries and the leaf (R424). -/
def State.endWalk (s : State) (c : CoreId) (ctx va : Nat) : State × WalkEnd :=
  let vf := s.vfOf ctx
  let w := s.tableWalk vf va (s.walkStart c ctx vf va)
  let tables : List TlbEntry := w.2.tables.map (fun t => leafEntry ctx vf va (levelSize t.1) t.2)
  let leaf : List TlbEntry := match w.2.stop with | .leaf e size => [leafEntry ctx vf va size e] | _ => []
  (w.1.fillDie c (tables ++ leaf), w.2.stop)

/-- A core's cache takes the leaf that a walk has found for it. -/
def State.takeLeaf (s : State) (c : CoreId) (ctx va : Nat) (w : WalkEnd) : State :=
  match w with
  | .leaf e size => s.fillCore c (leafEntry ctx (s.vfOf ctx) va size e)
  | _ => s

/-- A walk ends for the core and the access that asked for it (R424): the caches are filled and the outcome is final. -/
def State.walkNow (s : State) (c : CoreId) (ctx va access : Nat) : State × Translated :=
  let w := s.endWalk c ctx va
  (w.1.takeLeaf c ctx va w.2, w.2.outcome ctx (s.vfOf ctx) va access)

/-! ### Records (R425) -/

/-- The records that a core keeps: of the continuations on its seats, on its lists and at its counters. -/
def Core.records (k : Core) : List Record :=
  ([k.seat0, k.seat1, k.seat2, k.seat3].filter (·.st != .free)).map (fun t => { t.record with cid := t.cid }) ++
    k.waiters.map (·.record) ++ k.ready ++ k.work

/-- The record of a continuation that an item in flight carries. -/
def Body.carried : Body → Option Record
  | .waitc _ _ _ r => some r
  | .record r => some r
  | .levelled r => some r
  | .transfer t => some { t.record with cid := t.cid }
  | .transferBack t => some { t.record with cid := t.cid }
  | _ => none

/-- The record of a continuation, wherever it stands: on a core or a saved one, suspended or in flight, or retired (R401). -/
def State.recordOf (s : State) (cid lid : Nat) : Record :=
  let all := s.cores.flatMap (fun p => p.2.records) ++ s.flights.filterMap (fun f => f.body.carried) ++
    s.contexts.flatMap (fun x => x.saved.flatMap (fun p => p.2.records))
  match all.find? (fun r => r.cid == cid) with
  | some r => r
  | none => match assocGet s.ended cid with
    | some r => r
    | none => { Record.zero with w1 := BitVec.ofNat 64 (lid % 65536 * 2 ^ 11) }

/-- Who asked for a translation, and whether the chunk that issued it ran migrated (R401). -/
structure Asker where
  core : CoreId
  seat : Nat
  lid : Nat
  cid : Nat
  ia : BitVec 48
  cpc : BitVec 48
  mig : Bool
  deriving DecidableEq, Repr

/-- The fault record of a held fault or of a report (R424, R425). -/
def State.postWalk (s : State) (w : Asker) (ctx va access reason : Nat) (e : Word) : State :=
  let r := s.recordOf w.cid w.lid
  let arg := BitVec.ofNat 64 (s.vfOf ctx % 128 * 2 ^ 56 + reason % 16 * 2 ^ 52 + access % 8 * 2 ^ 48 + va % 2 ^ 48)
  s.postTrap ctx (trapWords ctx w.lid 0 0 0x32 false w.mig w.seat w.ia w.core w.cpc arg r.w0 r.w1 e)

/-- A walk takes one HBM read, of about 1,400 cc, for each level that its die's shared cache does not hold (R424, DESIGN CHOICE log
10). -/
def State.walkTime (s : State) (c : CoreId) (ctx va : Nat) : Nat := 1400 * (s.walkStart c ctx (s.vfOf ctx) va).2.length

/-- When a walk asked for now ends: with the one under way for the same page at the same die, where there is one (R424). -/
def State.walkEnd (s : State) (c : CoreId) (ctx va : Nat) : Nat :=
  match s.walks.find? (fun w => !w.held && w.ctx == ctx && w.va / 4096 == va / 4096 && coreDie w.core == coreDie c) with
  | some w => w.readyAt
  | none => s.cycle + s.walkTime c ctx va

/-- A walk is asked for. -/
def State.askWalk (s : State) (c : CoreId) (ctx va access : Nat) (p : WalkFor) : State :=
  let w : Walk := { id := s.fresh, core := c, ctx := ctx, vf := s.vfOf ctx, va := va, access := access, purpose := p, held := false,
                    readyAt := s.walkEnd c ctx va }
  { s with walks := s.walks ++ [w], fresh := s.fresh + 1 }

/-- A fault is held until a covering TLBINV, and its record is posted (R425). -/
def State.holdWalk (s : State) (w : Asker) (ctx va access reason : Nat) (e : Word) (p : WalkFor) : State :=
  let h : Walk := { id := s.fresh, core := w.core, ctx := ctx, vf := s.vfOf ctx, va := va, access := access, purpose := p, held := true,
                    readyAt := s.cycle }
  ({ s with walks := s.walks ++ [h], fresh := s.fresh + 1 } : State).postWalk w ctx va access reason e

/-! ### TLBINV (R413) -/

/-- Bytes of a page size code (R413). -/
def pageBytes (code : Nat) : Nat :=
  match code with
  | 0 => 2 ^ 12
  | 1 => 2 ^ 16
  | 2 => 2 ^ 21
  | 3 => 2 ^ 26
  | _ => 2 ^ 30

/-- A TLBINV covers a range of addresses of a virtual function. -/
def invCovers (addr control : Word) (vf base size : Nat) : Bool :=
  let n := pageBytes (control.field 9 3)
  let lo := ptrAddr addr / n * n
  (control.bit 7 || vf == control.field 0 7) && (control.bit 8 || (base < lo + n && lo < base + size))

/-- Every cache drops the matching entries. -/
def State.dropTranslations (s : State) (addr control : Word) : State :=
  let keep (l : List TlbEntry) : List TlbEntry := l.filter (fun t => !invCovers addr control t.vf t.base t.size)
  { s with
    cores := s.cores.map (fun p => (p.1, ({ p.2 with tlb := keep p.2.tlb } : Core)))
    dieTlbs := s.dieTlbs.map (fun (d : DieTlb) => { entries := keep d.entries, pinned := keep d.pinned }) }

/-- What a TLBINV waits for: every entry of a block queue that has been translated whole, and every translated packet of
the others (R413), those of saved cores among them. -/
def Core.translated (k : Core) : List (Nat × Option Nat) :=
  k.bq.flatMap (fun e =>
    if e.packets.any (·.waiting) then
      (e.packets.filter (fun p => p.code.isNone && !p.waiting)).map (fun p => (e.id, some p.key))
    else [(e.id, none)])

/-- TLBINV at its commit: entries go, walks restart, held packets walk again, and what it waits for is noted. -/
def State.invalidate (s : State) (tag : Nat) (addr control : Word) : State :=
  let due := s.cores.flatMap (fun p => p.2.translated) ++ s.contexts.flatMap (fun x => x.saved.flatMap (fun p => p.2.translated))
  let s := s.dropTranslations addr control
  let again (w : Walk) : Walk :=
    if !w.held || invCovers addr control w.vf w.va 1 then
      { w with held := false, readyAt := s.cycle + s.walkTime w.core w.ctx w.va }
    else w
  let s : State := { s with walks := s.walks.map again, invs := s.invs ++ [(tag, due)] }
  if due = [] then ({ s with invs := s.invs.filter (·.1 != tag) } : State).complete tag else s

/-- Something that TLBINVs wait for has completed. -/
def State.settleInvs (s : State) (id : Nat) (packet : Option Nat) : State :=
  let rest (l : List (Nat × Option Nat)) : List (Nat × Option Nat) :=
    l.filter (fun d => !(d.1 == id && (d.2 == packet || packet.isNone)))
  let invs := s.invs.map (fun i => (i.1, rest i.2))
  let ended := (invs.filter (·.2 == [])).map (·.1)
  ended.foldl (fun (s : State) t => s.complete t) { s with invs := invs.filter (·.2 != []) }

/-! ### The service's own view (R422, R445) -/

/-- The physical address of a device virtual address of a context, whatever its rights. -/
def State.mapped (s : State) (ctx va : Nat) : State × Option Nat :=
  let root := ((s.context ctx).map (fun x => x.root.field 12 36 * 4096)).getD 0
  if 2 ^ 48 ≤ va then (s, none)
  else
    let w := s.tableWalk (s.vfOf ctx) va (root, [0, 1, 2, 3])
    (w.1, match w.2.stop with
      | .leaf e size => some (entryPa e / size * size + va % size)
      | _ => none)

/-- Where the root stands in a context's header; none where no header is mapped (R422). -/
def State.headerRoot (s : State) (ctx : Nat) : State × Option Nat :=
  match s.context ctx with
  | some x => if x.save.toNat < 4096 then (s, none) else s.mapped ctx (x.save.toNat - 4096)
  | none => (s, none)

/-- The root is read again from the context's header (R422); with none mapped it is the one that the service has last given, and
where the header cannot be read the root in use stands (DESIGN CHOICE log 41). -/
def State.readRoot (s : State) (ctx : Nat) : State :=
  let h := s.headerRoot ctx
  match h.2 with
  | some pa =>
    let r := h.1.dramRead (s.vfOf ctx) pa 8
    (match r.2 with
      | some x => r.1.modContext ctx (fun y => { y with root := BitVec.ofNat 64 (bytesToNat x.1) &&& 0x0000FFFFFFFFF000 })
      | none => r.1)
  | none => h.1.modContext ctx (fun x => { x with root := x.nextRoot.getD x.root })

end Sys2Proof.Machine
end

