-- ==== Sys2Proof/Machine/ExpertUnit.lean ====
section
/-!
DEFINITION. The expert directory, the caches and the routing unit (R328 to R344).
-/
namespace Sys2Proof.Machine

/-! ### Directory entries (R328) -/

/-- Fields of a slot. -/
def slotCore (x : BitVec 104) : CoreId := x.field 0 11
def slotState (x : BitVec 104) : Nat := x.field 11 3
def slotCidx (x : BitVec 104) : Nat := x.field 14 8
def slotBuf (x : BitVec 104) : Nat := x.field 22 16
def slotVer (x : BitVec 104) : Nat := x.field 38 32
def slotSat (x : BitVec 104) : Bool := x.bit 70
def slotCount (x : BitVec 104) : Nat := x.field 71 32

/-- A slot of fields. -/
def slotOf (core state cidx buf ver : Nat) (sat : Bool) (count : Nat) : BitVec 104 :=
  BitVec.ofNat 104 (core % 2 ^ 11 + state % 8 * 2 ^ 11 + cidx % 2 ^ 8 * 2 ^ 14 + buf % 2 ^ 16 * 2 ^ 22 + ver % 2 ^ 32 * 2 ^ 38 +
    (if sat then 2 ^ 70 else 0) + count % 2 ^ 32 * 2 ^ 71)

/-- A slot with another state and version. -/
def slotWith (x : BitVec 104) (state ver : Nat) : BitVec 104 :=
  slotOf (slotCore x) state (slotCidx x) (slotBuf x) ver (slotSat x) (slotCount x)

/-- An entry that was never created reads zero in every field (R370). -/
def DirEntry.empty : DirEntry := { w0 := 0, w1 := 0, w2 := 0, slots := Vector.replicate 8 0 }

def DirEntry.gen (e : DirEntry) : Nat := e.w0.field 48 16
def DirEntry.memb (e : DirEntry) : Nat := e.w0.field 40 8
def DirEntry.valid (e : DirEntry) : Bool := e.w0.bit 39
def DirEntry.closed (e : DirEntry) : Bool := e.w0.bit 38
def DirEntry.name (e : DirEntry) : Nat := e.w0.field 0 20
def DirEntry.step (e : DirEntry) : Nat := e.w1.field 32 32
def DirEntry.ver (e : DirEntry) : Nat := e.w1.field 0 32
def DirEntry.ovfh (e : DirEntry) : Nat := e.w2.field 58 6
def DirEntry.actr (e : DirEntry) : Nat := e.w2.field 50 8
def DirEntry.atab (e : DirEntry) : Nat := e.w2.field 34 16
def DirEntry.rowlen (e : DirEntry) : Nat := e.w2.field 26 8
def DirEntry.cap (e : DirEntry) : Nat := e.w2.field 0 16

/-- Slot s of an entry. -/
def DirEntry.slot (e : DirEntry) (n : Nat) : BitVec 104 := e.slots.toList.getD n 0

/-- The owner core (R328). -/
def DirEntry.owner (e : DirEntry) : CoreId := slotCore (e.slot 0)

/-- Bytes of a row: 0 means 32 KiB (R328, R329). -/
def rowBytes (rowlen : Nat) : Nat := 128 * (if rowlen = 0 then 256 else rowlen)

/-- A header word 0. -/
def dirWord0 (gen memb : Nat) (valid closed : Bool) (name : Nat) : Word :=
  BitVec.ofNat 64 (gen % 2 ^ 16 * 2 ^ 48 + memb % 2 ^ 8 * 2 ^ 40 + (if valid then 2 ^ 39 else 0) + (if closed then 2 ^ 38 else 0) +
    name % 2 ^ 20)

/-- The entry with its generation one up and new header fields. -/
def DirEntry.next (e : DirEntry) (memb : Nat) (valid closed : Bool) : DirEntry :=
  { e with w0 := dirWord0 (e.gen + 1) memb valid closed e.name }

/-- The entry with a slot replaced. -/
def DirEntry.setSlot (e : DirEntry) (n : Nat) (x : BitVec 104) : DirEntry := { e with slots := e.slots.setIfInBounds n x }

/-- The 128 bytes of an entry. -/
def DirEntry.bytes (e : DirEntry) : List Byte :=
  [e.w0, e.w1, e.w2].flatMap wordBytes ++ e.slots.toList.flatMap (fun x => natToBytes 13 x.toNat)

/-- The entry of a name in a context. -/
def Context.expert (x : Context) (name : Nat) : DirEntry := (assocGet x.directory name).getD DirEntry.empty

/-- The entry of a name in a context of the machine. -/
def State.expert (s : State) (ctx name : Nat) : DirEntry :=
  match s.context ctx with
  | some x => x.expert name
  | none => DirEntry.empty

/-- Replace an entry. -/
def State.setExpert (s : State) (ctx name : Nat) (e : DirEntry) : State :=
  s.modContext ctx (fun x => { x with directory := assocSet x.directory name e })

/-! ### The directory operations (R334, R339 to R344) -/

/-- The set-bound operations: open, shut and release (R330). -/
inductive BoundOp where
  | opened
  | shut
  | released
  deriving DecidableEq, Repr

/-- The code of a set-bound operation in flight. -/
def BoundOp.code : BoundOp → Nat
  | .opened => 0
  | .shut => 1
  | .released => 2

/-- What a directory operation gives: the entry, the counter operations by slot, and the low 32 bits of its status. -/
structure DirResult where
  entry : DirEntry
  bounds : List (Nat × BoundOp)
  val : Nat
  deriving DecidableEq, Repr

/-- The slots in a state. -/
def DirEntry.slotsIn (e : DirEntry) (st : Nat) : List Nat := (List.range 8).filter (fun n => slotState (e.slot n) == st)

/-- The mask of slots. -/
def maskOf (l : List Nat) : Nat := (l.map (fun n => 2 ^ n)).sum

/-- A replica's areas fit the local store (R340). -/
def areasFit (buf cap rowlen atab : Nat) : Bool :=
  8 * buf + cap * rowBytes rowlen ≤ 0x80000 && 8 * atab + 16 * cap ≤ 0x80000

/-- Create a name (R340). -/
def dirCreate (e : DirEntry) (name : Nat) (home : CoreId) (inRect : Bool) (w : List Word) : Except Nat DirResult :=
  let a := wordAt w 0
  let h := wordAt w 1
  let core := a.field 0 11
  let cap := h.field 0 16
  let rowlen := h.field 16 8
  let atab := h.field 34 16
  let actr := h.field 50 8
  let ver := (wordAt w 2).field 0 32
  let res := a.field 11 5 == 0 && a.field 19 5 == 0 && a.field 48 16 == 0 && h.field 24 10 == 0 && (wordAt w 2).field 32 32 == 0 &&
    wordAt w 3 == 0
  if e.valid then .error 0x0211
  else if core ≠ home then .error 0x0213
  else if !(res && a.field 24 8 != 255 && cap != 0 && inRect && areasFit (a.field 32 16) cap rowlen atab && actr != a.field 24 8) then
    .error 0x0216
  else
    let n : DirEntry :=
      { w0 := dirWord0 e.gen e.memb e.valid e.closed name
        w1 := BitVec.ofNat 64 ver
        w2 := BitVec.ofNat 64 (h.field 58 6 * 2 ^ 58 + actr * 2 ^ 50 + atab * 2 ^ 34 + rowlen * 2 ^ 26 + cap)
        slots := (Vector.replicate 8 0).setIfInBounds 0 (slotOf core 2 (a.field 24 8) (a.field 32 16) ver false 0) }
    .ok { entry := n.next 1 true false, bounds := [(0, .opened)], val := 0 }

/-- Add a replica (R339, R340). -/
def dirAdd (e : DirEntry) (home : CoreId) (inRect : Bool) (w : List Word) : Except Nat DirResult :=
  let a := wordAt w 0
  let n := a.field 16 3
  let res := a.field 11 5 == 0 && a.field 19 5 == 0 && a.field 48 16 == 0 && wordAt w 3 == 0
  if !e.valid then .error 0x0210
  else if home ≠ e.owner then .error 0x0213
  else if !(res && a.field 24 8 != 255 && inRect && areasFit (a.field 32 16) e.cap e.rowlen e.atab) then .error 0x0216
  else if slotState (e.slot n) ≠ 0 then .error 0x0212
  else
    let x := slotOf (a.field 0 11) 1 (a.field 24 8) (a.field 32 16) (slotVer (e.slot n)) false 0
    .ok { entry := (e.setSlot n x).next e.memb true e.closed, bounds := [(n, .shut)], val := 0 }

/-- EXREPL.1 (R339, R340). -/
def dirLive (e : DirEntry) (home : CoreId) (n ver : Word) : Except Nat DirResult :=
  if !e.valid then .error 0x0210
  else if home ≠ e.owner then .error 0x0213
  else if 7 < n.toNat || slotState (e.slot n.toNat) != 1 then .error 0x0212
  else if e.closed then .error 0x0217
  else if ver.toNat ≠ e.ver then .error 0x0214
  else
    let x := slotWith (e.slot n.toNat) 2 e.ver
    .ok { entry := (e.setSlot n.toNat x).next (e.memb ||| 2 ^ n.toNat) true e.closed, bounds := [(n.toNat, .opened)], val := 0 }

/-- The issuer may retire a slot: it is homed on the owner or on the slot's core (R341). -/
def mayRetire (e : DirEntry) (home : CoreId) (n : Word) : Bool :=
  home == e.owner || (n.toNat ≤ 7 && slotState (e.slot n.toNat) != 0 && home == slotCore (e.slot n.toNat))

/-- EXRETIRE.0 (R339, R341). -/
def dirDrain (e : DirEntry) (home : CoreId) (n : Word) : Except Nat DirResult :=
  if !e.valid then .error 0x0210
  else if !mayRetire e home n then .error 0x0213
  else if n.toNat = 0 || 7 < n.toNat || slotState (e.slot n.toNat) != 2 then .error 0x0212
  else .ok { entry := (e.setSlot n.toNat (slotWith (e.slot n.toNat) 3 (slotVer (e.slot n.toNat)))).next e.memb true e.closed,
             bounds := [(n.toNat, .shut)], val := 0 }

/-- EXRETIRE.1 (R339, R341). -/
def dirRetire (e : DirEntry) (home : CoreId) (n : Word) : Except Nat DirResult :=
  let x := e.slot n.toNat
  let moved (st : Nat) : DirEntry := e.setSlot n.toNat (slotWith x st (slotVer x))
  if !e.valid then .error 0x0210
  else if !mayRetire e home n then .error 0x0213
  else if 7 < n.toNat then .error 0x0212
  else if n.toNat = 0 then
    if (List.range 7).all (fun i => slotState (e.slot (i + 1)) == 0) then
      .ok { entry := (moved 0).next e.memb false e.closed, bounds := [(0, .released)], val := 0 }
    else .error 0x0212
  else if slotState x = 1 then .ok { entry := (moved 0).next e.memb true e.closed, bounds := [(n.toNat, .released)], val := 0 }
  else if slotState x = 3 then .ok { entry := (moved 4).next e.memb true e.closed, bounds := [], val := 0 }
  else .error 0x0212

/-- EXSTEP.0 (R342). -/
def dirClose (e : DirEntry) (home : CoreId) : Except Nat DirResult :=
  if !e.valid then .error 0x0210
  else if home ≠ e.owner then .error 0x0213
  else if e.closed then .error 0x0217
  else .ok { entry := e.next e.memb true true, bounds := (e.slotsIn 2).map (fun n => (n, .shut)), val := e.memb }

/-- EXSTEP.1's change of one slot (R339). -/
def stepSlot (ver : Nat) (x : BitVec 104) : BitVec 104 :=
  if slotState x = 2 then slotWith x 2 ver else if slotState x = 4 then slotWith x 0 (slotVer x) else x

/-- EXSTEP.1 (R339, R342). -/
def dirPublish (e : DirEntry) (home : CoreId) (cap : Word) : Except Nat DirResult :=
  if !e.valid then .error 0x0210
  else if home ≠ e.owner then .error 0x0213
  else if 65535 < cap.toNat then .error 0x0216
  else if !e.closed then .error 0x0217
  else if e.slotsIn 3 != [] then .error 0x0219
  else
    let ver := (e.ver + 1) % 2 ^ 32
    let live := e.slotsIn 2
    let gone := e.slotsIn 4
    let n : DirEntry :=
      { e with
        w1 := BitVec.ofNat 64 ((e.step + 1) % 2 ^ 32 * 2 ^ 32 + ver)
        w2 := if cap = 0 then e.w2 else BitVec.ofNat 64 (e.w2.toNat / 2 ^ 16 * 2 ^ 16 + cap.toNat)
        slots := e.slots.map (stepSlot ver) }
    .ok { entry := n.next (maskOf live) true false,
          bounds := (List.range 8).filterMap (fun i =>
            if live.contains i then some (i, .opened) else if gone.contains i then some (i, .released) else none),
          val := ver }

/-- The sum of the counts, saturating, and its SAT (R344). -/
def DirEntry.total (e : DirEntry) : Nat × Bool :=
  let t := min (2 ^ 32 - 1) ((List.range 8).map (fun i => slotCount (e.slot i))).sum
  (t, t == 2 ^ 32 - 1 || (List.range 8).any (fun i => slotSat (e.slot i)))

/-- EXSTAT's status (R344). -/
def dirStat (e : DirEntry) (sel : Word) : Word :=
  if !e.valid then 0x0210000000000000
  else if 8 < sel.toNat then 0x0212000000000000
  else if sel.toNat = 8 then BitVec.ofNat 64 (e.total.1 + (if e.total.2 then 2 ^ 32 else 0))
  else
    let x := e.slot sel.toNat
    BitVec.ofNat 64 (slotState x * 2 ^ 37 + (if slotSat x then 2 ^ 32 else 0) + slotCount x)

/-- The name an operation is on. -/
def ExpertOp.name : ExpertOp → Nat
  | .route b _ _ => b.field 0 20
  | .repl0 b _ => b.field 0 20
  | .repl1 b _ _ => b.field 0 20
  | .retire0 b _ => b.field 0 20
  | .retire1 b _ => b.field 0 20
  | .step0 b => b.field 0 20
  | .step1 b _ => b.field 0 20
  | .stat b _ => b.field 0 20
  | .look b _ => b.field 0 20

/-- An operation that changes the entry. -/
def ExpertOp.change (op : ExpertOp) (e : DirEntry) (home : CoreId) (inRect : CoreId → Bool) : Option (Except Nat DirResult) :=
  match op with
  | .repl0 _ w =>
    let core := (wordAt w 0).field 0 11
    some (if (wordAt w 0).field 16 3 = 0 then dirCreate e op.name home (inRect core) w else dirAdd e home (inRect core) w)
  | .repl1 _ c d => some (dirLive e home c d)
  | .retire0 _ c => some (dirDrain e home c)
  | .retire1 _ c => some (dirRetire e home c)
  | .step0 _ => some (dirClose e home)
  | .step1 _ c => some (dirPublish e home c)
  | _ => none

/-- The status word of R334. -/
def dirStatus (code gen val : Nat) : Word := BitVec.ofNat 64 (code * 2 ^ 48 + gen % 2 ^ 16 * 2 ^ 32 + val % 2 ^ 32)

/-- The counter operations of a change leave for their cores, in slot order, with the entry's new generation (R339). -/
def State.sendBounds (s : State) (src : CoreId) (lid : Nat) (old new : DirEntry) : List (Nat × BoundOp) → State
  | [] => s
  | (n, op) :: r =>
    let x := if op = .released then old.slot n else new.slot n
    let core := slotCore x
    (s.send (s.transit src core) src core lid 0 0 0 0 0 (.setBound (BitVec.ofNat 8 (slotCidx x)) op.code new.gen new.cap)).sendBounds
      src lid old new r

/-! ### The cache (R331) -/

/-- The estimate of a slot at a read. -/
def estimateOf (e : DirEntry) (n : Nat) : Nat :=
  let x := e.slot n
  if slotState x = 2 && slotVer x == e.ver then e.cap - min (slotCount x) e.cap else 0

/-- An entry read into a core's cache, as the most recently used of 16. -/
def Core.cacheExpert (k : Core) (name : Nat) (e : DirEntry) : Core :=
  let c : CachedEntry := { name := name, entry := e, est := Vector.ofFn (fun i => estimateOf e i.val) }
  { k with experts := (c :: k.experts.filter (·.name != name)).take 16 }

/-- The cached entry of a name. -/
def Core.cachedExpert (k : Core) (name : Nat) : Option CachedEntry := k.experts.find? (·.name == name)

/-- The cache with a name used last. -/
def Core.touchExpert (k : Core) (name : Nat) : Core :=
  match k.cachedExpert name with
  | some c => { k with experts := c :: k.experts.filter (·.name != name) }
  | none => k

/-- Change one estimate of a core's cache. -/
def Core.setEstimate (k : Core) (name slot : Nat) (f : Nat → Nat) : Core :=
  let g (c : CachedEntry) : CachedEntry := { c with est := c.est.setIfInBounds slot (f (c.est.toList.getD slot 0)) }
  { k with experts := mapFirst (fun c => c.name == name) g k.experts }

/-! ### Directory events -/

/-- A directory operation at the larder: the state, and its status; EXLOOK lands its entry first (R175, R334, R344). -/
def State.directoryOp (s : State) (f : Flight) (home : CoreId) (op : ExpertOp) : State × Word :=
  let ctx := ((s.launch f.lid).map (·.ctx)).getD (s.core f.src).ctx
  let name := op.name
  let e := s.expert ctx name
  let inRect (c : CoreId) : Bool := match s.launch f.lid with | some l => rectHas l.rect c | none => false
  match op.change e home inRect with
  | some (.ok r) =>
    (((s.setExpert ctx name r.entry).sendBounds f.src f.lid e r.entry r.bounds), dirStatus 0 r.entry.gen r.val)
  | some (.error code) => (s, dirStatus code e.gen 0)
  | none =>
    match op with
    | .stat _ sel => (s, dirStat e sel)
    | .look _ p =>
      let status := dirStatus (if e.valid then 0 else 0x0210) e.gen 0
      let t := s.setCore f.src ((s.core f.src).cacheExpert name e)
      match t.landAt home (ptrAddr p) e.bytes with
      | .ok u => (u.wakeHomed home, status)
      | .error g => (t.deferTrap 0 f.src f.src f.cid f.seat f.lid 0x11 (BitVec.ofNat 64 (0x100 + g)) f.ia f.cpc f.mig, 0x0101000000000000)
    | _ => (s, 0)

/-- An earlier operation on the same name is still on its way to the larder (R333). -/
def State.expertEarlier (s : State) (f : Flight) (name : Nat) : Bool :=
  s.flights.any (fun g => g.id < f.id && g.lid == f.lid && g.src == f.src &&
    (match g.body with | .effect (.expert _ op) => op.name == name | _ => false))

/-- DIRECTORY_OPERATION (R333, R334): EXLOOK waits while a core that it changes takes no landing (R344, R407); the status arrives
about 600 cc after the commit (DESIGN CHOICE log 10). -/
def execDirectoryOperation (f : Nat) (s : State) : Host.Outcome State Fault Refusal :=
  event s (do
    let x ← s.flight f
    match x.body with
    | .effect (.expert home op) =>
      let ctx := ((s.launch x.lid).map (·.ctx)).getD (s.core x.src).ctx
      let lands : Bool := match op with | .look .. => s.holds home ctx && s.holds x.src ctx | _ => true
      if s.cycle < x.due || s.expertEarlier x op.name || !lands then none
      else
        let r := (s.dropFlight f).directoryOp x home op
        some ((r.1.complete x.tag).send 300 x.src x.src x.lid x.cid x.seat x.tag x.ia x.cpc (.deferred x.tag r.2))
    | _ => none)

/-- A set-bound operation on a counter (R330). -/
def Counter.setBound (c : Counter) (kind gen cap : Nat) : Counter :=
  let bound := min (2 ^ 40 - 1) (if kind = 0 then c.value.toNat + cap else c.value.toNat)
  if kind = 2 then { c with shadow := 0 } else c.setFields 2 (bound / 2 ^ 20) (gen % 2 ^ 16) (bound % 2 ^ 20)

/-- SET_BOUND (R330). -/
def execSetBound (f : Nat) (s : State) : Host.Outcome State Fault Refusal :=
  event s (do
    let x ← s.arriving f
    match x.body with
    | .setBound idx kind gen cap =>
      let t := s.dropFlight f
      let k := t.core x.dst
      some (t.setCore x.dst (k.setCounter idx ((k.counter idx).setBound kind gen cap)))
    | _ => none)

/-- DIRECTORY_COUNT_ADD (R328, R336). -/
def execDirectoryCountAdd (f : Nat) (s : State) : Host.Outcome State Fault Refusal :=
  event s (do
    let x ← s.flight f
    match x.body with
    | .countAdd name slot =>
      if s.cycle < x.due then none
      else
        let ctx := ((s.launch x.lid).map (·.ctx)).getD (s.core x.src).ctx
        let e := s.expert ctx name
        let y := e.slot slot
        let n := min (2 ^ 32 - 1) (slotCount y + 1)
        let z := slotOf (slotCore y) (slotState y) (slotCidx y) (slotBuf y) (slotVer y) (slotSat y || slotCount y == 2 ^ 32 - 1) n
        some ((s.dropFlight f).setExpert ctx name (e.setSlot slot z))
    | _ => none)

/-! ### Routes (R335 to R338) -/

/-- Replace a route of a core. -/
def State.setRoute (s : State) (c : CoreId) (r : Route) : State :=
  let k := s.core c
  s.setCore c { k with routes := mapFirst (fun x => x.id == r.id) (fun _ => r) k.routes }

/-- A route leaves the unit. -/
def State.dropRoute (s : State) (c : CoreId) (r : Route) : State :=
  let k := s.core c
  s.setCore c { k with routes := k.routes.filter (·.id != r.id) }

/-- A route's status on its way to its register. -/
def State.routeStatus (s : State) (c : CoreId) (r : Route) (w : Word) : State :=
  s.send 0 c c r.lid r.cid r.seat r.tag r.ia r.cpc (.deferred r.tag w)

/-- A route ends with its status. -/
def State.endRoute (s : State) (c : CoreId) (r : Route) (w : Word) : State := (s.routeStatus c r w).dropRoute c r

/-- The status of a route that has claimed slot k of replica slot t (R338). -/
def claimedStatus (code k t core : Nat) : Word :=
  BitVec.ofNat 64 (code * 2 ^ 48 + k % 2 ^ 16 * 2 ^ 32 + t % 8 * 2 ^ 16 + core % 2048)

/-- Word 1 of a metadata record (R337). -/
def metaWord (gen : Nat) (void : Bool) (src k : Nat) : Word :=
  BitVec.ofNat 64 (gen % 2 ^ 16 * 2 ^ 32 + (if void then 2 ^ 27 else 0) + src % 2048 * 2 ^ 16 + k % 2 ^ 16)

/-- The overflow message (R338). -/
def State.overflow (s : State) (c : CoreId) (r : Route) : State :=
  let d := r.entry.owner
  s.send (s.transit c d) c d r.lid 0 r.seat 0 0 0
    (.message { hid := r.entry.ovfh, words := [r.mword, metaWord r.entry.gen false c 0xFFFF, BitVec.ofNat 64 r.name, r.row],
                src := c, seq := 0x8000000000000000, lid := r.lid, clip := none })

/-- A route ends at overflow: its message goes at once, or waits for its task's commit (R337, R338). -/
def State.routeOverflow (s : State) (c : CoreId) (r : Route) (code : Nat) : State :=
  let w := BitVec.ofNat 64 (code * 2 ^ 48)
  if r.spec && !r.aborted then (s.routeStatus c r w).setRoute c { r with stage := .heldOverflow }
  else if r.aborted then s.endRoute c r w
  else (s.overflow c r).endRoute c r w

/-- The metadata record leaves for the replica (R337). -/
def State.sendMeta (s : State) (c : CoreId) (r : Route) (t k : Nat) (void : Bool) : State :=
  let core := slotCore (r.entry.slot t)
  s.send (s.transit c core) c core r.lid r.cid r.seat 0 r.ia r.cpc
    (.metadata r.mword (metaWord r.entry.gen void c k) (8 * r.entry.atab + 16 * k) (BitVec.ofNat 8 r.entry.actr) r.claimNo)

/-- The next claim of a route, or its overflow when no candidate is left (R335, R336). -/
def State.nextClaim (s : State) (c : CoreId) (r : Route) : State :=
  match r.cand with
  | [] => s.routeOverflow c r 0x0200
  | t :: rest =>
    let x := r.entry.slot t
    let core := slotCore x
    (s.setRoute c { r with stage := .claim t, cand := rest,
                           claimNo := s.fresh }).send (s.transit c core) c core r.lid r.cid r.seat 0 r.ia r.cpc
      (.claim r.id r.name t (BitVec.ofNat 8 (slotCidx x)) r.entry.gen r.entry.cap)

/-- Insert a slot by estimate, largest first, ties to the lower slot. -/
def insertByEst (est : Nat → Nat) (n : Nat) : List Nat → List Nat
  | [] => [n]
  | m :: r => if est m < est n then n :: m :: r else m :: insertByEst est n r

/-- The candidates of an entry: live slots of its version by estimate (R335). -/
def candidates (e : DirEntry) (est : Nat → Nat) : List Nat :=
  ((e.slotsIn 2).filter (fun n => slotVer (e.slot n) == e.ver)).foldl (fun l n => insertByEst est n l) []

/-- A route goes on with an entry: the checks before the first claim, then the claims (R335). -/
def State.routeWith (s : State) (c : CoreId) (r : Route) (x : CachedEntry) : State :=
  let e := x.entry
  let r : Route := { r with entry := e }
  if r.refresh = 0 && !e.valid then s.endRoute c r 0x0201000000000000
  else if r.refresh = 0 && ptrSpace r.row == 0 && 0x80000 < ptrAddr r.row + rowBytes e.rowlen then
    s.endRoute c r 0x0104000000000000
  else s.nextClaim c { r with cand := candidates e (fun n => x.est.toList.getD n 0) }

/-- A route reads its entry from the larder: about 600 cc (R331, DESIGN CHOICE log 10). -/
def State.routeFill (s : State) (c : CoreId) (r : Route) : State :=
  (s.setRoute c { r with stage := .fill }).send 600 c c r.lid 0 0 0 0 0 (.fill r.id)

/-- The row of a route lands, and its record follows; a failed read sends the record as void (R335, R337) (DEDUCED log 59). -/
def State.finishRow (s : State) (c : CoreId) (r : Route) (t k code : Nat) (row : List Byte) : State :=
  let x := r.entry.slot t
  let core := slotCore x
  if code ≠ 0 then ((s.sendMeta c r t k true).endRoute c r (claimedStatus code k t core))
  else
    match s.landAt core (8 * slotBuf x + k * row.length) row with
    | .ok u => (((u.wakeHomed core).sendMeta c r t k false).endRoute c r (claimedStatus 0 k t core))
    | .error g =>
      ((s.deferTrap 0 c c r.cid r.seat r.lid 0x11 (BitVec.ofNat 64 (0x100 + g)) r.ia r.cpc r.mig).sendMeta c r t k true).endRoute c r
        (claimedStatus 0x0101 k t core)

/-- The bytes of a row in device memory, page by page, or the code of its lowest page that failed (R220, R335). -/
def State.readFrames (s : State) (vf : Nat) : List ((Option Nat × Nat) × Nat) → State × Except Nat (List Byte)
  | [] => (s, .ok [])
  | ((none, code), _) :: _ => (s, .error code)
  | ((some pa, _), n) :: rest =>
    let a := s.dramRead vf pa n
    match a.2 with
    | none => (a.1, .error 0x0103)
    | some x =>
      let b := a.1.readFrames vf rest
      (b.1, b.2.map (x.1 ++ ·))

/-- The pages of a row: the address and length of each piece. -/
def rowPages : Nat → Nat → Nat → List (Nat × Nat)
  | 0, _, _ => []
  | f + 1, a, n =>
    if n = 0 then []
    else
      let m := min n (4096 - a % 4096)
      (a, m) :: rowPages f (a + m) (n - m)

/-- The asker of a route's translations. -/
def Route.asker (r : Route) (c : CoreId) : Asker :=
  { core := c, seat := r.seat, lid := r.lid, cid := r.cid, ia := r.ia, cpc := r.cpc, mig := r.mig }

/-- The context of a route. -/
def State.routeCtx (s : State) (c : CoreId) (r : Route) : Nat := ((s.launch r.lid).map (·.ctx)).getD (s.core c).ctx

/-- The pages of a route's row in device memory; none for a row of its home store. -/
def Route.pages (r : Route) : List (Nat × Nat) :=
  if ptrSpace r.row = 0 then [] else rowPages 9 (ptrAddr r.row) (rowBytes r.entry.rowlen)

/-- The row of a route may go: its bytes are there, none of its pages is being translated, and the replica, and the home core of a row
of its store, hold the route's context and take landings (R407). -/
def State.rowMayGo (s : State) (c : CoreId) (r : Route) (t : Nat) : Bool :=
  let ctx := s.routeCtx c r
  r.due ≤ s.cycle && !s.walks.any (fun w => w.purpose == .route c r.id) && s.holds (slotCore (r.entry.slot t)) ctx &&
    (ptrSpace r.row != 0 || s.holds r.home ctx)

/-- The lines of a row in device memory. -/
def Route.lines (r : Route) : List Nat :=
  (r.frames.zip r.pages).flatMap (fun x => match x.1.1 with | some pa => dramLines pa x.2.2 | none => [])

/-- The row of a route is copied where it may go now; a row of which lines have to be mended goes when that is done (R335, R456). -/
def State.sendRow (s : State) (c : CoreId) (r : Route) (t k : Nat) : Option State :=
  let n := rowBytes r.entry.rowlen
  if !s.rowMayGo c r t then none
  else if ptrSpace r.row = 0 then
    let h := s.core r.home
    some (if h.poisonedIn (ptrAddr r.row) n then s.finishRow c r t k 0x0103 []
      else s.finishRow c r t k 0 (h.store.bytes (ptrAddr r.row) n))
  else
    let lag := s.mendLag r.lines
    let a := s.readFrames (s.vfOf (s.routeCtx c r)) (r.frames.zip (r.pages.map (·.2)))
    if lag ≠ 0 then some (a.1.setRoute c { r with due := s.cycle + lag })
    else match a.2 with
      | .ok row => some (a.1.finishRow c r t k 0 row)
      | .error code => some (a.1.finishRow c r t k code [])

/-- Translate the pages of a row still to do, each once (R423); with the last of them the row's bytes are on their way from device
memory (R10). -/
def State.copyRow (s : State) (c : CoreId) (r : Route) (t k : Nat) : List (Nat × Nat) → State
  | [] =>
    s.setRoute c { r with stage := .copy t k, due := s.cycle + 1400 + s.cipherLag (s.vfOf (s.routeCtx c r)) }
  | (va, _) :: rest =>
    let ctx := s.routeCtx c r
    let a := s.translate c ctx va 0
    let on (s : State) (x : Option Nat × Nat) : State := s.copyRow c { r with frames := r.frames ++ [x] } t k rest
    match a.2 with
    | .frame pa => on a.1 (some pa, 0)
    | .code x => on a.1 (none, x)
    | .report reason e => on (a.1.postWalk (r.asker c) ctx va 0 reason e) (none, 0x0100)
    | .held reason e => (a.1.setRoute c { r with stage := .copy t k }).holdWalk (r.asker c) ctx va 0 reason e (.route c r.id)
    | .walk => (a.1.setRoute c { r with stage := .copy t k }).askWalk c ctx va 0 (.route c r.id)

/-- A claimed route copies its row: from the home store, or from device memory (R335). -/
def State.startCopy (s : State) (c : CoreId) (r : Route) (t k : Nat) : State :=
  if ptrSpace r.row = 0 then
    let x : Route := { r with stage := .copy t k, due := s.cycle }
    (s.sendRow c x t k).getD (s.setRoute c x)
  else s.copyRow c r t k r.pages

/-- A claim has succeeded: the row goes now, waits for the task's commit, or is not sent after an abort (R335, R337). -/
def State.claimed (s : State) (c : CoreId) (r : Route) (t k : Nat) : State :=
  let core := slotCore (r.entry.slot t)
  if r.aborted then (s.sendMeta c r t k true).dropRoute c r
  else if r.spec then (s.routeStatus c r (claimedStatus 0 k t core)).setRoute c { r with stage := .heldRow t k }
  else s.startCopy c r t k

/-- An earlier route of the unit has not sent its first claim (R335). -/
def Core.routeBlocked (k : Core) (id : Nat) : Bool :=
  k.routes.any (fun r => r.id < id && (r.stage == .queued || (r.stage == .fill && r.refresh == 0)))

/-- EXROUTE at its commit: the routing unit takes it (R335). -/
def State.issueRoute (s : State) (c : CoreId) (home : CoreId) (lid cid seat tag : Nat) (ia cpc : BitVec 48) (mig : Bool) (b row m : Word)
    (spec : Bool) : State :=
  let k := s.core c
  let r : Route :=
    { id := s.fresh, name := b.field 0 20, row := row, mword := m, tag := tag, cid := cid, seat := seat, home := home, lid := lid,
      ia := ia, cpc := cpc, mig := mig, refresh := 0, entry := DirEntry.empty, cand := [], claimNo := 0, frames := [], due := 0,
        stage := .queued,
      spec := spec, aborted := false }
  ({ s with fresh := s.fresh + 1 } : State).setCore c { k with routes := k.routes ++ [r] }

/-- ROUTE_START (R335, R337): a queued route starts in commit order; one held for a task goes on after its commit or abort; one
whose row waits goes on with it. -/
def execRouteStart (c r : Nat) (s : State) : Host.Outcome State Fault Refusal :=
  event s (do
    let k := s.core c
    let x ← k.routes.find? (·.id == r)
    if k.hold != .none then none
    else match x.stage with
      | .queued =>
        if k.routeBlocked r then none
        else if x.aborted then some (s.dropRoute c x)
        else match k.cachedExpert x.name with
          | some e => some ((s.setCore c (k.touchExpert x.name)).routeWith c x e)
          | none => some (s.routeFill c x)
      | .heldRow t n =>
        if x.aborted then some ((s.sendMeta c x t n true).dropRoute c x)
        else if x.spec then none
        else some (s.startCopy c { x with tag := 0 } t n)
      | .copy t n => s.sendRow c x t n
      | .heldOverflow =>
        if x.aborted then some (s.dropRoute c x)
        else if x.spec then none
        else some ((s.overflow c x).dropRoute c x)
      | _ => none)

/-- ENTRY_CACHE_FILL (R331, R335). -/
def execEntryCacheFill (f : Nat) (s : State) : Host.Outcome State Fault Refusal :=
  event s (do
    let x ← s.arriving f
    match x.body with
    | .fill route => do
      let t := s.dropFlight f
      let k := t.core x.dst
      match k.routes.find? (·.id == route) with
      | none => some t
      | some r =>
        let j := k.cacheExpert r.name (t.expert (t.routeCtx x.dst r) r.name)
        let u := t.setCore x.dst j
        if r.aborted && r.refresh == 0 then some (u.dropRoute x.dst r)
        else match j.cachedExpert r.name with
          | some e => some (u.routeWith x.dst r e)
          | none => some u
    | _ => none)

/-- An expert claim at a counter (R232, R336): the counter, the slot it gives, and whether it is stale. -/
def Counter.expertClaim (c : Counter) (gen cap : Nat) : Counter × Option Nat × Bool :=
  if c.mode ≠ 2 then (c, none, false)
  else if c.pending % 2 ^ 16 ≠ gen then (c, none, true)
  else if c.value.toNat < c.bound then (c.claim.1, some (c.value.toNat + cap - c.bound), false)
  else (c, none, false)

/-- EXPERT_CLAIM (R336). -/
def execExpertClaim (f : Nat) (s : State) : Host.Outcome State Fault Refusal :=
  event s (do
    let x ← s.arriving f
    match x.body with
    | .claim route name slot idx gen cap =>
      let t := s.dropFlight f
      let k := t.core x.dst
      let r := (k.counter idx).expertClaim gen cap
      let t := t.setCore x.dst (k.setCounter idx r.1)
      let t := if r.2.1.isSome then
          (t.counterChanged x.dst idx).send 600 x.dst x.dst x.lid 0 0 0 0 0 (.countAdd name slot)
        else t
      some (t.send (s.transit x.dst x.src) x.dst x.src x.lid 0 0 0 0 0 (.claimReply route r.2.1 r.2.2))
    | _ => none)

/-- CLAIM_REPLY (R331, R335). -/
def execClaimReply (f : Nat) (s : State) : Host.Outcome State Fault Refusal :=
  event s (do
    let x ← s.arriving f
    match x.body with
    | .claimReply route answer stale => do
      let t := s.dropFlight f
      let k := t.core x.dst
      match k.routes.find? (·.id == route) with
      | none => some t
      | some r =>
        match r.stage with
        | .claim slot =>
          if stale then
            let y : Route := { r with refresh := r.refresh + 1 }
            if y.aborted then some (t.dropRoute x.dst y)
            else if y.refresh = 4 then some (t.routeOverflow x.dst y 0x0202)
            else some (t.routeFill x.dst y)
          else match answer with
            | some n => some ((t.setCore x.dst (k.setEstimate r.name slot (· - 1))).claimed x.dst r slot n)
            | none =>
              let u := t.setCore x.dst (k.setEstimate r.name slot (fun _ => 0))
              if r.aborted then some (u.dropRoute x.dst r) else some (u.nextClaim x.dst r)
        | _ => some t
    | _ => none)

/-- A route of a core has claimed a slot at a replica and has still to send its record, one held for its task among them (DEDUCED
DEDUCED log 102). -/
def Route.owes (r : Route) (dst : CoreId) : Bool :=
  match r.stage with
  | .claim t => slotCore (r.entry.slot t) == dst
  | .copy t _ => slotCore (r.entry.slot t) == dst
  | .heldRow t _ => slotCore (r.entry.slot t) == dst
  | _ => false

/-- A record of an earlier claim, from one source to one replica, has still to land (R337). -/
def State.recordEarlier (s : State) (x : Flight) (claim : Nat) : Bool :=
  (s.core x.src).routes.any (fun r => r.claimNo < claim && r.owes x.dst) ||
    s.flights.any (fun g => g.src == x.src && g.dst == x.dst && (match g.body with | .metadata _ _ _ _ n => n < claim | _ => false))

/-- METADATA_LANDING (R337): both words, then the arrival counter; records land in the order of their claims. -/
def execMetadataLanding (f : Nat) (s : State) : Host.Outcome State Fault Refusal :=
  event s (do
    let x ← s.arriving f
    match x.body with
    | .metadata w0 w1 off actr claim =>
      let a := (s.dropFlight f).landWords x.dst off [w0, w1]
      if s.recordEarlier x claim || !s.addTurn x.src x.dst actr.toNat then none
      else some (((a.1.guardToHall x a.2).namedAdd x.dst actr.toNat).wakeHomed x.dst)
    | _ => none)

end Sys2Proof.Machine
end

