-- ==== Sys2Proof/Machine/EngineUnit.lean ====
section
/-!
DEFINITION. The block queue and the copy engine: entry checks, packets, tensor tiles and gathers, landings, completion, and
streamer atomics (R217 to R227, R261 to R266, R282, R283, R429, R430).
-/
namespace Sys2Proof.Machine

/-! ### Where an engine reads and writes on chip (R226, R262) -/

/-- A place on chip: the core, and the address of the first byte as home space numbers it; region 3 stands apart. -/
inductive ChipPlace where
  | store (core : CoreId) (addr : Nat)
  | regs (core : CoreId) (off : Nat)
  deriving DecidableEq, Repr

/-- n bytes that an engine pointer names on chip, under R49 with unblocked codes; none where a check fails, as one does for an
offset at or beyond a region's size whatever the length (R52). -/
def chipPlace (home : CoreId) (p : Word) (n : Nat) (region3 : Bool) : Option ChipPlace :=
  let a := ptrAddr p
  let off := chipOffset a
  if !(codeKnown (ptrFmt p) && unblocked (ptrFmt p) && ptrBlog p == 0) then none
  else if ptrSpace p = 0 then
    match rangeOf a n with
    | some .localStore => some (.store home a)
    | some .accumulators => some (.store home a)
    | _ => none
  else if ptrSpace p = 1 then
    match chipRegion a with
    | 0 => if off < 0x80000 && off + n ≤ 0x80000 then some (.store (chipCore a) off) else none
    | 2 => if off < 0x10000 && off + n ≤ 0x10000 then some (.store (chipCore a) (0x90000 + off)) else none
    | 3 => if region3 && off < 0x4000 && off + n ≤ 0x4000 && off % 128 == 0 && n % 128 == 0 then some (.regs (chipCore a) off) else none
    | _ => none
  else none

/-- The core of a place. -/
def ChipPlace.core : ChipPlace → CoreId
  | .store c _ => c
  | .regs c _ => c

/-- A device virtual pointer of an engine with an unblocked code (R262). -/
def devicePtr (p : Word) : Bool :=
  codeKnown (ptrFmt p) && unblocked (ptrFmt p) && ptrBlog p == 0 && ptrSpace p == 2

/-! ### Cutting (R218) -/

/-- Cut a run of bits at the 4 KiB boundaries of `key`, the byte address that side begins at: each piece with its page's
number, its offset in bits from the run's start and its length. -/
def cutRun : Nat → Nat → Nat → Nat → List (Nat × Nat × Nat)
  | 0, _, _, _ => []
  | f + 1, keyBit, done, bits =>
    if bits = 0 then []
    else
      let n := min bits (32768 - keyBit % 32768)
      (keyBit / 32768, done, n) :: cutRun f (keyBit + n) (done + n) (bits - n)

/-- The pieces of a run that begins at a bit of the cut side. -/
def pieces (keyBit bits : Nat) : List (Nat × Nat × Nat) := cutRun (bits / 32768 + 2) keyBit 0 bits

/-- The place some bits further on. -/
def Place.plus (p : Place) (n : Nat) : Place :=
  match p with
  | .zero => .zero
  | .ptr w b => .ptr w (b + n)
  | .slot g id b => .slot g id (b + n)

/-- A packet with nothing done.  Zeros that fill clipped or unused places are no bytes written: a status does not count them, the zero
rows of a gather's last slot among them (DESIGN CHOICE log 114). -/
def newPacket (key : Nat) (page : Option Nat) (moves : List Move) (due : Nat) : Packet :=
  { key := key, moves := moves, page := page, frame := none, data := none, sentAt := 0, late := false, waiting := false, begun := false,
    code := none,
    bits := (moves.filter (fun m => m.src != .zero)).map (·.bits) |>.sum, due := due }

/-- The moves of a run whose source is in device memory, with their pages. -/
def deviceMoves (va : Nat) (src dst : Place) (bits : Nat) : List (Nat × Move) :=
  (pieces va bits).map (fun p => (p.1, { src := src.plus p.2.1, dst := dst.plus p.2.1, bits := p.2.2, got := none }))

/-- Moves of one page make one packet (R218); moves of zeros make one packet of their own. -/
def packetsOf (due : Nat) (l : List (Nat × Move)) (zeros : List Move) : List Packet :=
  let pages := (l.map (·.1)).eraseDups
  let ps := pages.map (fun g => newPacket (4096 * g) (some (4096 * g)) ((l.filter (·.1 == g)).map (·.2)) due)
  if zeros = [] then ps else ps ++ [newPacket (2 ^ 64) none zeros due]

/-- An on-chip copy is cut at the 4 KiB boundaries of its destination's offset in its region (R218). -/
def copyPackets (due off : Nat) (src dst : Place) (n : Nat) : List Packet :=
  (pieces (8 * off) (8 * n)).map (fun p =>
    newPacket (4096 * p.1) none [{ src := src.plus p.2.1, dst := dst.plus p.2.1, bits := p.2.2, got := none }] due)

/-! ### Tensor descriptors (R222, DEDUCED log 28) -/

/-- Bits of an element in memory: a CB16 word holds eight (R48, DEDUCED log 28). -/
def elementBits (code : Nat) : Nat := if code = 0x10 || code = 0x15 then 2 else codeBits code

/-- A tensor descriptor. -/
structure Tensor where
  base : Word
  size : List Nat
  stride : List Nat
  ext : List Nat
  hid : Nat
  ring : Option (BitVec 3)
  dest : Word
  scale : Word
  res : Bool
  deriving DecidableEq, Repr

/-- The descriptor that 64 bytes hold. -/
def Tensor.ofBytes (b : List Byte) : Tensor :=
  let num (o n : Nat) : Nat := bytesToNat ((b.drop o).take n)
  let ctl := num 44 4
  { base := BitVec.ofNat 64 (num 0 8), size := [num 8 4, num 12 4, num 16 4, num 20 4], stride := [1, num 24 4, num 28 4, num 32 4],
    ext := [num 36 2, num 38 2, num 40 2, num 42 2], hid := field ctl 0 8,
    ring := if field ctl 8 1 = 1 then some (BitVec.ofNat 3 (field ctl 9 3)) else none,
    dest := BitVec.ofNat 64 (num 48 8), scale := BitVec.ofNat 64 (num 56 8), res := field ctl 12 20 == 0 }

/-- Entry k of a list of numbers. -/
def natAt (l : List Nat) (k : Nat) : Nat := l.getD k 0

/-- Elements per scale; 0 for an unblocked format. -/
def Tensor.block (t : Tensor) : Nat := if codeBlocked (ptrFmt t.base) then 2 ^ ptrBlog t.base else 0

/-- The scale pointer suits the format (R222). -/
def Tensor.scaleOk (t : Tensor) : Bool :=
  if t.block = 0 then t.scale == 0
  else ptrSpace t.scale == 2 && ptrBlog t.scale == 0 && ptrFmt t.scale == (if ptrFmt t.base = 0x16 then 0x0B else 0x11)

/-- The checks of R222 that do not look at a ring or a destination. -/
def Tensor.ok (t : Tensor) : Bool :=
  codeKnown (ptrFmt t.base) && (codeBlocked (ptrFmt t.base) == (ptrBlog t.base != 0)) && ptrSpace t.base == 2 &&
    t.size.all (· != 0) && t.ext.all (· != 0) && t.res && (t.hid ≤ 63 || t.hid == 255) && t.scaleOk

/-- Bits of one scale. -/
def Tensor.scaleBits (t : Tensor) : Nat := codeBits (ptrFmt t.scale)

/-! ### Deliveries into rings (R173, R222, R225) -/

/-- The ring is one that engines feed (R171, R173).  A tile or a gather into another ring, or into one that is not
configured, ends with 0x0104, which R222's list does not name (DESIGN CHOICE log 96). -/
def Core.ringTakes (k : Core) (g : BitVec 3) : Bool := (k.rings[g.toFin]).cfg && (k.rings[g.toFin]).eng

/-- Bits of a ring's slot. -/
def Core.slotBits (k : Core) (g : BitVec 3) : Nat := 8 * (k.rings[g.toFin]).slotBytes

/-- The scale ring that serves a ring. -/
def Core.scaleRing (k : Core) (g : BitVec 3) : Option (BitVec 3) :=
  if (k.rings[g.toFin]).lnk then some (k.rings[g.toFin]).sring else none

/-- A slot that a delivery reserves: its id, the bits that are to land in it, and for a scale tile the number of its data tile
(R85, R223). -/
structure Reserved where
  id : Nat
  bits : Nat
  number : Option (BitVec 16)
  deriving DecidableEq, Repr

/-- The number that the tile of the next reserved slot will have (R173). -/
def Ring.nextNumber (r : Ring) (i : Nat) : BitVec 16 := BitVec.ofNat 16 (r.pubs + r.filling.length + i)

/-- Reserve slots at the tail. -/
def Core.reserve (k : Core) (g : BitVec 3) (l : List Reserved) : Core :=
  let r := k.rings[g.toFin]
  let r' : Ring := { r with filling := r.filling ++ l.map (fun x => (x.id, x.bits))
                            given := r.given ++ l.filterMap (fun x => x.number.map (fun q => (x.id, q))) }
  { k with rings := k.rings.set g.toFin r' }

/-- What the slot at the tail holds of a number, once a delivery under an id has filled it (R85). -/
def Ring.tagTail (r : Ring) (id : Nat) : Ring :=
  let rest := r.tags.filter (·.1 != r.tail)
  let own := ((assocGet r.given id).map (fun q => (r.tail, q))).toList
  { r with given := r.given.filter (·.1 != id), tags := own ++ rest }

/-- Slots at the front of the reserved ones that are filled are published, in slot order (R173). -/
def Ring.publish (r : Ring) : Nat → Ring
  | 0 => r
  | n + 1 =>
    match r.filling with
    | (id, 0) :: rest =>
      let t := r.tagTail id
      Ring.publish { t with filling := rest, ready := r.ready + 1, pubs := r.pubs + 1,
                            tail := if r.slots = 0 then 0 else (r.tail + 1) % r.slots } n
    | _ => r

/-- Bits have landed in a reserved slot. -/
def Core.fillSlot (k : Core) (g : BitVec 3) (id bits : Nat) : Core :=
  let r := k.rings[g.toFin]
  let f := r.filling.map (fun x => if x.1 = id then (x.1, x.2 - bits) else x)
  { k with rings := k.rings.set g.toFin (Ring.publish { r with filling := f } f.length) }

/-- A clip handler has ended: its tile's slot, and the slot of the tile's scales, need it no more (R224). -/
def Core.endClip (k : Core) (id : Nat) : Core := (List.range 8).foldl (fun k g => k.fillSlot (BitVec.ofNat 3 g) id 1) k

/-- Where a reserved slot stands: its number and its first byte, once the ring has room for it (R172, R173). -/
def Core.slotPlace (k : Core) (g : BitVec 3) (id : Nat) : Option (Nat × Nat) :=
  let r := k.rings[g.toFin]
  match r.filling.findIdx? (·.1 == id) with
  | none => none
  | some i =>
    if r.ready + r.held + i < r.slots then
      let n := (r.tail + i) % r.slots
      some (n, ptrAddr r.base + n * r.slotBytes)
    else none

/-! ### Tiles (R223, R224) -/

/-- The origin of a tile, signed. -/
def tileOrigin (c d : Word) : List Int :=
  [signed c.toNat 32, signed (c.toNat / 2 ^ 32) 32, signed d.toNat 32, signed (d.toNat / 2 ^ 32) 32]

/-- The in-range indexes of a dimension: the first, and how many (R224). -/
def inRange (o : Int) (ext size : Nat) : Nat × Nat :=
  let lo := (max 0 (-o)).toNat
  let hi := (min (ext : Int) ((size : Int) - o)).toNat
  if lo < hi then (lo, hi - lo) else (ext, 0)

/-- The outer coordinates of a tile's rows. -/
def tileRows (ext : List Nat) : List (List Nat) :=
  (List.range (natAt ext 3)).flatMap (fun i3 => (List.range (natAt ext 2)).flatMap (fun i2 =>
    (List.range (natAt ext 1)).map (fun i1 => [i1, i2, i3])))

/-- One row of a tile: moves of its in-range run and of the zeros beside it. -/
structure RowPlan where
  moves : List (Nat × Move)
  zeros : List Move
  deriving DecidableEq, Repr

/-- A row of n units of w bits, of which the in-range ones begin at `lo`: the source of unit `lo` is `srcBit` bits past a
pointer, the row begins at `dst`. -/
def planRow (p : Word) (w lo len n srcBit : Nat) (dst : Place) (zero : Bool) : RowPlan :=
  let pad (a b : Nat) : List Move :=
    if zero && b != 0 then [{ src := .zero, dst := dst.plus (w * a), bits := w * b, got := none }] else []
  { moves := if len = 0 then [] else deviceMoves (8 * ptrAddr p + srcBit) (.ptr p srcBit) (dst.plus (w * lo)) (w * len)
    zeros := if len = 0 then pad 0 n else pad 0 lo ++ pad (lo + len) (n - lo - len) }

/-- The tensor index of coordinates under strides. -/
def tensorIndex (t : List Nat) (stride : List Nat) : Nat :=
  natAt t 0 + natAt t 1 * natAt stride 1 + natAt t 2 * natAt stride 2 + natAt t 3 * natAt stride 3

/-- The rows of a tile: elements of w bits at a base, or scales with dimension 0 divided by the block. -/
def planTile (p : Word) (w : Nat) (ext stride : List Nat) (o : List Int) (range : List (Nat × Nat)) (dst : Place) (zero : Bool) :
    List RowPlan :=
  (tileRows ext).map (fun i =>
    let ok := (List.range 3).all (fun k =>
      let r := range.getD (k + 1) (0, 0)
      r.1 ≤ natAt i k && natAt i k < r.1 + r.2)
    let r0 := range.getD 0 (0, 0)
    let at' (k : Nat) (v : Nat) : Nat := (o.getD k 0 + (v : Int)).toNat
    let t := [at' 0 r0.1, at' 1 (natAt i 0), at' 2 (natAt i 1), at' 3 (natAt i 2)]
    let row := natAt i 0 + natAt ext 1 * (natAt i 1 + natAt ext 2 * natAt i 2)
    planRow p w r0.1 (if ok then r0.2 else 0) (natAt ext 0) (w * tensorIndex t stride) (dst.plus (w * (natAt ext 0 * row))) zero)

/-- The packets and zero moves of rows. -/
def gatherRows (l : List RowPlan) : List (Nat × Move) × List Move := (l.flatMap (·.moves), l.flatMap (·.zeros))

/-- Bits that moves bring to one slot. -/
def slotShare (l : List Move) (id : Nat) : Nat :=
  ((l.filter (fun m => match m.dst with | .slot _ i _ => i == id | _ => false)).map (·.bits)).sum

/-- Strides of the scale array (R223). -/
def Tensor.scaleStride (t : Tensor) : List Nat :=
  let n := natAt t.size 0 / t.block
  [1, n, n * natAt t.size 1, n * natAt t.size 1 * natAt t.size 2]

/-- What an entry's checks have made of it. -/
structure Plan where
  packets : List Packet
  clipped : Bool
  clip : Option ClipInfo
  reserve : List (BitVec 3 × List Reserved)
  deriving DecidableEq, Repr

/-- BQTILE's checks of its destination: a ring slot of the tile's size, or a pointer (R222). -/
def tileDestOk (k : Core) (home : CoreId) (t : Tensor) (bits : Nat) : Bool :=
  match t.ring with
  | some g => k.ringTakes g && k.slotBits g == bits
  | none =>
    let plain := BitVec.ofNat 64 (ptrSpace t.dest * 2 ^ 52 + ptrAddr t.dest)
    codeKnown (ptrFmt t.dest) && (codeBlocked (ptrFmt t.dest) == (ptrBlog t.dest != 0)) &&
      (chipPlace home plain ((bits + 7) / 8) false).isSome

/-- BQTILE at its entry (R222 to R224); none is status 0x0104.  Scale bytes that land in the linked ring count as bytes written
(DESIGN CHOICE log 114). -/
def planBqtile (s : State) (c : CoreId) (cmd : EngineCmd) (t : Tensor) : Option Plan :=
  let k := s.core c
  let o := tileOrigin cmd.c cmd.d
  let w := elementBits (ptrFmt t.base)
  let total := natAt t.ext 0 * natAt t.ext 1 * natAt t.ext 2 * natAt t.ext 3
  let B := t.block
  let blocksOk := B == 0 || (natAt t.size 0 % B == 0 && natAt t.ext 0 % B == 0 && (o.getD 0 0) % (B : Int) == 0)
  if !(t.ok && blocksOk && tileDestOk k cmd.home t (w * total)) then none
  else
    let range := (List.range 4).map (fun d => inRange (o.getD d 0) (natAt t.ext d) (natAt t.size d))
    let inside := (range.map (·.2)).foldl (· * ·) 1
    let clipped := inside != total
    let handler := clipped && t.hid != 255
    let id := s.fresh
    let dst : Place := match t.ring with | some g => .slot g id 0 | none => .ptr t.dest 0
    let rows := gatherRows (planTile t.base w t.ext t.stride o range dst (t.hid == 255))
    let scaleTo := t.ring.bind k.scaleRing
    let srows : List (Nat × Move) × List Move := match scaleTo with
      | some h =>
        if B = 0 then ([], [])
        else
          let r0 := range.getD 0 (0, 0)
          let blocks (l : List Nat) : List Nat := natAt l 0 / B :: l.drop 1
          gatherRows (planTile t.scale t.scaleBits (blocks t.ext) t.scaleStride ((o.getD 0 0) / (B : Int) :: o.drop 1)
            ((if r0.2 = 0 then (natAt t.ext 0 / B, 0) else (r0.1 / B, r0.2 / B)) :: range.drop 1) (.slot h id 0) (t.hid == 255))
      | none => ([], [])
    let all := (rows.1 ++ srows.1).map (·.2) ++ rows.2 ++ srows.2
    let share (g : BitVec 3) : Nat :=
      slotShare (all.filter (fun m => match m.dst with | .slot h _ _ => h == g | _ => false)) id + (if handler then 1 else 0)
    let reserve : List (BitVec 3 × List Reserved) := match t.ring with
      | some g => (g, [{ id := id, bits := share g, number := none }]) :: (match scaleTo with
        | some h => if B = 0 then [] else [(h, [{ id := id, bits := share h, number := some (k.rings[g.toFin].nextNumber 0) }])]
        | none => [])
      | none => []
    let place := match t.ring with
      | some g =>
        let r := k.rings[g.toFin]
        BitVec.ofNat 64 (2 ^ 63 + g.toNat * 2 ^ 8 + (if r.slots = 0 then 0 else (r.tail + r.filling.length) % r.slots))
      | none => t.dest &&& 0x000FFFFFFFFFFFFF
    let four (f : Nat × Nat → Nat) : Word := BitVec.ofNat 64 ((List.range 4).map (fun d => f (range.getD d (0, 0)) * 2 ^ (16 * d))).sum
    let clip : Option ClipInfo :=
      if handler then some { hid := t.hid, slot := t.ring.map (fun g => (g, id)), w1 := BitVec.ofNat 64 (ptrAddr cmd.b),
                             w2 := four (·.1), w3 := four (·.2), w4 := place }
      else none
    some { packets := packetsOf (s.cycle + 1400) (rows.1 ++ srows.1) (rows.2 ++ srows.2), clipped := clipped, clip := clip,
           reserve := reserve }

/-! ### Gathers (R225) -/

/-- One row of a gather: its list entry, and where the row and its scales begin.  Elements of a row past size0 are written as
zeros and make the status 0x0002, whatever the handler id (DESIGN CHOICE log 97). -/
def planGatherRow (t : Tensor) (w index : Nat) (dst : Place) (sdst : Option Place) : List RowPlan :=
  let n := natAt t.ext 0
  let ok := index < natAt t.size 1
  let len := if ok then min n (natAt t.size 0) else 0
  let row := planRow t.base w 0 len n (w * (index * natAt t.stride 1)) dst true
  match sdst with
  | some d =>
    let B := t.block
    [row, planRow t.scale t.scaleBits 0 (len / B) (n / B) (t.scaleBits * (natAt t.size 0 / B * index)) d true]
  | none => [row]

/-- The rows of a partial last slot that stay are zeros. -/
def restOfSlot (n per w id : Nat) (g : BitVec 3) : List Move :=
  if n % per = 0 then [] else [{ src := .zero, dst := .slot g id (n % per * w), bits := (per - n % per) * w, got := none }]

/-- BQGATH at its entry (R225); none is status 0x0104. -/
def planBqgath (s : State) (c : CoreId) (cmd : EngineCmd) (t : Tensor) (index : List Nat) : Option Plan :=
  let k := s.core c
  let w := elementBits (ptrFmt t.base)
  let n := index.length
  let rowBits := w * natAt t.ext 0
  let B := t.block
  let flat := natAt t.size 2 == 1 && natAt t.size 3 == 1 && natAt t.ext 2 == 1 && natAt t.ext 3 == 1
  let blocksOk := B == 0 || (natAt t.size 0 % B == 0 && natAt t.ext 0 % B == 0)
  let destOk := match t.ring with
    | some g => k.ringTakes g && rowBits != 0 && k.slotBits g % rowBits == 0 && rowBits ≤ k.slotBits g
    | none => tileDestOk k cmd.home t (rowBits * n)
  if !(t.ok && flat && blocksOk && destOk) then none
  else
    let per := match t.ring with | some g => k.slotBits g / rowBits | none => 1
    let slots := (n + per - 1) / per
    let scaleTo := if B = 0 then none else t.ring.bind k.scaleRing
    let srow := if B = 0 then 0 else t.scaleBits * (natAt t.ext 0 / B)
    let plans := (List.range n).flatMap (fun i =>
      let id := s.fresh + i / per
      let dst : Place := match t.ring with | some g => .slot g id (i % per * rowBits) | none => .ptr t.dest (i * rowBits)
      planGatherRow t w (natAt index i) dst (scaleTo.map (fun h => .slot h id (i % per * srow))))
    let rows := gatherRows plans
    let last := s.fresh + (slots - 1)
    let tail := (match t.ring with | some g => restOfSlot n per rowBits last g | none => []) ++
      (match scaleTo with | some h => restOfSlot n per srow last h | none => [])
    let ids := (List.range slots).map (s.fresh + ·)
    let reserve : List (BitVec 3 × List Reserved) := match t.ring with
      | some g => (g, ids.map (fun i => { id := i, bits := per * rowBits, number := none })) :: (match scaleTo with
        | some h => [(h, ids.map (fun i =>
          { id := i, bits := per * srow, number := some (k.rings[g.toFin].nextNumber (i - s.fresh)) }))]
        | none => [])
      | none => []
    some { packets := packetsOf (s.cycle + 1400) rows.1 (rows.2 ++ tail),
           clipped := index.any (fun i => natAt t.size 1 ≤ i) || (n != 0 && natAt t.size 0 < natAt t.ext 0),
           clip := none, reserve := reserve }

/-! ### Entry (R217, R262) -/

/-- A plan of packets alone. -/
def plainPlan (l : List Packet) : Plan := { packets := l, clipped := false, clip := none, reserve := [] }

/-- The offset in its region of a place. -/
def ChipPlace.offset : ChipPlace → Nat
  | .store _ a => if 0x90000 ≤ a then a - 0x90000 else a
  | .regs _ o => o

/-- A local-store operand of an engine: its address, under the checks of R49. -/
def localOperand (p : Word) (n align : Nat) : Option Nat :=
  match checkLocal p n align with
  | .ok a => some a
  | .error _ => none

/-- The checks and the cutting of an entry: its plan, or the code it ends with (R217, R262, R265) (DEDUCED log 37). -/
def planEntry (s : State) (c : CoreId) (cmd : EngineCmd) : Except Nat Plan :=
  let n := cmd.d.toNat
  let due := s.cycle + 1400
  let home := s.core cmd.home
  match cmd.kind with
  | .fetch =>
    match devicePtr cmd.b, chipPlace cmd.home cmd.c n false with
    | true, some _ =>
      if 2 ^ 30 < n then .error 0x0104
      else .ok (plainPlan (packetsOf due (deviceMoves (8 * ptrAddr cmd.b) (.ptr cmd.b 0) (.ptr cmd.c 0) (8 * n)) []))
    | _, _ => .error 0x0104
  | .store =>
    match chipPlace cmd.home cmd.b n false, devicePtr cmd.c with
    | some _, true =>
      if 2 ^ 30 < n then .error 0x0104
      else .ok (plainPlan (packetsOf due (deviceMoves (8 * ptrAddr cmd.c) (.ptr cmd.b 0) (.ptr cmd.c 0) (8 * n)) []))
    | _, _ => .error 0x0104
  | .lscopy =>
    match chipPlace cmd.home cmd.b n false, chipPlace cmd.home cmd.c n true with
    | some x, some y =>
      if 2 ^ 30 < n then .error 0x0104
      else .ok (plainPlan (copyPackets (s.cycle + s.transit c x.core + s.transit x.core y.core) y.offset (.ptr cmd.b 0) (.ptr cmd.c 0) n))
    | _, _ => .error 0x0104
  | .tile =>
    match localOperand cmd.b 64 64 with
    | none => .error 0x0104
    | some a =>
      if home.poisonedIn a 64 then .error 0x0103
      else match planBqtile s c cmd (Tensor.ofBytes (home.store.bytes a 64)) with
        | some p => .ok p
        | none => .error 0x0104
  | .gath =>
    if 2 ^ 20 < n then .error 0x0104
    else match localOperand cmd.b 64 64, localOperand cmd.c (4 * n) 4 with
      | some a, some l =>
        if home.poisonedIn a 64 || home.poisonedIn l (4 * n) then .error 0x0103
        else
          let index := (List.range n).map (fun i => bytesToNat (home.store.bytes (l + 4 * i) 4))
          match planBqgath s c cmd (Tensor.ofBytes (home.store.bytes a 64)) index with
          | some p => .ok p
          | none => .error 0x0104
      | _, _ => .error 0x0104
  | .amo op =>
    let w := if op = 1 then 4 else 8
    if codeKnown (ptrFmt cmd.b) && unblocked (ptrFmt cmd.b) && widthCode (8 * w) (ptrFmt cmd.b) && ptrBlog cmd.b == 0 &&
      ptrSpace cmd.b == 2 &&
        ptrAddr cmd.b % w == 0 then
      .ok (plainPlan [newPacket (ptrAddr cmd.b / 4096 * 4096) (some (ptrAddr cmd.b / 4096 * 4096)) [] due])
    else .error 0x0104
  | .cas =>
    if codeKnown (ptrFmt cmd.b) && unblocked (ptrFmt cmd.b) && widthCode 64 (ptrFmt cmd.b) && ptrBlog cmd.b == 0 && ptrSpace cmd.b == 2 &&
        ptrAddr cmd.b % 8 == 0 then
      .ok (plainPlan [newPacket (ptrAddr cmd.b / 4096 * 4096) (some (ptrAddr cmd.b / 4096 * 4096)) [] due])
    else .error 0x0104
  | .xcopy _ => .error 0x0104

/-- The access of an entry's packets (R423). -/
def EngineKind.access : EngineKind → Nat
  | .store => 1
  | .amo _ => 2
  | .cas => 2
  | _ => 0

/-- The entry's asker. -/
def BqEntry.asker (e : BqEntry) (c : CoreId) : Asker :=
  { core := c, seat := e.seat, lid := e.lid, cid := e.cid, ia := e.ia, cpc := e.cpc, mig := e.mig }

/-- The first byte of device memory that a packet of an entry touches on its page (R425). -/
def BqEntry.packetVa (e : BqEntry) (p : Packet) : Nat :=
  let start (x : Place) : Option Nat :=
    match x with
    | .ptr w bit => if ptrSpace w = 2 then some (ptrAddr w + bit / 8) else none
    | _ => none
  match p.moves.filterMap (fun m => (start m.src).orElse (fun _ => start m.dst)) with
  | [] => ptrAddr e.cmd.b
  | a :: l => l.foldl min a

/-- What a translation makes of a packet; a packet held on a fault is in flight from the number n on (R475). -/
def Packet.translated (p : Packet) (r : Translated) (n : Nat) : Packet :=
  match r with
  | .frame pa => { p with frame := some (pa / 4096 * 4096), waiting := false }
  | .code c => { p with code := some c, waiting := false, bits := 0 }
  | .report _ _ => { p with code := some 0x0100, waiting := false, bits := 0 }
  | .held _ _ => { p with waiting := true, sentAt := n }
  | .walk => { p with waiting := true }

/-- The outcome of a translation for a packet of an entry: what it posts, and what it asks for (R424, R425). -/
def State.packetOutcome (s : State) (c : CoreId) (e : BqEntry) (key va : Nat) (r : Translated) : State :=
  let acc := e.cmd.kind.access
  match r with
  | .walk => s.askWalk c e.ctx va acc (.packet c e.id key)
  | .held reason w => s.holdWalk (e.asker c) e.ctx va acc reason w (.packet c e.id key)
  | .report reason w => s.postWalk (e.asker c) e.ctx va acc reason w
  | _ => s

/-- Translate the packets of an entry, one after another; each goes out once its address has been looked up (R424). -/
def State.translatePackets (s : State) (c : CoreId) (e : BqEntry) : List Packet → State × List Packet
  | [] => (s, [])
  | p :: rest =>
    match p.page with
    | none => let r := s.translatePackets c e rest; (r.1, p :: r.2)
    | some _ =>
      let va := e.packetVa p
      let t := s.translate c e.ctx va e.cmd.kind.access
      let u := t.1.packetOutcome c e p.key va t.2
      let r := u.translatePackets c e rest
      (r.1, { p.translated t.2 t.1.fresh with due := p.due + s.lookupTime c e.ctx va } :: r.2)

/-- The core whose counter file holds the destination counter (R219). -/
def destOwner (s : State) (c : CoreId) (cmd : EngineCmd) : CoreId :=
  let of' (p : Word) : CoreId := if ptrSpace p = 1 then chipCore (ptrAddr p) else cmd.home
  let desc : CoreId :=
    match localOperand cmd.b 64 64 with
    | some a =>
      let t := Tensor.ofBytes ((s.core cmd.home).store.bytes a 64)
      if t.ring.isSome then c else of' t.dest
    | none => cmd.home
  match cmd.kind with
  | .fetch => of' cmd.c
  | .lscopy => of' cmd.c
  | .tile => desc
  | .gath => desc
  | _ => cmd.home

/-- A packet whose device bytes must be read and decrypted goes out some cc later (R482). -/
def Packet.after (p : Packet) (kind : EngineKind) (lag : Nat) : Packet :=
  if p.page.isSome && kind.access != 1 then { p with due := p.due + lag } else p

/-- BQ_ENTRY (R217, R218, R222): commands enter in the order of their commits, and wait for one of 32 places.  A fired command
that fails its checks posts a trap record instead (R235) (DEDUCED log 80). -/
def execBqEntry (f : Nat) (s : State) : Host.Outcome State Fault Refusal :=
  event s (do
    let x ← s.flight f
    match x.body with
    | .bqEntry cmd fired =>
      let c := x.dst
      let earlier := s.flights.any (fun g => g.id < x.id && g.dst == c && (match g.body with | .bqEntry .. => true | _ => false))
      if s.cycle < x.due || earlier || 32 ≤ (s.core c).bq.length then none
      else
        let t := s.dropFlight f
        let ctx := t.itemCtx c x.lid x.cid
        let base : BqEntry :=
          { id := x.id, cmd := cmd, tag := x.tag, cid := x.cid, seat := x.seat, lid := x.lid, ctx := ctx, mig := x.mig, ia := x.ia,
            cpc := x.cpc, packets := [], entryCode := none, clipped := false, clip := none,
            owner := destOwner t c cmd, srcAdded := false }
        match planEntry t c cmd, fired with
        | .error 0x0104, some record => some (t.fireFailed c x.lid record)
        | .error code, _ => some (t.setCore c { t.core c with bq := (t.core c).bq ++ [{ base with entryCode := some code }] })
        | .ok p, _ =>
          let k := p.reserve.foldl (fun (k : Core) r => k.reserve r.1 r.2) (t.core c)
          let ids := ((p.reserve.map (fun r => r.2.length)).sum) + 1
          let t : State := { t.setCore c k with fresh := t.fresh + ids }
          let e : BqEntry := { base with clipped := p.clipped, clip := p.clip }
          let r := t.translatePackets c e (p.packets.map (·.after cmd.kind (t.cipherLag (t.vfOf ctx))))
          some (r.1.setCore c { r.1.core c with bq := (r.1.core c).bq ++ [{ e with packets := r.2 }] })
    | _ => none)

/-! ### Reading and landing -/

/-- Bits of bytes, from a bit of the first on. -/
def takeBits (bs : List Byte) (bit n : Nat) : Nat := bytesToNat bs / 2 ^ bit % 2 ^ n

/-- Bytes with some bits replaced. -/
def putBits (bs : List Byte) (bit n v : Nat) : List Byte :=
  let o := bytesToNat bs
  natToBytes bs.length (o - o / 2 ^ bit % 2 ^ n * 2 ^ bit + v % 2 ^ n * 2 ^ bit)

/-- The bytes that n bits from a bit position reach: the first, and how many. -/
def bitSpan (pos n : Nat) : Nat × Nat := (pos / 8, (pos % 8 + n + 7) / 8)

/-- The on-chip place of a pointer that has been checked: core, home-space address, and the region and offset that a window
names. -/
def pointerPlace (home : CoreId) (p : Word) : CoreId × Nat × Nat × Nat :=
  let a := ptrAddr p
  if ptrSpace p = 0 then (home, a, if 0x90000 ≤ a then 2 else 0, if 0x90000 ≤ a then a - 0x90000 else a)
  else (chipCore a, (if chipRegion a = 2 then 0x90000 else 0) + chipOffset a, chipRegion a, chipOffset a)

/-- An engine of core c may reach n bytes of a pointer on chip under a right (R215, R216): its own core and space 0 are not
checked. -/
def State.engineMay (s : State) (c home : CoreId) (p : Word) (off n right : Nat) (vf : Option Nat) : Bool :=
  let q := pointerPlace home p
  q.1 == c || ptrSpace p == 0 || s.admits q.1 q.2.2.1 (q.2.2.2 + off) n right c vf

/-- The frame address of a device virtual byte of a packet. -/
def Packet.physical (p : Packet) (va : Nat) : Nat := p.frame.getD 0 + (va - p.page.getD 0)

/-- A refusal of a packet: its code, and the deferred trap that goes with it (R216, R220, R266). -/
structure Refused where
  code : Nat
  trap : Option (Nat × Word)
  deriving DecidableEq, Repr

/-- A window-refused packet. -/
def windowRefused (p : Word) (off : Nat) : Refused :=
  { code := 0x0102, trap := some (0x28, withAddr p (ptrAddr p + off)) }

/-- Read the bits of one move (R282): the value, and whether they came late. -/
def State.readMove (s : State) (c : CoreId) (e : BqEntry) (p : Packet) (m : Move) : State × Except Refused (Nat × Bool) :=
  match m.got, m.src with
  | some v, _ => (s, .ok (v, false))
  | none, .ptr w bit =>
    let sp := bitSpan (8 * ptrAddr w + bit) m.bits
    if ptrSpace w = 2 then
      let r := s.dramRead (s.vfOf e.ctx) (p.physical sp.1) sp.2
      match r.2 with
      | some x => (r.1, .ok (takeBits x.1 (bit % 8) m.bits, x.2))
      | none => (r.1, .error { code := 0x0103, trap := none })
    else
      let off := sp.1 - ptrAddr w
      let q := pointerPlace e.cmd.home w
      if !s.engineMay c e.cmd.home w off sp.2 rightRd (s.contextVf e.ctx) then (s, .error (windowRefused w off))
      else if (s.core q.1).poisonedIn (q.2.1 + off) sp.2 then (s, .error { code := 0x0103, trap := none })
      else (s, .ok (takeBits ((s.core q.1).store.bytes (q.2.1 + off) sp.2) (bit % 8) m.bits, false))
  | none, _ => (s, .ok (0, false))

/-- Read every move of a packet. -/
def State.readMoves (s : State) (c : CoreId) (e : BqEntry) (p : Packet) : List Move → State × Except Refused (List Nat × Bool)
  | [] => (s, .ok ([], false))
  | m :: rest =>
    let a := s.readMove c e p m
    match a.2 with
    | .error x => (a.1, .error x)
    | .ok v =>
      let b := a.1.readMoves c e p rest
      match b.2 with
      | .error x => (b.1, .error x)
      | .ok l => (b.1, .ok (v.1 :: l.1, v.2 || l.2))

/-- Replace an entry of a core's queue. -/
def Core.setEntry (k : Core) (e : BqEntry) : Core := { k with bq := mapFirst (fun x => x.id == e.id) (fun _ => e) k.bq }

/-- Replace a packet of an entry. -/
def BqEntry.setPacket (e : BqEntry) (p : Packet) : BqEntry :=
  { e with packets := mapFirst (fun x => x.key == p.key) (fun _ => p) e.packets }

/-- Replace a packet in a core's queue. -/
def State.setPacket (s : State) (c id : Nat) (p : Packet) : State :=
  let k := s.core c
  match k.bq.find? (·.id == id) with
  | some e => s.setCore c (k.setEntry (e.setPacket p))
  | none => s

/-- A packet ends, and what waits for it goes on. -/
def State.endPacket (s : State) (c id : Nat) (p : Packet) (code : Nat) : State :=
  (s.setPacket c id { p with code := some code, waiting := false, bits := if code < 0x0100 then p.bits else 0 }).settleInvs id
    (some p.key)

/-- A packet is refused: nothing of it is written (R220), and the issuing seat has its deferred trap (R266). -/
def State.refusePacket (s : State) (c : CoreId) (e : BqEntry) (p : Packet) (r : Refused) : State :=
  let s := s.endPacket c e.id p r.code
  match r.trap with
  | some t => s.deferTrap 0 c c e.cid e.seat e.lid t.1 t.2 e.ia e.cpc e.mig
  | none => s

/-- The lines of device memory that a packet reads. -/
def Packet.lines (p : Packet) : List Nat :=
  p.moves.flatMap (fun m => match m.got, m.src with
    | none, .ptr w bit =>
      let sp := bitSpan (8 * ptrAddr w + bit) m.bits
      if ptrSpace w = 2 then dramLines (p.physical sp.1) sp.2 else []
    | _, _ => [])

/-- When a packet can go on after reads of lines: at once, or once those that failed their check have been mended (R456). -/
def State.afterMend (s : State) (lines : List Nat) (due : Nat) : Nat :=
  let lag := s.mendLag lines
  if lag = 0 then due else max due (s.cycle + lag)

/-- A packet's reads (R218, R282): what it carries is fixed from here on. -/
def State.readPacket (s : State) (c : CoreId) (e : BqEntry) (p : Packet) (leaves : Bool := true) : State :=
  let due := s.afterMend p.lines p.due
  let r := s.readMoves c e p p.moves
  match r.2 with
  | .error x => r.1.refusePacket c e p x
  | .ok l =>
    let n := if p.sentAt = 0 && leaves then r.1.fresh else p.sentAt
    (r.1.setPacket c e.id { p with data := some l.1, sentAt := n, late := p.late || l.2, due := due }).tick

/-- The reads of a packet; an on-chip copy reads its whole source before its first write (R226), and its other packets leave later. -/
def State.readFor (s : State) (c : CoreId) (e : BqEntry) (p : Packet) : State :=
  if e.cmd.kind = .lscopy then
    (e.packets.filter (fun q => q.data.isNone && q.code.isNone)).foldl (fun s q => s.readPacket c e q (q.key == p.key)) s
  else s.readPacket c e p

/-- What a landing meets. -/
inductive Landing where
  | wait
  | refused (r : Refused)
  | fine
  deriving DecidableEq, Repr

/-- Where a move lands on chip: the core and home-space byte address the span begins at, and its length; none while a ring
has no room for the slot. -/
def State.landPlace (s : State) (c : CoreId) (e : BqEntry) (m : Move) : Option (CoreId × Nat × Nat × Nat) :=
  match m.dst with
  | .zero => none
  | .ptr w bit =>
    let sp := bitSpan (8 * ptrAddr w + bit) m.bits
    let q := pointerPlace e.cmd.home w
    some (q.1, q.2.1 + (sp.1 - ptrAddr w), sp.2, bit % 8)
  | .slot g id bit =>
    match (s.core c).slotPlace g id with
    | some x =>
      let sp := bitSpan (8 * x.2 + bit) m.bits
      some (c, sp.1, sp.2, bit % 8)
    | none => none

/-- A tile that a landing reaches is held, or named by a queued instruction (R178, R264). -/
def Core.tileBusy (k : Core) (a n : Nat) : Bool :=
  (tilesOf a n).any (fun t => k.tileHolds.any (·.1 == t) || k.matrix.any (fun e => e.op.tiles.contains t))

/-- What one move of a landing meets (R175, R215, R264).  A packet of which a part has landed is refused no more: its window has
been checked, and it waits while a slot it reaches is published (DESIGN CHOICE log 95). -/
def State.meetMove (s : State) (c : CoreId) (e : BqEntry) (begun : Bool) (m : Move) : Landing :=
  match s.landPlace c e m with
  | none => match m.dst with | .slot .. => .wait | _ => .fine
  | some q =>
    let refused := match m.dst with
      | .ptr w bit =>
        let off := (bitSpan (8 * ptrAddr w + bit) m.bits).1 - ptrAddr w
        if begun || s.engineMay c e.cmd.home w off q.2.2.1 rightWr (s.contextVf e.ctx) then none else some (windowRefused w off)
      | _ => none
    match refused with
    | some r => .refused r
    | none =>
      match (s.core q.1).guardedBy q.2.1 q.2.2.1 with
      | some g => if begun then .wait else .refused { code := 0x0101, trap := some (0x11, BitVec.ofNat 64 (0x100 + g)) }
      | none => if (s.core q.1).tileBusy q.2.1 q.2.2.1 then .wait else .fine

/-- The first refusal that the moves of a packet meet. -/
def State.refusal (s : State) (c : CoreId) (e : BqEntry) (p : Packet) : Option Refused :=
  p.moves.findSome? (fun m => match s.meetMove c e p.begun m with | .refused r => some r | _ => none)

/-- One move lands on chip: its words are set full (R212), and a ring slot fills (R173). -/
def State.landMove (s : State) (c : CoreId) (e : BqEntry) (m : Move) (v : Nat) : State :=
  match s.landPlace c e m with
  | none => s
  | some q =>
    let k := s.core q.1
    let s := s.setCore q.1 (k.land q.2.1 (putBits (k.store.bytes q.2.1 q.2.2.1) q.2.2.2 m.bits v))
    s

/-- The slots of a landing fill by the bits that came (R173). -/
def State.fillSlots (s : State) (c : CoreId) : List Move → State
  | [] => s
  | m :: r =>
    match m.dst with
    | .slot g id _ => (s.setCore c ((s.core c).fillSlot g id m.bits)).fillSlots c r
    | _ => s.fillSlots c r

/-- The moves of a packet land one after another. -/
def State.landMoves (s : State) (c : CoreId) (e : BqEntry) : List Move → List Nat → State
  | m :: r, v :: l => (s.landMove c e m v).landMoves c e r l
  | _, _ => s

/-- The writes of moves to device memory may be taken, all of them: a packet that meets a poisoned line in part writes nothing (R220,
R459). -/
def State.admitMoves (s : State) (e : BqEntry) (p : Packet) : List Move → State × Bool
  | [] => (s, true)
  | m :: r =>
    match m.dst with
    | .ptr w bit =>
      let a := s.admitWrite (s.vfOf e.ctx) (p.physical (ptrAddr w + bit / 8)) (m.bits / 8)
      let b := a.1.admitMoves e p r
      (b.1, a.2 && b.2)
    | _ => s.admitMoves e p r

/-- The moves of a packet of BQSTORE are written to device memory. -/
def State.storeMoves (s : State) (e : BqEntry) (p : Packet) : List Move → List Nat → State
  | m :: r, v :: l =>
    match m.dst with
    | .ptr w bit =>
      (s.dramWrite (s.vfOf e.ctx) (p.physical (ptrAddr w + bit / 8)) (natToBytes (m.bits / 8) v)).1.storeMoves e p r l
    | _ => s.storeMoves e p r l
  | _, _ => s

/-- A destination in vector registers (R227): core, seat and offset in the seat's registers. -/
def regionThree (w : Word) (bit : Nat) : Option (CoreId × Nat × Nat) :=
  if ptrSpace w = 1 && chipRegion (ptrAddr w) == 3 then
    let off := chipOffset (ptrAddr w) + bit / 8
    some (chipCore (ptrAddr w), off / 0x1000, off % 0x1000)
  else none

/-- The values of moves that follow one another, as one value with its bits: reads ahead cut a packet's one move (R282). -/
def joined : List Move → List Nat → Nat × Nat
  | m :: r, v :: l => let x := joined r l; (v % 2 ^ m.bits + 2 ^ m.bits * x.1, m.bits + x.2)
  | _, _ => (0, 0)

/-- A packet for vector registers leaves for its core, where it waits for the seat (R215, R227).  It is delivered per seat. -/
def State.sendRegs (s : State) (c : CoreId) (e : BqEntry) (p : Packet) (w : Word) (bit v bits : Nat) : State :=
  match regionThree w bit with
  | none => s
  | some d =>
    let off := chipOffset (ptrAddr w) + bit / 8
    if d.1 ≠ c && !s.admits d.1 3 off (bits / 8) rightDlv c (s.contextVf e.ctx) then s.refusePacket c e p (windowRefused w (bit / 8))
    else
      let s := s.setPacket c e.id { p with waiting := true }
      s.send (s.transit c d.1) c d.1 e.lid e.cid e.seat e.tag e.ia e.cpc
        (.region3 d.2.1 d.2.2 (natToBytes (bits / 8) v) e.id p.key)

/-- The pointer and the bit past it where a packet for vector registers begins. -/
def Packet.regs (p : Packet) : Option (Word × Nat) :=
  match p.moves with
  | m :: _ => (match m.dst with | .ptr w bit => if (regionThree w bit).isSome then some (w, bit) else none | _ => none)
  | [] => none

/-- A packet with some of its moves still to land. -/
def Packet.left (p : Packet) (l : List (Move × Nat)) : Packet :=
  { p with moves := l.map (·.1), data := some (l.map (·.2)), begun := true }

/-- A landing in stores: a refusal ends the packet (R220); else the moves that nothing holds back land, and the packet ends
with the last of them. -/
def State.landChip (s : State) (c : CoreId) (e : BqEntry) (p : Packet) (l : List Nat) (done : Nat) : Option State :=
  match s.refusal c e p with
  | some r => some (s.refusePacket c e p r)
  | none =>
    let now (x : Move × Nat) : Bool := s.meetMove c e p.begun x.1 == .fine
    let all := p.moves.zip l
    let rest := all.filter (fun x => !now x)
    let ms := (all.filter now).map (·.1)
    if ms = [] && rest != [] then none
    else
      let t := (s.landMoves c e ms ((all.filter now).map (·.2))).fillSlots c ms
      some (if rest = [] then t.endPacket c e.id p done else t.setPacket c e.id (p.left rest))

/-- A packet's writes, once it has read (R218, R220). -/
def State.landPacket (s : State) (c : CoreId) (e : BqEntry) (p : Packet) (l : List Nat) : Option State :=
  let done := if p.late then 1 else 0
  match e.cmd.kind with
  | .store =>
    let a := s.admitMoves e p p.moves
    some (if a.2 then (a.1.storeMoves e p p.moves l).endPacket c e.id p done else a.1.endPacket c e.id p 0x0103)
  | _ =>
    match p.regs with
    | some w => let x := joined p.moves l; some (s.sendRegs c e p w.1 w.2 x.1 x.2)
    | none => s.landChip c e p l done

/-- A core takes a packet under a number, 0 where it has not left: no settled halt refuses it (R475). -/
def Core.admitsPacket (k : Core) (n : Nat) : Bool := if n = 0 then k.haltSettled.isNone else k.lands n

/-- A core that a move touches on chip is away or not active, or, where the move writes, takes no new packet under a settled halt (R407,
R475, R483). -/
def State.awayAt (s : State) (c : CoreId) (e : BqEntry) (x : Place) (write : Option Nat) : Bool :=
  let gone (d : CoreId) : Bool :=
    (s.core d).away || (s.core d).power != .active || write.any (fun n => !(s.core d).admitsPacket n)
  match x with
  | .ptr w _ => ptrSpace w ≤ 1 && gone (pointerPlace e.cmd.home w).1
  | .slot .. => gone c
  | .zero => false

/-- A packet has been sent: it has read its source, or a word of it, and left. -/
def Packet.sent (p : Packet) : Bool := p.sentAt != 0 && (p.data.isSome || p.moves.any (·.got.isSome))

/-- A packet can act now: it has been translated, its time has come, and the cores it touches are there; a stopped core
sends none that has not left (R221). -/
def State.packetReady (s : State) (c : CoreId) (e : BqEntry) (p : Packet) : Bool :=
  p.code.isNone && !p.waiting && p.due ≤ s.cycle && (p.page.isNone || p.frame.isSome) &&
    ((s.core c).hold == .none || p.sent) && p.moves.all (fun m => (p.data.isSome || !s.awayAt c e m.src none) &&
      !s.awayAt c e m.dst (some p.sentAt))

/-- The entry and the packet under their numbers. -/
def State.packetAt (s : State) (c e p : Nat) : Option (BqEntry × Packet) := do
  let x ← (s.core c).bq.find? (·.id == e)
  let q ← x.packets.find? (·.key == p)
  some (x, q)

/-- BQ_PACKET_COMPLETE (R218, R220, R226): a first turn reads, a second one writes; a packet that was read with an earlier one
leaves between them. -/
def execBqPacketComplete (c e p : Nat) (s : State) : Host.Outcome State Fault Refusal :=
  event s (do
    let x ← s.packetAt c e p
    let atomic : Bool := match x.1.cmd.kind with | .amo _ => true | .cas => true | _ => false
    if atomic || !s.packetReady c x.1 x.2 then none
    else match x.2.data with
      | none => some (s.readFor c x.1 x.2)
      | some l => if x.2.sentAt = 0 then some (s.setPacket c e { x.2 with sentAt := s.fresh }).tick else s.landPacket c x.1 x.2 l)

/-! ### Words ahead of their packets (R282) -/

/-- Where a place begins, in bits, as far as the bounds of words go. -/
def Place.position : Place → Nat
  | .zero => 0
  | .ptr w b => 8 * ptrAddr w + b
  | .slot _ _ b => b

/-- The piece of a move that holds a word of the side that begins at a bit: its start and its bits. -/
def wordPiece (pos bits word : Nat) : Nat × Nat :=
  let lo := if word = 0 then 0 else 64 * word - pos % 64
  (lo, min bits (64 * (word + 1) - pos % 64) - lo)

/-- A piece of a move. -/
def Move.slice (m : Move) (lo n : Nat) : Move :=
  { src := m.src.plus lo, dst := m.dst.plus lo, bits := n, got := m.got.map (fun v => v / 2 ^ lo % 2 ^ n) }

/-- A list with one place taken by others. -/
def splice {α : Type} (l : List α) (i : Nat) (x : List α) : List α := l.take i ++ x ++ l.drop (i + 1)

/-- A word of a packet is read ahead of the rest. -/
def State.readAhead (s : State) (c : CoreId) (e : BqEntry) (p : Packet) (m : Move) (i word : Nat) : Option State :=
  let w := wordPiece m.src.position m.bits word
  if w.2 = 0 || m.got.isSome || m.src == .zero then none
  else
    let x := m.slice w.1 w.2
    let r := s.readMove c e p x
    match r.2 with
    | .error _ => none
    | .ok v =>
      let parts := [m.slice 0 w.1, { x with got := some v.1 }, m.slice (w.1 + w.2) (m.bits - w.1 - w.2)].filter (·.bits != 0)
      some (r.1.setPacket c e.id { p with moves := splice p.moves i parts, late := p.late || v.2, due := s.afterMend p.lines p.due,
                                          sentAt := if p.sentAt = 0 then r.1.fresh else p.sentAt }).tick

/-- Two places lie in one address space, or in one ring slot. -/
def Place.near : Place → Place → Bool
  | .ptr w _, .ptr v _ => ptrSpace w == ptrSpace v
  | .slot g i _, .slot h j _ => g == h && i == j
  | _, _ => false

/-- A move with its value, cut at one word of the destination of another: what it writes of the word, and the rest of it. -/
def Move.cut (m : Move) (v : Nat) (at' : Place) (word : Nat) : List (Move × Nat) × List (Move × Nat) :=
  let p := m.dst.position
  let lo := max p (64 * word)
  let hi := min (p + m.bits) (64 * (word + 1))
  let part (a b : Nat) : List (Move × Nat) := if b ≤ a then [] else [(m.slice (a - p) (b - a), v / 2 ^ (a - p) % 2 ^ (b - a))]
  if !m.dst.near at' || hi ≤ lo then ([], [(m, v)]) else (part lo hi, part p lo ++ part hi (p + m.bits))

/-- A word of a packet lands ahead of the rest, where no part of the packet is refused: all that the packet writes of it, whichever of
its moves bring it, so that the word is written whole. -/
def State.landAhead (s : State) (c : CoreId) (e : BqEntry) (p : Packet) (l : List Nat) (m : Move) (word : Nat) : Option State :=
  let w := wordPiece m.dst.position m.bits word
  let cuts := (p.moves.zip l).map (fun x => x.1.cut x.2 m.dst ((m.dst.position + w.1) / 64))
  let now := cuts.flatMap (·.1)
  let rest := cuts.flatMap (·.2)
  let ms := now.map (·.1)
  if w.2 = 0 || ms == [] || rest == [] then none
  else if e.cmd.kind == .store then
    let a := s.admitMoves e p p.moves
    if a.2 then some ((a.1.storeMoves e p ms (now.map (·.2))).setPacket c e.id (p.left rest)) else none
  else
    if p.regs.isSome || (s.refusal c e p).isSome || ms.any (fun x => s.meetMove c e p.begun x != .fine) then none
    else some (((s.landMoves c e ms (now.map (·.2))).fillSlots c ms).setPacket c e.id (p.left rest))

/-- One word of a packet is read, or lands, ahead of the rest of it: words of one operation keep no order (R282). -/
def State.wordAhead (s : State) (c e p i word : Nat) : Option State := do
  let x ← s.packetAt c e p
  let m ← x.2.moves[i]?
  let atomic : Bool := match x.1.cmd.kind with | .amo _ => true | .cas => true | _ => false
  if atomic || !s.packetReady c x.1 x.2 then none
  else match x.2.data with
    | none => s.readAhead c x.1 x.2 m i word
    | some l => if x.2.sentAt = 0 then none else s.landAhead c x.1 x.2 l m word

/-- REGION3_DELIVERY (R227): the registers are written once the seat is free. -/
def execRegion3Delivery (f : Nat) (s : State) : Host.Outcome State Fault Refusal :=
  event s (do
    let x ← s.arriving f
    match x.body with
    | .region3 seat off data entry packet =>
      let t := s.seat x.dst seat
      if t.st ≠ .free then none
      else
        let n := data.length / 128
        let put (t : Seat) (i : Nat) : Seat :=
          let r := BitVec.ofNat 5 (off / 128 + i)
          { t with regs := t.regs.write (.v r) (BitVec.ofNat 1024 (bytesToNat ((data.drop (128 * i)).take 128)))
                   delivered := r :: t.delivered }
        let u := (s.dropFlight f).setSeat x.dst seat ((List.range n).foldl put t)
        match u.packetAt x.src entry packet with
        | some y => some (u.endPacket x.src entry y.2 (if y.2.late then 1 else 0))
        | none => some u
    | _ => none)

/-- STREAMER_ATOMIC (R263, R429, R430): its word is read and written in one turn; where its line had to be mended, a second turn
ends it when that is done (R456). -/
def execStreamerAtomic (c e : Nat) (s : State) : Host.Outcome State Fault Refusal :=
  event s (do
    let x ← (s.core c).bq.find? (·.id == e)
    let p ← x.packets.head?
    if !s.packetReady c x p then none
    else if p.data.isSome then some (s.endPacket c e p 1)
    else
      let op ← (match x.cmd.kind with | .amo op => some op | .cas => some 5 | _ => none)
      let w := if op = 1 then 4 else 8
      let pa := p.physical (ptrAddr x.cmd.b)
      let r := s.dramRead (s.vfOf x.ctx) pa w
      match r.2 with
      | none => some (r.1.endPacket c e p 0x0103)
      | some (bs, late) =>
        let old := bytesToNat bs
        let v := amoResult op old x.cmd.c.toNat x.cmd.d.toNat
        let writes := op != 5 || old == x.cmd.d.toNat
        let t := if writes then (r.1.dramWrite (s.vfOf x.ctx) pa (natToBytes w v)).1 else r.1
        let p := { p with bits := if writes then 8 * w else 0 }
        some (if late then t.setPacket c e { p with data := some [], late := true, due := s.afterMend (dramLines pa w) p.due }
          else t.endPacket c e p 0))

/-- Every source byte of an entry has been read, or will not be (R219). -/
def BqEntry.sourceRead (e : BqEntry) : Bool := e.packets.all (fun p => p.data.isSome || p.code.isSome)

/-- The source-end add of an entry. -/
def State.addSource (s : State) (c : CoreId) (e : BqEntry) : State :=
  (s.setCore c ((s.core c).setEntry { e with srcAdded := true })).namedAdd e.cmd.home e.cmd.sc

/-- A counter of a core can take an entry's add: none is named, or the engine's own core, or another that takes the deliveries of the
entry's context, takes it in its turn (R229, R249). -/
def State.addOpen (s : State) (c ctx owner : CoreId) (idx : Nat) : Bool :=
  255 ≤ idx || ((owner == c || s.holds owner ctx) && s.addTurn c owner idx)

/-- SOURCE_END_ADD (R219, R283). -/
def execSourceEndAdd (c e : Nat) (s : State) : Host.Outcome State Fault Refusal :=
  event s (do
    let x ← (s.core c).bq.find? (·.id == e)
    if x.srcAdded || !x.sourceRead || !s.addOpen c x.ctx x.cmd.home x.cmd.sc then none else some (s.addSource c x))

/-- The status of a complete entry (R220). -/
def BqEntry.status (e : BqEntry) : Word :=
  let bad := e.packets.filter (fun p => 0x0100 ≤ p.code.getD 0)
  let first := bad.foldl (fun (b : Option Packet) p =>
    match b with
    | some q => if p.key < q.key then some p else b
    | none => some p) none
  let done := (e.packets.map (fun p => p.code.getD 0)).foldl max (if e.clipped then 2 else 0)
  let code := match e.entryCode, first with
    | some c, _ => c
    | none, some p => p.code.getD 0
    | none, none => done
  BitVec.ofNat 64 (code * 2 ^ 48 + (e.packets.map (·.bits)).sum / 8 % 2 ^ 48)

/-- The clip message of an entry (R224, R259). -/
def State.postClip (s : State) (c : CoreId) (e : BqEntry) (k : ClipInfo) : State :=
  s.send 0 c c e.lid 0 e.seat 0 0 0
    (.message { hid := k.hid, words := [k.w1, k.w2, k.w3, k.w4, e.status], src := c, seq := 0x8000000000000000, lid := e.lid,
                clip := k.slot })

/-- An entry has a status register's result to deliver (R264, R265). -/
def EngineKind.hasStatus : EngineKind → Bool
  | .lscopy => false
  | .xcopy _ => false
  | _ => true

/-- BQ_ENTRY_COMPLETE (R219, R220, R224): the source-end add where it is still due, the destination add, then the status. -/
def execBqEntryComplete (c e : Nat) (s : State) : Host.Outcome State Fault Refusal :=
  event s (do
    let x ← (s.core c).bq.find? (·.id == e)
    if !(x.packets.all (fun p => p.code.isSome) && (x.srcAdded || s.addOpen c x.ctx x.cmd.home x.cmd.sc) &&
        s.addOpen c x.ctx x.owner x.cmd.dc) then none
    else
      let t := if x.srcAdded then s else s.addSource c x
      let t := t.namedAdd x.owner x.cmd.dc
      let t := match x.clip with | some k => t.postClip c x k | none => t
      let k := t.core c
      let t := ((t.setCore c { k with bq := k.bq.filter (·.id != e) }).complete x.tag).settleInvs e none
      some (if x.cmd.kind.hasStatus then t.send 0 c c x.lid x.cid x.seat x.tag x.ia x.cpc (.deferred x.tag x.status) else t))

end Sys2Proof.Machine
end

