-- ==== Sys2Proof/Machine/Fabric.lean ====
section
/-!
DEFINITION. The package edge: streams, packets, ports and export windows (R435 to R443, R446, R450).
-/
namespace Sys2Proof.Machine

/-! ### Tables -/

/-- Fields of a space 3 address (R54, R437): the package, the export entry and the byte in it. -/
def remotePackage (p : Word) : Nat := p.field 40 12

def remoteEntry (p : Word) : Nat := p.field 32 8

def remoteByte (p : Word) : Nat := p.field 0 32

/-- The stream entry under a number; zeros where map has written none (R439). -/
def State.stream (s : State) (n : Nat) : TableEntry := (assocGet s.streams n).getD { w0 := 0, w1 := 0, w2 := 0, w3 := 0 }

/-- The export entry under a number (R437). -/
def State.exportEntry (s : State) (n : Nat) : TableEntry := (assocGet s.exports n).getD { w0 := 0, w1 := 0, w2 := 0, w3 := 0 }

/-- A stream is ordered. -/
def TableEntry.ordered (e : TableEntry) : Bool := e.w0.bit 1

/-- The current set of a stream. -/
def TableEntry.cur (e : TableEntry) : Nat := e.w0.field 4 2

/-- Set j of a stream entry. -/
def TableEntry.setWord (e : TableEntry) (j : Nat) : Nat := (if j % 4 < 2 then e.w1 else e.w2).field (32 * (j % 2)) 32

/-- The ports a set sends on, and the ports it accepts arrivals on. -/
def TableEntry.outPorts (e : TableEntry) (j : Nat) : List Nat := (List.range 12).filter (fun p => (e.setWord j).testBit p)

def TableEntry.accepts (e : TableEntry) (j p : Nat) : Bool := (e.setWord j).testBit (12 + p)

/-- The entry one set on (R441). -/
def TableEntry.step (e : TableEntry) : TableEntry :=
  let next := (e.cur + 1) % (e.w0.field 2 2 + 1)
  { e with w0 := BitVec.ofNat 64 (e.w0.toNat - e.cur * 16 + next * 16) }

/-- The virtual function that owns a traffic class (R416). -/
def State.classVf (s : State) (tc : Nat) : Option Nat := (s.vfs.find? (fun v => v.active && v.tcMask.bit tc)).map (·.vf)

/-- A stream is valid and owned by a virtual function that has its class (R435, R440). -/
def State.streamOk (s : State) (n vf : Nat) : Bool :=
  let e := s.stream n
  e.w0.bit 0 && e.w0.field 6 7 == vf && s.classVf (e.w0.field 13 3) == some vf

/-- The ports of a set that are live (R440, R442). -/
def State.livePorts (s : State) (e : TableEntry) (j : Nat) : List Nat :=
  (e.outPorts j).filter (fun p => s.ports.toList.getD p false)

/-- The port a packet goes by: the lowest live one, or the one its number selects; none with no live port (R440). -/
def State.choosePort (s : State) (e : TableEntry) (j index : Nat) : Option Nat :=
  let live := s.livePorts e j
  if e.ordered then live.head? else live[index % live.length]?

/-! ### Translation of a range -/

/-- Why a range has no frames yet, with the address that stopped it. -/
structure RangeStop where
  va : Nat
  why : Translated
  deriving DecidableEq, Repr

/-- The frames of the pages of a range: the physical address and length of each piece (R423). -/
def State.frames (s : State) (c : CoreId) (ctx access : Nat) : List (Nat × Nat) → State × Except RangeStop (List (Nat × Nat))
  | [] => (s, .ok [])
  | (va, n) :: r =>
    let t := s.translate c ctx va access
    match t.2 with
    | .frame pa =>
      let u := t.1.frames c ctx access r
      match u.2 with
      | .ok l => (u.1, .ok ((pa, n) :: l))
      | .error e => (u.1, .error e)
    | w => (t.1, .error { va := va, why := w })

/-- The pieces of a range of device virtual addresses, page by page. -/
def rangePieces (va n : Nat) : List (Nat × Nat) := (pieces (8 * va) (8 * n)).map (fun p => (va + p.2.1 / 8, p.2.2 / 8))

/-- A walk for something at the edge is under way or held. -/
def State.edgeWalks (s : State) (id : Nat) : Bool := s.walks.any (fun w => w.purpose == .edge id)

/-- What stops a range asks for: a walk, or a held fault; a report is posted; whether the range now waits. -/
def State.rangeStopped (s : State) (w : Asker) (ctx access id : Nat) (r : RangeStop) : State × Bool :=
  match r.why with
  | .walk => (s.askWalk w.core ctx r.va access (.edge id), true)
  | .held reason e => (s.holdWalk w ctx r.va access reason e (.edge id), true)
  | .report reason e => (s.postWalk w ctx r.va access reason e, false)
  | _ => (s, false)

/-- The bytes of frames, or none where a line is poisoned. -/
def State.readPieces (s : State) (vf : Nat) : List (Nat × Nat) → State × Option (List Byte)
  | [] => (s, some [])
  | (pa, n) :: r =>
    let a := s.dramRead vf pa n
    let b := a.1.readPieces vf r
    (b.1, match a.2, b.2 with
      | some x, some l => some (x.1 ++ l)
      | _, _ => none)

/-- The writes of bytes over frames may be taken, all of them (R459). -/
def State.admitPieces (s : State) (vf : Nat) : List (Nat × Nat) → State × Bool
  | [] => (s, true)
  | (pa, n) :: r =>
    let a := s.admitWrite vf pa n
    let b := a.1.admitPieces vf r
    (b.1, a.2 && b.2)

/-- Bytes stored over frames. -/
def State.storePieces (s : State) (vf : Nat) (bs : List Byte) : List (Nat × Nat) → State
  | [] => s
  | (pa, n) :: r => (s.dramWrite vf pa (bs.take n)).1.storePieces vf (bs.drop n) r

/-- Write bytes over frames, and whether they were written: none are where a poisoned line is met in part. -/
def State.writePieces (s : State) (vf : Nat) (bs : List Byte) (l : List (Nat × Nat)) : State × Bool :=
  let a := s.admitPieces vf l
  if a.2 then (a.1.storePieces vf bs l, true) else (a.1, false)

/-! ### Leaving and settling (R443) -/

/-- An outgoing XCOPY under its number. -/
def State.outgoing? (s : State) (xid : Nat) : Option Outgoing := s.outgoing.find? (·.xid == xid)

/-- A packet has left, or never will: with the last one the source-end counter has its add (R265). -/
def State.packetLeft (s : State) (xid : Nat) : State :=
  match s.outgoing? xid with
  | none => s
  | some o =>
    let s : State := { s with outgoing := mapFirst (·.xid == xid) (fun o => { o with toLeave := o.toLeave - 1 }) s.outgoing }
    if o.toLeave = 1 then s.lateAdd o.lid o.home o.sc else s

/-- A packet is settled: acknowledged, or not to be sent.  With the last one the XCOPY is complete (R268). -/
def State.packetSettled (s : State) (xid index : Nat) : State :=
  match s.outgoing? xid with
  | none => s
  | some o =>
    let s : State := { s with
      edgeOut := s.edgeOut.filter (fun e => !(e.packet.xid == xid && e.packet.index == index))
      outgoing := mapFirst (·.xid == xid) (fun o => { o with toSettle := o.toSettle - 1 }) s.outgoing }
    if o.toSettle = 1 then
      ({ s with outgoing := s.outgoing.filter (·.xid != xid)
                incoming := s.incoming.filter (fun i => !(i.source == s.pkgId.toNat && i.xid == xid)) } : State).complete o.tag
    else s

/-- A deferred trap of an XCOPY for its issuer (R266). -/
def State.edgeTrap (s : State) (o : Outgoing) (t : Nat × Word) : State :=
  s.deferTrap 0 o.core o.core o.cid o.seat o.lid t.1 t.2 o.ia o.cpc o.mig

/-- A packet that is not sent (R265, R266). -/
def State.packetLost (s : State) (o : Outgoing) (e : EdgeSend) (trap : Option (Nat × Word)) : State :=
  let s := (s.packetLeft o.xid).packetSettled o.xid e.packet.index
  match trap with
  | some t => s.edgeTrap o t
  | none => s

/-! ### Sending (R440 to R442) -/

/-- Who asks for an XCOPY's translations. -/
def Outgoing.asker (o : Outgoing) : Asker :=
  { core := o.core, seat := o.seat, lid := o.lid, cid := o.cid, ia := o.ia, cpc := o.cpc, mig := o.mig }

/-- What reading a packet's source gives. -/
inductive SourceRead where
  | bytes (l : List Byte)
  | wait
  | lost (trap : Option (Nat × Word))
  deriving DecidableEq, Repr

/-- The first byte of a packet's source, as its space numbers it. -/
def EdgeSend.start (e : EdgeSend) : Nat := ptrAddr e.src + e.off

/-- The pages of a packet's source in device memory. -/
def EdgeSend.pieces (e : EdgeSend) : List (Nat × Nat) :=
  if ptrSpace e.src = 2 && !e.packet.marker then rangePieces e.start e.bytes else []

/-- Replace a packet at the edge. -/
def State.setEdge (s : State) (e : EdgeSend) : State := { s with edgeOut := mapFirst (·.id == e.id) (fun _ => e) s.edgeOut }

/-- Read the source of a packet (R265, R282): on chip under R215 and R216, or in device memory by its translations, about 1,400 cc after
them (R10) and once its lines are mended (R456). -/
def State.readSource (s : State) (o : Outgoing) (e : EdgeSend) : State × SourceRead :=
  if e.packet.marker then (s, .bytes [])
  else if ptrSpace e.src = 2 then
    if e.frames.length < e.pieces.length || s.cycle < e.due then (s, .wait)
    else
      let lag := s.mendLag (e.frames.flatMap (fun p => dramLines p.1 p.2))
      let b := s.readPieces (s.vfOf o.ctx) e.frames
      if lag ≠ 0 then (b.1.setEdge { e with due := s.cycle + lag }, .wait)
      else (b.1, match b.2 with
        | some bs => .bytes bs
        | none => .lost none)
  else
    let q := pointerPlace o.home e.src
    let k := s.core q.1
    if k.hold ≠ .none || !(isHall q.1 || k.ctx == o.ctx) then (s, .wait)
    else if !s.engineMay o.core o.home e.src e.off e.bytes rightRd (s.contextVf o.ctx) then
      (s, .lost (some (0x28, withAddr e.src (ptrAddr e.src + e.off))))
    else if k.poisonedIn (q.2.1 + e.off) e.bytes then (s, .lost none)
    else (s, .bytes (k.store.bytes (q.2.1 + e.off) e.bytes))

/-- A packet at the edge may go now: on an ordered stream after the earlier ones for the same package, as two destinations share no
order (R443, R454), always after an earlier marker, and a marker after every earlier packet (R440, R441). -/
def State.edgeTurn (s : State) (e : EdgeSend) (ordered : Bool) : Bool :=
  !s.edgeOut.any (fun x => x.id < e.id && x.packet.stream == e.packet.stream && !x.out &&
    ((ordered && remotePackage x.packet.dst == remotePackage e.packet.dst) || x.packet.marker || e.packet.marker))

/-- A packet goes: through a port, or back into this package (R436).  The marker then steps its stream (R441). -/
def State.depart (s : State) (e : EdgeSend) (port : Option Nat) : State :=
  let p := { e.packet with port := port }
  let s := s.setEdge { e with packet := p, departed := true, out := true }
  let s := if e.departed then s else s.packetLeft p.xid
  let s := if port.isNone then s.send 0 0 0 0 0 0 0 0 0 (.packet p) else s
  if p.marker && !e.departed then { s with streams := assocSet s.streams p.stream (s.stream p.stream).step } else s

/-- Try to send a packet. -/
def State.trySend (s : State) (id : Nat) : State :=
  match s.edgeOut.find? (fun e => e.id == id && !e.out) with
  | none => s
  | some e =>
    match s.outgoing? e.packet.xid with
    | none => s
    | some o =>
      let entry := s.stream e.packet.stream
      if !s.edgeTurn e entry.ordered then s
      else if !e.departed && !s.streamOk e.packet.stream (s.vfOf o.ctx) then
        s.packetLost o e (some (0x28, BitVec.ofNat 64 e.packet.stream))
      else
        let set := if e.departed then e.packet.set else entry.cur
        let loop := remotePackage e.packet.dst == s.pkgId.toNat
        let port := if loop then none else s.choosePort entry set e.packet.index
        if !loop && port.isNone then s
        else
          let r := if e.read then (s, SourceRead.bytes e.packet.data) else s.readSource o e
          match r.2 with
          | .wait => r.1
          | .lost t => r.1.packetLost o e t
          | .bytes bs =>
            r.1.depart { e with read := true, packet := { e.packet with set := set, data := bs, tc := entry.w0.field 13 3 } } port

/-- Send what can be sent of every stream, in order. -/
def State.pump (s : State) : State := ((s.edgeOut.filter (fun e => !e.out)).map (·.id)).foldl (fun s id => s.trySend id) s

/-- The packets of an XCOPY, cut at the 4 KiB boundaries of its destination offset (R440).  A destination that runs past its
package's offsets goes on in the address bits above them (DESIGN CHOICE log 112). -/
def edgePackets (xid first stream source : Nat) (cmd : EngineCmd) : List EdgeSend :=
  let n := cmd.d.toNat
  let cut := if n = 0 then [(0, 0, 0)] else pieces (8 * cmd.c.field 0 40) (8 * n)
  cut.zipIdx.map (fun x =>
    { id := first + x.2, src := cmd.b, off := x.1.2.1 / 8, bytes := x.1.2.2 / 8, frames := [], due := 0, read := false, departed := false,
      out := false,
      packet := { xid := xid, index := x.2, total := cut.length, stream := stream, set := 0, port := none, source := source, tc := 0,
                  dst := withAddr cmd.c (ptrAddr cmd.c + x.1.2.1 / 8), data := [], marker := n == 0, dc := cmd.dc } })

/-- The pages of a packet's source that are still to be translated are (R423): the packet has its frames, waits for a walk or on
a held fault, or is not sent (R265). -/
def State.edgeFrames (s : State) (o : Outgoing) (e : EdgeSend) : List (Nat × Nat) → State
  | [] => s.setEdge { e with due := if e.pieces = [] then 0 else s.cycle + 1400 + s.cipherLag (s.vfOf o.ctx) }
  | (va, n) :: r =>
    let t := s.translate o.core o.ctx va 0
    match t.2 with
    | .frame pa => t.1.edgeFrames o { e with frames := e.frames ++ [(pa, n)] } r
    | w =>
      let u := (t.1.setEdge e).rangeStopped o.asker o.ctx 0 e.id { va := va, why := w }
      if u.2 then u.1 else u.1.packetLost o e none

/-- The source of a packet is translated, once, as its XCOPY enters; a byte at or above 2^48 ends it before any walk (R53, R423). -/
def State.translateEdge (s : State) (o : Outgoing) (e : EdgeSend) : State :=
  if e.pieces != [] && 2 ^ 48 < e.start + e.bytes then s.packetLost o e none else s.edgeFrames o e e.pieces

/-- The operands of an XCOPY pass the checks at entry (R265). -/
def xcopyOk (cmd : EngineCmd) : Bool :=
  let n := cmd.d.toNat
  n ≤ 2 ^ 30 && (devicePtr cmd.b || (chipPlace cmd.home cmd.b n false).isSome) &&
    codeKnown (ptrFmt cmd.c) && unblocked (ptrFmt cmd.c) && ptrBlog cmd.c == 0 && ptrSpace cmd.c == 3

/-- The number of the stream that a command sends through. -/
def EngineKind.stream : EngineKind → Nat
  | .xcopy n => n
  | _ => 0

/-- An XCOPY of the stream has an earlier place, or an earlier firing, and has not entered it: it is on its way, or its chunk's effects
wait at step 5 (R272, R440, R450). -/
def State.streamEarlier (s : State) (n order id : Nat) : Bool :=
  s.flights.any (fun g => match g.body with
    | .stream cmd _ o => cmd.kind.stream == n && (decide (o < order) || (o == order && decide (g.id < id)))
    | _ => false) ||
  s.cores.any (fun p => (List.range 4).any (fun m =>
    let t := p.2.seat m
    t.granted && decide (t.place < order) && t.held.any (fun h => match h.body with
      | .engine cmd => (match cmd.kind with | .xcopy k => k == n | _ => false)
      | _ => false)))

/-- XCOPY_STREAM_ENTRY (R440, R441, R450): the XCOPYs of a stream enter it in the order of their places; a failed check moves
nothing, and the source-end counter still has its add (DEDUCED log 63).  A packet that waits at the edge is tried again. -/
def execXcopyStreamEntry (f : Nat) (s : State) : Host.Outcome State Fault Refusal :=
  event s (match s.flight f with
  | none => some (s.trySend f)
  | some x =>
    match x.body with
    | .stream cmd fired order =>
      let n := cmd.kind.stream
      if s.cycle < x.due || s.streamEarlier n order x.id then none
      else
        let c := x.dst
        let ctx := s.itemCtx c x.lid x.cid
        let t := s.dropFlight f
        let stop (t : State) : State := (t.lateAdd x.lid cmd.home cmd.sc).complete x.tag
        if !xcopyOk cmd then
          some (match fired with | some record => t.fireFailed c x.lid record | none => stop t)
        else if !t.streamOk n (t.vfOf ctx) then
          some (stop (t.deferTrap 0 c c x.cid x.seat x.lid 0x28 (BitVec.ofNat 64 n) x.ia x.cpc x.mig))
        else
          let ps := edgePackets x.id t.fresh n t.pkgId.toNat cmd
          let o : Outgoing :=
            { xid := x.id, tag := x.tag, cid := x.cid, core := c, seat := x.seat, lid := x.lid, ctx := ctx, home := cmd.home,
              ia := x.ia, cpc := x.cpc, mig := x.mig, sc := cmd.sc, toLeave := ps.length, toSettle := ps.length }
          let t : State := { t with edgeOut := t.edgeOut ++ ps, outgoing := t.outgoing ++ [o], fresh := t.fresh + ps.length }
          some (ps.foldl (fun t e => t.translateEdge o e) t).pump
    | _ => none)

/-! ### Arriving (R437, R438, R443) -/

/-- The context of an export entry, its core for arrival adds, its length and its highest and lowest sources. -/
def TableEntry.owner (e : TableEntry) : Nat := e.w3.field 0 16

def TableEntry.ccore (e : TableEntry) : CoreId := e.w2.field 0 11

/-- The receiving edge admits a packet (R438, R440). -/
def State.admitted (s : State) (p : EdgePacket) : Bool :=
  let e := s.exportEntry (remoteEntry p.dst)
  let len := e.w1.field 0 32
  len != 0 && remotePackage p.dst == s.pkgId.toNat && remoteByte p.dst < len && remoteByte p.dst + p.data.length ≤ len &&
    e.w1.field 32 12 ≤ p.source && p.source ≤ e.w1.field 44 12 && s.classVf p.tc == some (e.w2.field 17 7) &&
    (match p.port with
      | none => true
      | some q => (s.stream p.stream).w0.bit 0 && (s.stream p.stream).accepts p.set q)

/-- The core is away: it is not active, or the context that an entry acts for is saved there (R438, R483). -/
def State.coreAway (s : State) (ctx : Nat) (c : CoreId) : Bool :=
  (s.core c).hold != .none || (s.core c).power != .active ||
    (match s.context ctx with | some x => (assocGet x.saved c).isSome | none => false)

/-- A core that an entry names is one of the entry's function, at a physical core of its own (R416, R417, R438). -/
def State.coreOwned (s : State) (e : TableEntry) (c : CoreId) : Bool :=
  s.vfs.any (fun v => v.vf == e.w2.field 17 7 && (match v.place c with | some q => v.owns q | none => false))

/-- An entry acts for its context only: no core that it names holds another (R437) (DEDUCED log 85). -/
def State.ownerOn (s : State) (e : TableEntry) (c : CoreId) : Bool := (s.core c).ctx == 0 || (s.core c).ctx == e.owner

/-- The cores of an entry are its function's and its context's: the one whose store it lands in, and the one whose counter has the
arrival adds (R437, R438). -/
def State.entryCores (s : State) (e : TableEntry) : Bool :=
  (if ptrSpace e.w0 = 1 then [chipCore (ptrAddr e.w0), e.ccore] else [e.ccore]).all (fun c => s.coreOwned e c && s.ownerOn e c)

/-- The core that a landing by an entry changes: its target's, or the one whose counter has the arrival adds. -/
def TableEntry.target (e : TableEntry) : CoreId := if ptrSpace e.w0 = 1 then chipCore (ptrAddr e.w0) else e.ccore

/-- An acknowledgement on its way to the sender; for another package it leaves by the port (R443). -/
def State.edgeAck (s : State) (p : EdgePacket) (refused : Option (Nat × Word)) : State :=
  if p.port.isNone then s.send 0 0 0 0 0 0 0 0 0 (.xack p.xid p.index refused) else s

/-- The destination words of a packet that lands at an address, each with its first byte and its bytes: those that have not landed
ahead of the rest (R282). -/
def EdgePacket.words (p : EdgePacket) (a : Nat) : List (Nat × List Byte) :=
  ((run (a / 8) ((a + p.data.length + 7) / 8 - a / 8)).filter (fun w => !p.ahead.contains w)).map (fun w =>
    let lo := max a (8 * w)
    (lo, (p.data.drop (lo - a)).take (min (a + p.data.length) (8 * w + 8) - lo)))

/-- A packet's bytes land on a core: all of them, or the words that have not landed yet. -/
def Core.landPacket (k : Core) (p : EdgePacket) (a : Nat) : Core :=
  if p.ahead = [] then k.land a p.data else (p.words a).foldl (fun k w => k.land w.1 w.2) k

/-- What landing a packet comes to; one that fails on its data raises no trap (R266, R459). -/
inductive EdgeLanding where
  | wait
  | failed
  | refused (cause : Nat) (arg : Word)
  | landed
  deriving DecidableEq, Repr

/-- Who asks for the translations of a landing: the core of the entry. -/
def TableEntry.asker (e : TableEntry) : Asker := { core := e.ccore, seat := 0, lid := 0, cid := 0, ia := 0, cpc := 0, mig := false }

/-- Land a packet at its entry's target (R437, R438) (DEDUCED log 85). -/
def State.landEdge (s : State) (f : Nat) (p : EdgePacket) : State × EdgeLanding :=
  let e := s.exportEntry (remoteEntry p.dst)
  let n := p.data.length
  let at' := ptrAddr e.w0 + remoteByte p.dst
  if n = 0 then (s, .landed)
  else if ptrSpace e.w0 = 1 then
    let c := chipCore (ptrAddr e.w0)
    let region := chipRegion (ptrAddr e.w0)
    let off := chipOffset (ptrAddr e.w0) + remoteByte p.dst
    let a := (if region = 2 then 0x90000 else 0) + off
    if !(match regionSize region with | some z => decide (off + n ≤ z) | none => false) then (s, .refused 0x28 p.dst)
    else
      match (s.core c).guardedBy a n with
      | some g => (s, .refused 0x11 (BitVec.ofNat 64 (0x100 + g)))
      | none => if (s.core c).tileBusy a n then (s, .wait) else (s.setCore c ((s.core c).landPacket p a), .landed)
  else if 2 ^ 48 < at' + n then (s, .refused 0x28 p.dst)
  else if s.edgeWalks f then (s, .wait)
  else
    let r := s.frames e.ccore e.owner 1 (rangePieces at' n)
    match r.2 with
    | .error x =>
      let t := r.1.rangeStopped e.asker e.owner 1 f x
      (t.1, if t.2 then .wait else .refused 0x28 p.dst)
    | .ok l =>
      let w := r.1.writePieces (s.vfOf e.owner) p.data l
      (w.1, if w.2 then .landed else .failed)

/-- The packets of an XCOPY that have landed with one more. -/
def State.landedWith (s : State) (p : EdgePacket) : Nat :=
  ((s.incoming.find? (fun i => i.source == p.source && i.xid == p.xid)).map (·.landed)).getD 0 + 1

/-- A landed packet is counted, and the arrival add follows the last one (R443). -/
def State.countLanding (s : State) (p : EdgePacket) : State :=
  let n := s.landedWith p
  let rest := s.incoming.filter (fun i => !(i.source == p.source && i.xid == p.xid))
  if p.total ≤ n then
    ({ s with incoming := rest } : State).namedAdd (s.exportEntry (remoteEntry p.dst)).ccore p.dc
  else { s with incoming := rest ++ [{ source := p.source, xid := p.xid, landed := n }] }

/-- An earlier packet of the same ordered stream from the same package has not been dealt with (R443). -/
def State.edgeEarlier (s : State) (f : Nat) (p : EdgePacket) : Bool :=
  (s.stream p.stream).ordered && s.flights.any (fun g => g.id < f &&
    (match g.body with | .packet q => q.stream == p.stream && q.source == p.source | _ => false))

/-- A packet may land by its entry now: it is its turn, it is admitted, and the cores of the entry are there. -/
def State.edgeMay (s : State) (f : Nat) (x : Flight) (p : EdgePacket) : Bool :=
  let e := s.exportEntry (remoteEntry p.dst)
  x.due ≤ s.cycle && !s.edgeEarlier f p && s.admitted p && !(ptrSpace e.w0 == 1 && s.coreAway e.owner (chipCore (ptrAddr e.w0))) &&
    !s.coreAway e.owner e.ccore && (s.core e.target).lands f && s.entryCores e

/-- One word of a packet that arrives lands ahead of the rest, in a core's store (R282, DESIGN CHOICE log 119). -/
def State.edgeWord (s : State) (f word : Nat) : Option State := do
  let x ← s.flight f
  match x.body with
  | .packet p =>
    let e := s.exportEntry (remoteEntry p.dst)
    let c := chipCore (ptrAddr e.w0)
    let region := chipRegion (ptrAddr e.w0)
    let off := chipOffset (ptrAddr e.w0) + remoteByte p.dst
    let a := (if region = 2 then 0x90000 else 0) + off
    let fits := ptrSpace e.w0 == 1 && (match regionSize region with | some z => decide (off + p.data.length ≤ z) | none => false)
    match (p.words a).find? (fun w => w.1 / 8 == word) with
    | some w =>
      if !(s.edgeMay f x p && fits) || ((s.core c).guardedBy a p.data.length).isSome || (s.core c).tileBusy a p.data.length then none
      else
        let note (g : Flight) : Flight := { g with body := .packet { p with ahead := word :: p.ahead } }
        some { s.setCore c ((s.core c).land w.1 w.2) with flights := mapFirst (·.id == f) note (s.setCore c ((s.core c).land w.1 w.2)).flights }
    | none => none
  | _ => none

/-- XCOPY_PACKET_ARRIVAL (R438, R440, R441, R443). -/
def execXcopyPacketArrival (f : Nat) (s : State) : Host.Outcome State Fault Refusal :=
  event s (do
    let x ← s.flight f
    match x.body with
    | .packet p =>
      let e := s.exportEntry (remoteEntry p.dst)
      if s.cycle < x.due || s.edgeEarlier f p then none
      else if !s.admitted p then some ((s.dropFlight f).edgeAck p (some (0x28, p.dst)))
      else if (ptrSpace e.w0 == 1 && s.coreAway e.owner (chipCore (ptrAddr e.w0))) || s.coreAway e.owner e.ccore ||
          !(s.core (e.target)).lands f || (p.total ≤ s.landedWith p && !s.addTurn e.ccore e.ccore p.dc) then none
      else if !s.entryCores e then some ((s.dropFlight f).edgeAck p (some (0x28, p.dst)))
      else
        let r := s.landEdge f p
        match r.2 with
        | .wait => some r.1
        | .failed => some ((r.1.dropFlight f).edgeAck p none)
        | .refused cause arg => some ((r.1.dropFlight f).edgeAck p (some (cause, arg)))
        | .landed => some (((r.1.dropFlight f).countLanding p).edgeAck p none)
    | _ => none)

/-- XCOPY_ACK (R266, R268, R443). -/
def execXcopyAck (f : Nat) (s : State) : Host.Outcome State Fault Refusal :=
  event s (do
    let x ← s.flight f
    match x.body with
    | .xack xid index refused =>
      if s.cycle < x.due then none
      else
        let t := s.dropFlight f
        match t.outgoing? xid with
        | none => some t
        | some o =>
          let u := t.packetSettled xid index
          some (match refused with | some r => u.edgeTrap o r | none => u)
    | _ => none)

/-! ### Ports (R442) -/

/-- PORT_DOWN (R442): the port leaves every set, and packets out by it that have no acknowledgement go again. -/
def execPortDown (p : Nat) (s : State) : Host.Outcome State Fault Refusal :=
  event s (if 12 ≤ p then none else
    let back (e : EdgeSend) : EdgeSend := if e.packet.port = some p then { e with out := false } else e
    some ({ s with ports := s.ports.setIfInBounds p false, edgeOut := s.edgeOut.map back } : State).pump)

/-- PORT_UP (R442): held packets of its sets go. -/
def execPortUp (p : Nat) (s : State) : Host.Outcome State Fault Refusal :=
  event s (if 12 ≤ p then none else some ({ s with ports := s.ports.setIfInBounds p true } : State).pump)

end Sys2Proof.Machine
end

