-- ==== Sys2Proof/Machine/Hall.lean ====
section
/-!
DEFINITION. The hall: trap rings, and deferred traps on their way to a continuation (R362, R401, R402, R405).
-/
namespace Sys2Proof.Machine

/-! ### Trap rings (R402) -/

/-- Where a context's trap ring stands: its hall core, its base, and the next record's number.  A context without a ring uses
hall 0.0's (DEDUCED log 30). -/
def State.trapRing (s : State) (ctx : Nat) : CoreId × Nat × Nat :=
  match s.context ctx with
  | some x =>
    if x.trq = 0 then (2048, 0, s.hallRing)
    else (2048 + x.trq.field 24 5 % 16, x.trq.field 6 13 * 64, x.ringNext)
  | none => (2048, 0, s.hallRing)

/-- The ring's write index goes on. -/
def State.nextSlot (s : State) (ctx : Nat) : State :=
  match s.context ctx with
  | some x =>
    if x.trq = 0 then { s with hallRing := s.hallRing + 1 }
    else s.modContext ctx (fun x => { x with ringNext := x.ringNext + 1 })
  | none => { s with hallRing := s.hallRing + 1 }

/-- An earlier record for the same ring has not been posted. -/
def State.trapEarlier (s : State) (f ctx : Nat) : Bool :=
  s.flights.any (fun g => g.id < f && (match g.body with
    | .trap t => (s.trapRing t.ctx).1 == (s.trapRing ctx).1 && (s.trapRing t.ctx).2.1 == (s.trapRing ctx).2.1
    | _ => false))

/-! ### Counting what fails (R463, R468) -/

/-- A physical core is to be retired (R468). -/
def State.retireSoon (s : State) (p : Option Nat) : State :=
  match p with
  | some p => if s.retireDue.any (·.core == p) then s else { s with retireDue := s.retireDue ++ [{ core := p, saving := none }] }
  | none => s

/-- Cc in 24 hours (R6). -/
def dayTime : Nat := 24 * 3600 * 4000000000

/-- The hall counts an uncorrectable local store record for the core whose store failed, the second within 24 hours of the first being
its retirement: the home of the chunk, or the core that a deferred trap's record names (R463, R468) (DESIGN CHOICE log 72). -/
def State.countRecord (s : State) (words : List Word) : State :=
  let w := wordAt words
  if (w 0).field 0 8 ≠ 0x29 || (w 0).field 32 16 = 0 then s
  else
    let idx := if (w 1).bit 55 then (w 2).field 48 11 else (w 5).field 0 11
    match s.placeIn ((w 0).field 48 16) idx with
    | none => s
    | some p =>
      match assocGet s.storeFaults p with
      | some first =>
        if s.cycle ≤ first + dayTime then
          ({ s with storeFaults := s.storeFaults.filter (·.1 != p) } : State).retireSoon (some p)
        else { s with storeFaults := assocSet s.storeFaults p s.cycle }
      | none => { s with storeFaults := assocSet s.storeFaults p s.cycle }

/-- TRAP_RECORD_POST (R402): once word 0 of its slot is empty, the record lands, word 0 last, and counter 0 of the hall core
has its add. -/
def execTrapRecordPost (f : Nat) (s : State) : Host.Outcome State Fault Refusal :=
  event s (do
    let x ← s.flight f
    match x.body with
    | .trap t =>
      let r := s.trapRing t.ctx
      let a := r.2.1 + 64 * (r.2.2 % 256)
      if s.cycle < x.due || s.trapEarlier f t.ctx || (s.core r.1).isFull a then none
      else
        let words := t.words.take 7 ++ [BitVec.ofNat 64 s.cycle]
        let k := (s.core r.1).land (a + 8) ((words.drop 1).flatMap wordBytes)
        let k := k.land a (wordBytes (wordAt words 0))
        some (((((s.dropFlight f).setCore r.1 k).lateAdd 0 r.1 0).nextSlot t.ctx).countRecord t.words)
    | _ => none)

/-! ### Deferred traps (R405) -/

/-- A negative acknowledgement reaches a seat: the first is kept, later ones are counted. -/
def Seat.takeNack (t : Seat) (d : DeferredTrap) : Seat :=
  match t.trap with
  | none => { t with trap := some d }
  | some _ => { t with more := min 255 (t.more + 1) }

/-- The state with f applied to the seat of a hall thread that has been taken off one (R396). -/
def State.modKept (s : State) (cid : Nat) (f : Seat → Seat) : State :=
  { s with runQueue := mapFirst (·.cid == cid) (fun h => { h with kept := h.kept.map f }) s.runQueue }

/-- The same for a seat transfer in flight. -/
def Transfer.takeNack (t : Transfer) (d : DeferredTrap) : Transfer :=
  match t.trap with
  | none => { t with trap := some d }
  | some _ => { t with more := min 255 (t.more + 1) }

/-- The continuation that a seat transfer in flight carries. -/
def Body.transferOf : Body → Option Nat
  | .transfer t => some t.cid
  | .transferBack t => if t.retired then none else some t.cid
  | _ => none

/-- The transfer in flight with one more acknowledgement. -/
def Body.takeNack (b : Body) (d : DeferredTrap) : Body :=
  match b with
  | .transfer t => .transfer (t.takeNack d)
  | .transferBack t => .transferBack (t.takeNack d)
  | b => b

/-- The record of a suspended continuation that an item in flight carries. -/
def Body.suspended (b : Body) : Option Record :=
  match b with
  | .waitc _ _ _ r => some r
  | b => if (Body.transferOf b).isSome then none else b.listed

/-- The record of a continuation that waits on a core's lists or counters. -/
def Core.recordOf (k : Core) (cid : Nat) : Option Record :=
  ((k.ready ++ k.work).find? (·.cid == cid)).orElse (fun _ => (k.waiters.find? (·.record.cid == cid)).map (·.record))

/-- The core without a continuation's record. -/
def Core.withoutRecord (k : Core) (cid : Nat) : Core :=
  { k with ready := k.ready.filter (·.cid != cid), work := k.work.filter (·.cid != cid),
           waiters := k.waiters.filter (·.record.cid != cid) }

/-- The record of a hall thread that has been released and waits for a seat, and the state without it (R362, R396). -/
def State.takeThread (s : State) (cid : Nat) : Option (State × Record) := do
  let h ← s.thread cid
  let r ← h.record
  some ({ s with runQueue := mapFirst (·.cid == cid) (fun h => { h with ready := false, record := none }) s.runQueue }, r)

/-- The record of a continuation that waits on a core that has been saved, and the state without it (R362). -/
def State.takeSaved (s : State) (cid : Nat) : Option (State × Record) :=
  (s.contexts.flatMap (·.saved)).findSome? (fun p => (p.2.recordOf cid).map (fun r =>
    let rest (q : CoreId × Core) : CoreId × Core := (q.1, q.2.withoutRecord cid)
    ({ s with contexts := s.contexts.map (fun (x : Context) => { x with saved := x.saved.map rest }) }, r)))

/-- A suspended continuation's record is taken from where it waits: a list or a counter, of a saved core too, an item in flight,
a priority queue, or the run queue. -/
def State.takeRecord (s : State) (cid : Nat) : Option (State × Record) :=
  let mine (r : Record) : Bool := r.cid == cid
  match s.cores.findSome? (fun p => (p.2.recordOf cid).map (fun r => (s.setCore p.1 (p.2.withoutRecord cid), r))) with
  | some r => some r
  | none => match (s.takeSaved cid).orElse (fun _ => s.takeThread cid) with
  | some r => some r
  | none =>
    match s.flights.findSome? (fun f => f.body.suspended.bind (fun r => if mine r then some (f, r) else none)) with
    | some (f, r) => some ((s.dropFlight f.id).complete f.tag, r)
    | none =>
      let queued (l : Launch) : Option Record := ((l.prio0 ++ l.prio1).map (·.record)).find? mine
      match s.launches.findSome? queued with
      | some r =>
        let rest (q : List Queued) : List Queued := q.filter (fun x => !mine x.record)
        some ({ s with launches := s.launches.map (fun (l : Launch) =>
                  { l with prio0 := rest l.prio0, prio1 := rest l.prio1 }) }, r)
      | none => none

/-- DEFERRED_TRAP_ARRIVAL (R362, R405): to the seat that runs the continuation, with its transfer in flight, to the hall with
its suspended record, or to the hall with ticket 0 (DEDUCED log 55). -/
def execDeferredTrapArrival (f : Nat) (s : State) : Host.Outcome State Fault Refusal :=
  event s (do
    let x ← s.arriving f
    match x.body with
    | .nack d =>
      let t := s.dropFlight f
      if x.cid = 0 then some (t.retiredTrap x d)
      else if t.savedSeat (fun y => y.cid == x.cid) then none
      else
        match t.seatOfCid x.cid with
        | some (c, n) => some (t.setSeat c n ((t.seat c n).takeNack d))
        | none =>
          if (t.thread x.cid).any (·.kept.isSome) then some (t.modKept x.cid (·.takeNack d)) else
          if t.flights.any (fun g => g.body.transferOf == some x.cid) then
            some { t with flights := t.flights.map (fun (g : Flight) =>
              if g.body.transferOf = some x.cid then { g with body := g.body.takeNack d } else g) }
          else
            match t.takeRecord x.cid with
            | some (u, r) => some (u.recordToHall r x.dst x.seat d.cause d.arg true d.ia d.cpc x.mig)
            | none => some (t.retiredTrap x d)
    | _ => none)

end Sys2Proof.Machine
end

