-- ==== Sys2Proof/Machine/Rafters.lean ====
section
/-!
DEFINITION. The rafters: the reduction tree, submissions, rounds and results (R77, R238 to R240, R270, R409).
-/
namespace Sys2Proof.Machine

/-! ### Element operations (R77, R270) -/

/-- The element type of an operation: 0 I64 or whole words, 1 F32, 2 F64. -/
def raftersType (op ty : Nat) : Nat := if op = 0 then 1 else if op = 1 then 2 else if op = 3 || op == 4 || op == 7 then ty else 0

/-- Apply a function to the elements of a word: two F32 halves, or one element. -/
def onElements (ty : Nat) (f : Nat → Nat → Nat) (a b : Nat) : Nat :=
  if ty = 1 then f (a % 2 ^ 32) (b % 2 ^ 32) % 2 ^ 32 + f (a / 2 ^ 32) (b / 2 ^ 32) % 2 ^ 32 * 2 ^ 32 else f a b % 2 ^ 64

/-- One element operation of a node. -/
def raftersElement (op ty : Nat) (a b : Nat) : Nat :=
  match op with
  | 0 => addF32 a b
  | 1 => nearest f64 (fpAdd 0 (decodeFp f64 a) (decodeFp f64 b))
  | 2 => (a + b) % 2 ^ 64
  | 3 =>
    match ty with
    | 0 => if signed a 64 < signed b 64 then b else a
    | 1 => (fpMinMax f32 true a b).1
    | _ => (fpMinMax f64 true a b).1
  | 4 =>
    match ty with
    | 0 => if signed b 64 < signed a 64 then b else a
    | 1 => (fpMinMax f32 false a b).1
    | _ => (fpMinMax f64 false a b).1
  | 6 => a &&& b
  | _ => a ||| b

/-- A node's fold step on words. -/
def raftersStep (op ty : Nat) (a b : Nat) : Nat := onElements (raftersType op ty) (raftersElement op ty) a b

/-- An element is an infinity or a NaN, for the non-finite-OR (R77). -/
def nonFiniteElement (ty : Nat) (v : Nat) : Nat :=
  match ty with
  | 1 => if v / 2 ^ 23 % 256 = 255 then 1 else 0
  | 2 => if v / 2 ^ 52 % 2048 = 2047 then 1 else 0
  | _ => 0

/-- A leaf's word as the tree takes it. -/
def raftersLeaf (op ty : Nat) (v : Nat) : Nat :=
  if op = 7 then onElements (raftersType op ty) (fun a _ => nonFiniteElement ty a) v v else v

/-- The identity of an operation (R77). -/
def raftersIdentity (op ty : Nat) : Nat :=
  match op with
  | 0 => 0x8000000080000000
  | 1 => 0x8000000000000000
  | 3 => match ty with | 0 => 2 ^ 63 | 1 => 0x7FC000007FC00000 | _ => 0x7FF8000000000000
  | 4 => match ty with | 0 => 2 ^ 63 - 1 | 1 => 0x7FC000007FC00000 | _ => 0x7FF8000000000000
  | 6 => 2 ^ 64 - 1
  | _ => 0

/-- Fold present children in index order. -/
def foldPresent (f : Nat → Nat → Nat) : List (Option Nat) → Option Nat
  | [] => none
  | none :: r => foldPresent f r
  | some a :: r => some (r.foldl (fun x y => match y with | some b => f x b | none => x) a)

/-- Node j of a level of the tree: leaves at level 0, eight children above (R77). -/
def treeNode (f : Nat → Nat → Nat) (leaf : Nat → Option Nat) : Nat → Nat → Option Nat
  | 0, j => leaf j
  | l + 1, j => foldPresent f ((List.range 8).map (fun i => treeNode f leaf l (8 * j + i)))

/-- One word of a round's result: the participant of lowest index decides how items are read, by the
configuration it submitted with (R77, R238, DEDUCED log 111). -/
def Round.word (r : Round) (n : Nat) : Word :=
  let cfg := match r.items.foldl (fun (b : Option (CoreId × (Nat × Nat × Nat))) i =>
      match b with
      | some x => if i.1 < x.1 then some (i.1, i.2.1) else b
      | none => some (i.1, i.2.1)) none with
    | some x => x.2
    | none => (2, 0, 1)
  let op := cfg.1
  let ty := cfg.2.1
  let leaf (c : Nat) : Option Nat :=
    if rectHas r.rect c then
      match assocGet r.items c with
      | some x => some (raftersLeaf op ty (wordAt x.2 n).toNat)
      | none => some (raftersLeaf op ty (raftersIdentity op ty))
    else none
  BitVec.ofNat 64 ((treeNode (raftersStep op ty) leaf 4 0).getD 0)

/-- The width of a round's items (R238). -/
def Round.width (r : Round) : Nat :=
  match r.items.foldl (fun (b : Option (CoreId × Nat)) i =>
      match b with
      | some x => if i.1 < x.1 then some (i.1, i.2.1.2.2) else b
      | none => some (i.1, i.2.1.2.2)) none with
  | some x => x.2
  | none => 0

/-! ### Submissions (R239, R240) -/

/-- A core has an item in a round. -/
def Round.has (r : Round) (c : CoreId) : Bool := r.items.any (·.1 == c)

/-- The round of its context that a core's next submission fills: one it is a member of and has not filled, in the order they
started. -/
def State.joinedRound (s : State) (c : CoreId) : Option Round :=
  s.rounds.find? (fun r => r.ctx == (s.core c).ctx && r.members.contains c && !r.has c)

/-- A store to the last injection word submits something on this core (R240). -/
def State.submits (s : State) (c : CoreId) : Bool :=
  (s.joinedRound c).isSome || (match (s.core c).rafters.rect with | some q => rectHas q c | none => false)

/-- A core's previous result has not returned (R240). -/
def State.resultOut (s : State) (c : CoreId) : Bool :=
  s.rounds.any (fun r => r.ctx == (s.core c).ctx && r.members.contains c && r.has c)

/-- The members of a round that starts now: the context's cores whose configuration names the rectangle, those that have been
saved among them (R239, R409). -/
def State.members (s : State) (ctx : Nat) (q : Word) : List CoreId :=
  let away := match s.context ctx with | some x => x.saved | none => []
  ((s.cores.filter (fun p => p.2.ctx == ctx) ++ away).filter (fun p => p.2.rafters.rect == some q && rectHas q p.1)).map (·.1)

/-- A round that every member has filled returns 640 cc later. -/
def Round.fill (r : Round) (cycle : Nat) (item : CoreId × (Nat × Nat × Nat) × List Word) : Round :=
  let f : Round := { r with items := r.items ++ [item] }
  if f.members.all (fun c => f.has c) then { f with dueAt := some (cycle + 640) } else f

/-- An item joins its round, or a new round of the core's rectangle. -/
def State.joinRound (s : State) (c : CoreId) (cfg : Nat × Nat × Nat) (words : List Word) : State :=
  match s.joinedRound c with
  | some r => { s with rounds := mapFirst (fun x => x.id == r.id) (fun x => x.fill s.cycle (c, cfg, words)) s.rounds }
  | none =>
    match (s.core c).rafters.rect with
    | some q =>
      if rectHas q c then
        let r : Round := { id := s.fresh, ctx := (s.core c).ctx, rect := q, members := s.members (s.core c).ctx q, items := [],
                           dueAt := none }
        { s with rounds := s.rounds ++ [r.fill s.cycle (c, cfg, words)], fresh := s.fresh + 1 }
      else s
    | none => s

/-- The extraction words of an item become empty. -/
def Core.emptyExtraction (k : Core) (width : Nat) : Core :=
  { k with full := k.full.filter (fun a => !(0xA1000 ≤ a && a < 0xA1000 + 8 * width)) }

/-- A commit that wrote the last injection word (R240). -/
def State.submit (s : State) (c : CoreId) : State :=
  if !s.submits c then s
  else
    let k := s.core c
    let p := k.rafters
    let words := bytesToWords 16 (k.store.bytes 0xA0000 128)
    (s.setCore c (k.emptyExtraction p.width)).joinRound c (p.op, p.ty, p.width) words

/-- RFCFG at its commit (R238, R270). -/
def Core.configRafters (k : Core) (op ty width : Nat) (rect : Word) : Core :=
  { k with rafters := { k.rafters with rect := some rect, op := op, ty := ty, width := width } }

/-- A result lands in one member's extraction words (R240). -/
def State.landRound (s : State) (r : Round) (c : CoreId) : State :=
  let words := (List.range r.width).map r.word
  let k := s.core c
  s.setCore c ({ k with store := k.store.write 0xA1000 (words.flatMap wordBytes) }.fillWords 0xA1000 (8 * r.width))

/-- RAFTERS_RESULT (R239, R240): the result lands at the members that take deliveries, and at another one once it does (R475). -/
def execRaftersResult (r : Nat) (s : State) : Host.Outcome State Fault Refusal :=
  event s (do
    let x ← s.rounds.find? (·.id == r)
    let d ← x.dueAt
    let now := x.members.filter (fun c => (s.core c).open')
    if s.cycle < d || now == [] then none
    else
      let t := now.foldl (fun s c => s.landRound x c) s
      let rest := x.members.filter (fun c => !(s.core c).open')
      some { t with rounds :=
        if rest = [] then t.rounds.filter (·.id != r) else mapFirst (·.id == r) (fun (y : Round) => { y with members := rest }) t.rounds })

/-- A stopped core's submissions leave the rounds that still wait for others (R409). -/
def State.withdraw (s : State) (c : CoreId) : State :=
  let mine := s.rounds.filter (fun r => r.dueAt.isNone && r.has c)
  let items := mine.filterMap (fun r => (assocGet r.items c).map (fun x => (r.id, x)))
  let k := s.core c
  let s := s.setCore c { k with rafters := { k.rafters with withdrawn := k.rafters.withdrawn ++ items } }
  { s with rounds := s.rounds.map (fun (r : Round) =>
      if r.dueAt.isNone then { r with items := r.items.filter (·.1 != c) } else r) }

/-- A restored core submits them again, each into its round (R409). -/
def State.resubmit (s : State) (c : CoreId) : State :=
  let k := s.core c
  let again (s : State) (w : Nat × (Nat × Nat × Nat) × List Word) : State :=
    { s with rounds := mapFirst (fun x => x.id == w.1) (fun x => x.fill s.cycle (c, w.2)) s.rounds }
  k.rafters.withdrawn.foldl again (s.setCore c { k with rafters := { k.rafters with withdrawn := [] } })

end Sys2Proof.Machine
end

