-- ==== Sys2Proof/Machine/SaveArea.lean ====
section
/-!
DEFINITION. A core's save area: the bytes that its state leaves, and what a load takes back from them (R408, R410).  The spec gives the parts
and what each holds; where it gives no layout inside a part, its items stand in the order in which the spec lists them, each in words of
eight bytes, and a part's bytes past its items are open values (DESIGN CHOICE log 32).
-/
namespace Sys2Proof.Machine

/-- Bytes of a core's save area. -/
def saveBytes : Nat := 736 * 1024

/-! ### What is saved -/

/-- n bytes of bits, lowest first. -/
def packBits : Nat → List Bool → List Byte
  | 0, _ => []
  | n + 1, l =>
    let b := (l.take 8).zipIdx.foldl (fun v x => v + (if x.1 then 2 ^ x.2 else 0)) 0
    BitVec.ofNat 8 b :: packBits n (l.drop 8)

/-- Bytes cut or filled with zeros to a length. -/
def fitBytes (n : Nat) (b : List Byte) : List Byte := b.take n ++ List.replicate (n - b.length) 0

/-- Numbers as words in bytes. -/
def numBytes (l : List Nat) : List Byte := l.flatMap (fun n => wordBytes (BitVec.ofNat 64 n))

/-- Words in bytes. -/
def wordsBytes (l : List Word) : List Byte := l.flatMap wordBytes

/-- A counter's sixteen bytes. -/
def Counter.bytes (c : Counter) : List Byte := wordBytes c.value ++ wordBytes c.shadow

/-- A seat's vector registers as bytes. -/
def Seat.vectorBytes (t : Seat) : List Byte := t.regs.v.toList.flatMap (fun v => natToBytes 128 v.toNat)

/-- A number for each unit that delivers deferred results (DESIGN CHOICE log 104). -/
def IssuingUnit.code : IssuingUnit → Nat
  | .blockQueue => 0
  | .counterOwner => 1
  | .mailbox => 2
  | .tagTable => 3
  | .expertUnit => 4
  | .groupUnit => 5
  | .larder => 6
  | .workList => 7
  | .service => 8

/-- A pending deferred result in the 16 bytes of its entry (R205) (DESIGN CHOICE log 104). -/
def Deferred.image (d : Deferred) : List Byte :=
  natToBytes 8 ((match d.reg with | .x r => r.toNat | .v r => r.toNat | .q r => r.toNat) + 256 * d.unit.code) ++ natToBytes 8 d.tag

/-- The seat's state as a number. -/
def SeatState.code : SeatState → Nat
  | .free => 0
  | .running => 1
  | .parked => 2
  | .stalled => 3
  | .committing => 4
  | .lent => 5
  | .trapped => 6

/-- A seat's 2 KiB: x, q, the PC, NF, RMODE, SEED, the record words 0 to 2, the pending deferred results, the seat's state and its
ticket. -/
def Seat.saveBytes (t : Seat) : List Byte :=
  fitBytes 2048 (t.regs.image.take 512 ++ (t.regs.image.drop 4608).take 136 ++ numBytes [t.regs.nf.toNat, t.regs.rmode.toNat] ++
    wordsBytes [t.regs.seed, t.record.w0, t.record.w1, t.record.w2] ++ fitBytes 384 ((t.deferred.take 24).flatMap Deferred.image) ++
    numBytes [t.st.code, t.ticket])

/-- Vectors in bytes. -/
def vectorsBytes (l : List Vec) : List Byte := l.flatMap (fun v => natToBytes 128 v.toNat)

/-- A meeting entry's operands, 512 bytes each: what it has folded, then those that wait. -/
def MeetEntry.saveBytes (e : MeetEntry) : List Byte :=
  (e.folded :: e.waiting.map (·.2)).flatMap (fun l => fitBytes 512 (vectorsBytes l))

/-- A message's 64 bytes: the handler and the source, the sequence number, and the payload. -/
def Message.saveBytes (m : Message) : List Byte :=
  fitBytes 64 (numBytes [m.hid + m.src * 2 ^ 16] ++ wordBytes m.seq ++ wordsBytes m.words)

/-- An entry of the block queue in 256 bytes: its command, its tag and the keys of the packets that have not ended. -/
def BqEntry.saveBytes (e : BqEntry) : List Byte :=
  fitBytes 256 (wordsBytes [e.cmd.b, e.cmd.c, e.cmd.d] ++ numBytes [e.cmd.dc, e.cmd.sc, e.cmd.home, e.tag] ++
    numBytes ((e.packets.filter (·.code.isNone)).map (·.key)))

/-- A sample-group slot in a KiB. -/
def GroupSlot.saveBytes (g : GroupSlot) : List Byte :=
  fitBytes 1024 (wordsBytes [g.c0, g.c1, g.c2, g.c3] ++ numBytes [g.state, g.lid, g.dup, g.late, g.stray] ++
    numBytes (g.siblings.map (fun x => x.1 * 2 ^ 32 + x.2.toNat)))

/-- A route in flight in 256 bytes. -/
def Route.saveBytes (r : Route) : List Byte :=
  fitBytes 256 (numBytes [r.name] ++ wordsBytes [r.row, r.mword] ++ numBytes [r.tag, r.home, r.seat, r.lid, r.claimNo])

/-- A ring's descriptor and state. -/
def Ring.saveBytes (g : Ring) : List Byte := wordsBytes [g.base, g.shape, g.word, BitVec.ofNat 64 g.pubs]

/-- An entry of the trigger table. -/
def Trigger.saveBytes (t : Trigger) : List Byte := numBytes [(if t.armed then 1 else 0) + t.idx.toNat * 2 + t.record * 2 ^ 16] ++
  wordBytes t.thr

/-- What the last part keeps: rings, triggers, the mailbox, windows, the rafters configuration, the extraction words and the withdrawn
submissions, the metadata of meeting entries, and idle counts, matrix status and priority. -/
def Core.smallParts (k : Core) : List Byte :=
  k.rings.toList.flatMap (·.saveBytes) ++ k.triggers.toList.flatMap (·.saveBytes) ++
    numBytes [k.mailbox.k, k.mailbox.idx.toNat, k.mailbox.expected, k.mailbox.posts] ++ fitBytes 256 (wordsBytes k.mailbox.entries) ++
    k.windows.toList.flatMap (fun w => wordsBytes [w.w0, w.w1]) ++
    wordsBytes [k.rafters.rect.getD 0] ++ numBytes [k.rafters.op, k.rafters.ty, k.rafters.width] ++ k.store.bytes 0xA1000 128 ++
    fitBytes 256 (k.rafters.withdrawn.flatMap (fun w => wordsBytes w.2.2)) ++
    fitBytes 384 (numBytes (k.meets.flatMap (fun e => [e.id + e.gen * 2 ^ 32, e.arrived.toNat, e.count]))) ++
    numBytes (k.subs.toList.map (·.idle)) ++ wordsBytes ([k.seat0, k.seat1, k.seat2, k.seat3].map (fun t => matrixStatus t.regs)) ++
    numBytes [match k.priority with | some p => p.1 * 4 + p.2 + 1 | none => 0]

/-- A part of a save area: what it holds from its start, and open values past it. -/
def savePart (serial lo n : Nat) (b : List Byte) : List Byte :=
  b.take n ++ (List.range (n - b.length)).map (fun i => Config.saveByte serial (lo + b.length + i))

/-- A core's save area (R410). -/
def Core.saveImage (k : Core) (serial : Nat) : List Byte :=
  let part (kib n : Nat) (b : List Byte) : List Byte := savePart serial (kib * 1024) (n * 1024) b
  k.store.bytes 0 0x80000 ++ k.store.bytes 0x90000 0x10000 ++
    packBits 8192 ((List.range 65536).map (fun w => k.isFull (8 * w))) ++
    k.counters.toList.flatMap (·.bytes) ++ (List.range 4).flatMap (fun n => (k.seat n).vectorBytes) ++
    (List.range 4).flatMap (fun n => (k.seat n).saveBytes) ++ part 612 8 (k.meets.flatMap (·.saveBytes)) ++
    part 620 8 ((k.waiters.filter (!·.spilled)).flatMap (fun w => wordsBytes w.record.words)) ++ part 628 4 (k.msgq.flatMap (·.saveBytes)) ++
    part 632 2 (k.work.flatMap (fun r => wordsBytes r.words)) ++ part 634 3 (fitBytes 3064 k.table ++ wordBytes k.tableStatus) ++
    part 637 4 (k.iface.flatMap (fun o => fitBytes 512 (vectorsBytes o.data))) ++ part 641 8 (k.bq.flatMap (·.saveBytes)) ++
    part 649 4 (k.groups.toList.flatMap (·.saveBytes)) ++ part 653 4 (k.routes.flatMap (·.saveBytes)) ++ part 657 3 k.smallParts ++
    List.replicate (76 * 1024) 0

/-! ### What a load takes back -/

/-- Registers with the vector registers of one list of bytes, and the other registers of a seat's 2 KiB; x0 and q0 keep nothing
(R39). -/
def Regs.ofSave (g : Regs) (v b : List Byte) : Regs :=
  let n (l : List Byte) (lo k : Nat) : Nat := bytesToNat ((l.drop lo).take k)
  { g with
    x := Vector.ofFn (fun i => if i.val = 0 then g.x[0] else BitVec.ofNat 64 (n b (8 * i.val) 8))
    v := Vector.ofFn (fun i => BitVec.ofNat 1024 (n v (128 * i.val) 128))
    q := Vector.ofFn (fun i => if i.val = 0 then g.q[0] else BitVec.ofNat 128 (n b (512 + 16 * i.val) 16))
    pc := BitVec.ofNat 48 (n b 640 8)
    nf := BitVec.ofNat 6 (n b 648 8)
    rmode := BitVec.ofNat 3 (n b 656 8)
    seed := BitVec.ofNat 64 (n b 664 8) }

/-- The unit under a number. -/
def IssuingUnit.ofCode : Nat → IssuingUnit
  | 0 => .blockQueue
  | 1 => .counterOwner
  | 2 => .mailbox
  | 3 => .tagTable
  | 4 => .expertUnit
  | 5 => .groupUnit
  | 6 => .larder
  | 7 => .workList
  | _ => .service

/-- The pending results in the bytes of a seat; an entry without a tag is none. -/
def deferredOf (b : List Byte) : List Deferred :=
  (List.range 24).filterMap (fun i =>
    let r := bytesToNat ((b.drop (16 * i)).take 8)
    let tag := bytesToNat ((b.drop (16 * i + 8)).take 8)
    if tag = 0 then none
    else some { reg := .x (BitVec.ofNat 6 (r % 256)), unit := IssuingUnit.ofCode (r / 256), tag := tag, old := true })

/-- The state under a number. -/
def SeatState.ofCode : Nat → SeatState
  | 0 => .free
  | 1 => .running
  | 2 => .parked
  | 3 => .stalled
  | 4 => .committing
  | 5 => .lent
  | _ => .trapped

/-- A seat with what its 2 KiB and its vector registers hold. -/
def Seat.ofSave (t : Seat) (v b : List Byte) : Seat :=
  let n (lo : Nat) : Nat := bytesToNat ((b.drop lo).take 8)
  { t with
    regs := t.regs.ofSave v b
    snap := t.snap.ofSave v b
    record := { t.record with w0 := BitVec.ofNat 64 (n 672), w1 := BitVec.ofNat 64 (n 680), w2 := BitVec.ofNat 64 (n 688) }
    deferred := deferredOf ((b.drop 696).take 384)
    st := SeatState.ofCode (n 1080)
    ticket := n 1088 }

/-- A record with its eight words from bytes. -/
def Record.ofSave (r : Record) (b : List Byte) : Record :=
  let w := bytesToWords 8 b
  { r with w0 := wordAt w 0, w1 := wordAt w 1, w2 := wordAt w 2, a1 := wordAt w 3, a2 := wordAt w 4, a3 := wordAt w 5, a4 := wordAt w 6,
           a5 := wordAt w 7 }

/-- A parked waiter with its record from its 64 bytes of a part; a spilled one has no place there. -/
def Waiter.ofSave (w : Waiter) (b : List Byte) (slot : Nat) : Waiter :=
  if w.spilled then w else { w with record := w.record.ofSave ((b.drop (64 * slot)).take 64) }

/-- The items of a list, each with its 64 bytes of a part. -/
def ofSlots {α : Type} (f : α → List Byte → α) (b : List Byte) (l : List α) : List α :=
  l.zipIdx.map (fun x => f x.1 ((b.drop (64 * x.2)).take 64))

/-- A message with its payload from bytes. -/
def Message.ofSave (m : Message) (b : List Byte) : Message :=
  { m with seq := wordAt (bytesToWords 2 b) 1, words := bytesToWords m.words.length (b.drop 16) }

/-- A core with what its save image holds; where an item has no place in the image, or its part gives it no bytes of its own, it is
as the save left it. -/
def Core.loadImage (k : Core) (b : List Byte) : Core :=
  let part (lo n : Nat) : List Byte := (b.drop lo).take n
  let fe := part (576 * 1024) 8192
  let cs := part (584 * 1024) 4096
  let seat (t : Seat) (n : Nat) : Seat := t.ofSave (part (588 * 1024 + 4096 * n) 4096) (part (604 * 1024 + 2048 * n) 2048)
  let win := bytesToWords 16 (part (657 * 1024 + 1568) 128)
  { k with
    store := (k.store.write 0 (part 0 0x80000)).write 0x90000 (part (512 * 1024) 0x10000)
    full := ((List.range 65536).filter (fun w => (fe.getD (w / 8) 0).bit (w % 8))).map (8 * ·) ++
      k.full.filter (fun a => 0x80000 ≤ a)
    counters := Vector.ofFn (fun i =>
      { value := BitVec.ofNat 64 (bytesToNat ((cs.drop (16 * i.val)).take 8)),
        shadow := BitVec.ofNat 64 (bytesToNat ((cs.drop (16 * i.val + 8)).take 8)) })
    seat0 := seat k.seat0 0, seat1 := seat k.seat1 1, seat2 := seat k.seat2 2, seat3 := seat k.seat3 3
    waiters := k.waiters.zipIdx.map (fun x => x.1.ofSave (part (620 * 1024) 8192) ((k.waiters.take x.2).filter (!·.spilled)).length)
    msgq := ofSlots Message.ofSave (part (628 * 1024) 4096) k.msgq
    work := ofSlots Record.ofSave (part (632 * 1024) 2048) k.work
    table := part (634 * 1024) k.table.length
    windows := Vector.ofFn (fun i => { w0 := wordAt win (2 * i.val), w1 := wordAt win (2 * i.val + 1) }) }

end Sys2Proof.Machine
end

