-- ==== Sys2Proof/Machine/Preempt.lean ====
section
/-!
DEFINITION. Pre-emption: stops, saves and loads of a context's cores, sample groups that stop as one, and the virtual
functions with their logical-to-physical tables (R358, R394, R406 to R417, R465 to R470, R477).
-/
namespace Sys2Proof.Machine

/-! ### Sample groups stop as one (R358) -/

/-- The sample group of a sibling's record: its home core and slot. -/
def Record.group (r : Record) : Option (CoreId × Nat) := if r.w0.bit 50 && r.w1.bit 34 then some (r.home, r.w1.field 27 2) else none

/-- The open groups that a core has a part in: as their home, or through a sibling on a seat, on a list or on a counter. -/
def Core.groupsOf (k : Core) (c : CoreId) : List (CoreId × Nat) :=
  let homed := ((List.range 4).filter (fun n => (k.group n).state == 2)).map (fun n => (c, n))
  let seats := (List.range 4).filterMap (fun n => if (k.seat n).st = .free then none else (k.seat n).record.group)
  homed ++ seats ++ (k.ready ++ k.work ++ k.waiters.map (·.record)).filterMap (·.group)

/-- A group slot's timer stops. -/
def GroupSlot.pause (g : GroupSlot) (cycle : Nat) : GroupSlot :=
  match g.deadline, g.paused with
  | some d, none => { g with paused := some (d - cycle) }
  | _, _ => g

/-- A seat is to stop at its next chunk boundary. -/
def Seat.toStop (t : Seat) (on : Bool) : Seat := { t with stop := on }

/-- f applied to every seat of a core. -/
def Core.mapSeats (k : Core) (f : Seat → Seat) : Core :=
  { k with seat0 := f k.seat0, seat1 := f k.seat1, seat2 := f k.seat2, seat3 := f k.seat3 }

/-- An open group's timer pauses, and its siblings are to stop wherever they run. -/
def State.pauseGroup (s : State) (ctx : Nat) (g : CoreId × Nat) : State :=
  let h := s.core g.1
  if (h.group g.2).state ≠ 2 || h.ctx != ctx then s
  else
    let s := s.setCore g.1 (h.setGroup g.2 ((h.group g.2).pause s.cycle))
    let mark (t : Seat) : Seat := if t.st != .free && t.record.group == some g then t.toStop true else t
    let s : State := { s with cores := s.cores.map (fun p => (p.1, if p.2.ctx = ctx then p.2.mapSeats mark else p.2)) }
    s.modContext ctx (fun x => { x with pausedGroups := if x.pausedGroups.contains g then x.pausedGroups else g :: x.pausedGroups })

/-- A record of a paused group is held on its list (R358). -/
def State.recordHeld (s : State) (ctx : Nat) (r : Record) : Bool :=
  match s.context ctx, r.group with
  | some x, some g => x.pausedGroups.contains g
  | _, _ => false

/-- A part of a group is still saved, or on a core that is held. -/
def State.groupAway (s : State) (ctx : Nat) (g : CoreId × Nat) : Bool :=
  (match s.context ctx with
    | some x => x.saved.any (fun p => (p.2.groupsOf p.1).contains g)
    | none => false) ||
  s.cores.any (fun p => p.2.hold != .none && p.2.ctx == ctx && (p.2.groupsOf p.1).contains g)

/-- A group that is whole again: its siblings are released, and its timer runs on once what a save kept for it is taken. -/
def State.wholeGroup (s : State) (ctx : Nat) (g : CoreId × Nat) : State :=
  if s.groupAway ctx g then s
  else
    let mark (t : Seat) : Seat := if t.record.group = some g then t.toStop false else t
    let s : State := { s with cores := s.cores.map (fun p => (p.1, if p.2.hold = .none && p.2.ctx == ctx then p.2.mapSeats mark else p.2)) }
    (s.modContext ctx (fun x => { x with pausedGroups := x.pausedGroups.filter (· != g) })).runTimer g.1 g.2

/-! ### Stops (R406) -/

/-- The lent seat of a transfer that no core has taken runs its chunk from its start itself (DEDUCED log 31). -/
def State.takeBack (s : State) (f : Flight) : State :=
  match f.body with
  | .transfer t =>
    let x := s.seat t.core t.seat
    (s.dropFlight f.id).setSeat t.core t.seat
      { x with st := .running, lentTo := none, regs := t.regs, snap := t.regs, deferred := t.deferred,
               trap := t.trap, more := t.more, task := t.task }
  | _ => s

/-- The transfers in flight from or to a core come back. -/
def State.takeBackAll (s : State) (c : CoreId) : State :=
  (s.flights.filter (fun f => match f.body with | .transfer t => t.core == c || f.dst == c | _ => false)).foldl
    (fun s f => s.takeBack f) s

/-- A queued MMAG of the seat waits on its gang (R182). -/
def Core.waitsOnGang (k : Core) (n : Nat) : Bool :=
  k.matrix.any (fun e => e.seat == n && e.gang == 0 && e.op.width != 0)

/-- A speculative task leaves its seat, and its record returns to the head of its list (R390, R406). -/
def State.returnTask (s : State) (c n : Nat) : State :=
  let t := s.seat c n
  let k := s.core c
  let r := t.record
  let k : Core := if r.migratable then { k with work := r :: k.work } else { k with ready := r :: k.ready }
  s.setCore c (k.setSeat n t.freed)

/-- What a stop makes of one seat, by its state as the stop found it. -/
def State.stopSeat (s was : State) (c n : Nat) : State :=
  let t := was.seat c n
  let s := s.setSeat c n ((s.seat c n).toStop true)
  let task := match t.task, was.launch t.lid with
    | some x, some l => !was.meetsPlace l x
    | some x, none => !x.inPlace
    | none, _ => false
  match t.st with
  | .free => s
  | .trapped => s
  | .lent => s
  | st =>
    if task then (s.abort c n).returnTask c n
    else if st == .stalled || (was.core c).waitsOnGang n || (t.halted && t.started && st != .committing) then (s.abort c n).rerun c n
    else s

/-- A halt ends at a seat: its chunk's budget runs on from where it paused (R474, R477). -/
def Seat.unhalt (t : Seat) (cycle : Nat) : Seat :=
  match t.haltedAt with
  | some h => { t with haltedAt := none, startAt := if t.started then t.startAt + (cycle - h) else t.startAt }
  | none => t

/-- A core's halt ends: its seats go on, and the seats elsewhere that run its lent chunks (R474, R477); a seat that another
core's halt also holds stays halted. -/
def State.releaseHalt (s : State) (c : CoreId) : State :=
  let k := s.core c
  let s := s.setCore c { k with haltQuick := false, haltSettled := none }
  let held (t : Seat) : Bool := match t.origin with | some o => (s.core o.1).haltQuick | none => false
  let go (d : CoreId) (t : Seat) : Seat :=
    let mine := d == c || (match t.origin with | some o => o.1 == c | none => false)
    if mine && !held t && !(s.core d).haltQuick then t.unhalt s.cycle else t
  { s with cores := s.cores.map (fun p => (p.1, p.2.mapSeats (go p.1))) }

/-- A stop that meets a halt ends it (R477). -/
def State.endHalt (s : State) (c : CoreId) : State :=
  let off (l : List CoreId) : List CoreId := l.filter (· != c)
  let s := s.releaseHalt c
  { s with sessions := s.sessions.map (fun (x : Session) =>
      if x.quick.contains c || x.settled.contains c then { x with quick := off x.quick, settled := off x.settled,
                                                                  halting := x.halting.filter (fun w => !rectHas w.2.1 c), notice := true }
      else x) }

/-- Every clock step that a core's barriers took is undone (R394). -/
def State.undoAllClocks (s : State) (c : CoreId) : State :=
  ((s.core c).clockMoves.map (·.1)).eraseDups.foldl (fun s i => s.undoClocks c i) s

/-- A meeting entry with its timer stopped (R326); it stops with its core. -/
def MeetEntry.pause (e : MeetEntry) (cycle : Nat) : MeetEntry :=
  if e.paused.isSome then e else { e with paused := some (cycle - e.created) }

/-- A meeting entry with its timer running on. -/
def MeetEntry.unpause (e : MeetEntry) (cycle : Nat) : MeetEntry :=
  match e.paused with
  | some n => { e with created := cycle - n, checkAt := cycle + 600, paused := none }
  | none => e

/-- STOP_ARRIVAL (R406). -/
def execStopArrival (f : Nat) (s : State) : Host.Outcome State Fault Refusal :=
  event s (do
    let x ← s.flight f
    match x.body with
    | .stop _ =>
      if s.cycle < x.due then none
      else
        let c := x.dst
        let t := s.dropFlight f
        let ctx := (t.core c).ctx
        let groups := (t.core c).groupsOf c
        let t := t.takeBackAll c
        let t := (List.range 4).foldl (fun u n => u.stopSeat t c n) t
        let t := (t.endHalt c).undoAllClocks c
        let t := groups.foldl (fun t g => t.pauseGroup ctx g) t
        let k := t.core c
        some (t.setCore c { k with hold := .stopping, meets := k.meets.map (·.pause t.cycle) })
    | _ => none)

/-! ### The save area (R410, R469) -/

/-- Poisoned words are saved as zero and empty (R469). -/
def Core.dropPoison (k : Core) : Core :=
  { k with
    store := k.poison.foldl (fun m p => m.write p (List.replicate 8 0)) k.store
    full := k.full.filter (fun a => !k.poison.contains a)
    poison := [] }

/-- The pages of a core's save area: the page's offset and its frame, or the offset of the first that has none (R411). -/
def State.savePages (s : State) (c : CoreId) (ctx access : Nat) : List Nat → State × Except Nat (List (Nat × Nat))
  | [] => (s, .ok [])
  | off :: r =>
    let va := ((s.context ctx).map (fun x => x.save.toNat)).getD 0 + c * saveBytes + off
    let a := s.translate c ctx va access
    let b := match a.2 with | .walk => a.1.walkNow c ctx va access | _ => a
    match b.2 with
    | .frame pa =>
      let u := b.1.savePages c ctx access r
      match u.2 with
      | .ok l => (u.1, .ok ((off, pa) :: l))
      | .error e => (u.1, .error e)
    | _ => (b.1, .error off)

/-- The offsets of the pages of a save area. -/
def saveOffsets : List Nat := (List.range (saveBytes / 4096)).map (4096 * ·)

/-- Write a save image. -/
def State.writeImage (s : State) (vf : Nat) (image : List Byte) : List (Nat × Nat) → State
  | [] => s
  | (off, pa) :: r =>
    (s.dramWrite vf pa ((image.drop off).take 4096)).1.writeImage vf image r

/-- Read a save image; the offset of the first line that is poisoned where there is one (R459). -/
def State.readImage (s : State) (vf : Nat) : List (Nat × Nat) → State × Except Nat (List Byte)
  | [] => (s, .ok [])
  | (off, pa) :: r =>
    let a := s.dramRead vf pa 4096
    match a.2 with
    | none => (a.1, .error (off + ((dramLines pa 4096).find? a.1.poisonLines.contains).getD pa - pa))
    | some x =>
      let b := a.1.readImage vf r
      match b.2 with
      | .ok l => (b.1, .ok (x.1 ++ l))
      | .error e => (b.1, .error e)

/-! ### Saving (R407 to R411) -/

/-- A seat has stopped. -/
def Seat.stopped (t : Seat) : Bool := t.st == .free || t.st == .trapped || (t.st == .running && t.stop && !t.started)

/-- A lent seat has stopped: the chunk that it has lent has, on a core that is held or with that core's saved state (R406). -/
def State.lentStopped (s : State) (c n : Nat) : Bool :=
  let t := s.seat c n
  match t.lentTo with
  | none => false
  | some d =>
    let k := (((s.context (s.core c).ctx).bind (fun x => assocGet x.saved d))).getD (s.core d)
    t.st == .lent && (k.hold == .stopping || k.hold == .saved || k.hold == .reserved) &&
      (List.range 4).any (fun m => (k.seat m).origin == some (c, n) && (k.seat m).cid == t.cid && (k.seat m).stopped)

/-- A packet is in flight: it has read, in whole or in part, and not ended; one that waits for a seat's registers is counted
at the seat (R221, R227). -/
def Packet.flying (p : Packet) : Bool := p.sent && p.code.isNone && !p.waiting

/-- A packet of a core waits for a seat of a core that is not held (R221, R227). -/
def State.awaitsSeat (s : State) (c : CoreId) : Bool :=
  s.flights.any (fun f => f.src == c && (match f.body with | .region3 .. => true | _ => false) && (s.core f.dst).hold == .none)

/-- A packet of the entry, on core d, that is in flight still reads from core c or writes to it. -/
def BqEntry.reaches (e : BqEntry) (d c : CoreId) : Bool :=
  let at' (x : Place) : Bool := match x with
    | .ptr w _ => ptrSpace w ≤ 1 && (pointerPlace e.cmd.home w).1 == c
    | .slot .. => d == c
    | .zero => false
  e.packets.any (fun p => p.flying && p.moves.any (fun m => (p.data.isNone && at' m.src) || at' m.dst))

/-- A packet of some core that is in flight still reads from this one or writes to it: it completes first (R221, R407). -/
def State.packetsReach (s : State) (c : CoreId) : Bool := s.cores.any (fun p => p.2.bq.any (fun e => e.reaches p.1 c))

/-- Everything of a stopping core has settled (R407, R409). -/
def State.quiet (s : State) (c : CoreId) : Bool :=
  let k := s.core c
  !s.packetsReach c &&
  (List.range 4).all (fun n => (k.seat n).stopped || s.lentStopped c n) && k.matrix == [] && k.mstep.isNone && k.cbPending == [] &&
    k.bq.all (fun e => e.packets.all (fun p => !p.flying)) && !s.awaitsSeat c &&
    k.iface.all (fun o => !o.inFlight || (s.core o.router).hold != .none) &&
    s.rounds.all (fun r => r.dueAt.isNone || !r.members.contains c)

/-- A core finishes its part of a job; the last one adds to the counter (DEDUCED log 65). -/
def State.jobStep (s : State) (c : CoreId) (load : Bool) : State :=
  { s with saveJobs := s.saveJobs.map (fun (j : SaveJob) =>
      if j.load = load then { j with waiting := j.waiting.filter (· != c) } else j) }

/-- Cc that a core's save area takes at 64 bytes in each (R407, R419). -/
def saveTime : Nat := saveBytes / 64

/-- A core's save area is being stored: its part of the save is done once the last byte is. -/
def State.startStoring (s : State) (c : CoreId) : State :=
  { s with saveJobs := s.saveJobs.map (fun (j : SaveJob) =>
      if !j.load && j.waiting.contains c then { j with storing := (c, s.cycle + saveTime) :: j.storing } else j) }

/-- A core's save area has been stored. -/
def State.stored (s : State) (c : CoreId) : Bool :=
  s.saveJobs.any (fun j => !j.load && j.waiting.contains c && j.storing.any (fun x => x.1 == c && decide (x.2 ≤ s.cycle)))

/-- A packet as it is saved, with its translation or its wait for one (R423); one that waits for a seat of a core that is held keeps
what it has read, and goes to that seat again (R221) (DEDUCED log 94). -/
def Packet.unsent (p : Packet) : Packet := if p.code.isNone && p.sent then { p with waiting := false } else p

/-- A core as the save area keeps it. -/
def Core.toSave (k : Core) (cycle : Nat) : Core :=
  { k.dropPoison with
    bq := k.bq.map (fun (e : BqEntry) => { e with packets := e.packets.map (·.unsent) })
    meets := k.meets.map (·.pause cycle)
    iface := k.iface.map (fun (o : MeetOperand) => { o with inFlight := false })
    lineWaits := [] }

/-- A walk is for a code line of a core, whose seats look their lines up anew after a restore. -/
def WalkFor.lineOf (w : WalkFor) (c : CoreId) : Bool := match w with | .line d _ => d == c | _ => false

/-- An item in flight that stays with a core that is saved: a delivery to a seat, or an operand on its way to a unit that is
held (R221, R326). -/
def Body.staysBack : Body → Bool
  | .region3 .. => true
  | .operand _ => true
  | _ => false

/-- A core whose context's state has left it: what is the core's own stays. -/
def Core.left (k : Core) (c : CoreId) : Core :=
  { Core.init c with hold := .saved, droops := k.droops, power := k.power, clockStep := k.clockStep }

/-- The core's state has left for its save area. -/
def State.saveCore (s : State) (c : CoreId) (pages : List (Nat × Nat)) : State :=
  let s := (((s.core c).groupsOf c).foldl (fun s g => s.pauseGroup (s.core c).ctx g) (s.withdraw c)).undoAllClocks c
  let k := (s.core c).toSave s.cycle
  let ctx := k.ctx
  let s := (s.writeImage (s.vfOf ctx) (k.saveImage s.fresh) pages).tick
  let s : State := { s with
    walks := s.walks.filter (fun w => !w.purpose.lineOf c)
    flights := s.flights.filter (fun f => !(f.src == c && f.body.staysBack)) }
  let s := s.modContext ctx (fun x => { x with saved := assocSet x.saved c k })
  s.setCore c (k.left c)

/-- The save-failed record: its argument names the core, and word 6 holds the offset in KiB (R410, R411, R414). -/
def State.postSaveFailed (s : State) (ctx : Nat) (c : CoreId) (off : Nat) : State :=
  s.postTrap ctx (trapWords ctx 0 0 0 0x30 false false 0 0 c 0 (BitVec.ofNat 64 c) 0 0 (BitVec.ofNat 64 (off / 1024)))

/-- A bind that a unit has refused is tried again 64 cc on, once its core is back (R326). -/
def Flight.retryBind (f : Flight) (c : CoreId) (due : Nat) : Flight :=
  match f.body with
  | .bind id gen b backoff => if f.src = c && backoff != 64 then { f with due := due, body := .bind id gen b 64 } else f
  | _ => f

/-- The timers of a core's meeting entries run on (R326, R408). -/
def State.runMeets (s : State) (c : CoreId) : State :=
  let k := s.core c
  if k.hold ≠ .loading then s else s.setCore c { k with meets := k.meets.map (·.unpause s.cycle) }

/-- The expiry of an operand's entry as it stands after a restore, in place of the one that its refusal carried (R320, R326). -/
def State.expiryNow (s : State) (o : MeetOperand) (old : Nat) : Nat :=
  (((s.core o.router).meetOf o.lid o.id o.gen).map (·.expiry)).getD old

/-- The released cores of a load that is whole (R408): their engines and routes go on, rounds have their items back, timers
run, seats may take work, and chunks elsewhere that wait for their store go on. -/
def State.resumeCore (s : State) (c : CoreId) : State :=
  let k := s.core c
  if k.hold ≠ .loading then s
  else
    let k : Core := { k with
      hold := .none
      iface := k.iface.map (fun (o : MeetOperand) => { o with retryAt := s.cycle + 64, backoff := 64,
                                                              expiry := o.expiry.map (s.expiryNow o) })
      groups := k.groups }
    let free (t : Seat) : Seat := if s.recordHeld k.ctx t.record && t.st != .free then t else t.toStop false
    let s := (s.setCore c (k.mapSeats free)).resubmit c
    let s : State := { s with flights := s.flights.map (fun f => f.retryBind c (s.cycle + 64 + s.transit c f.dst)) }
    s.wakeHomed c

/-- Jobs whose last core is done add to their counters; a load then releases its cores and its groups (R408, R414). -/
def State.finishJobs (s : State) : State :=
  let ended := s.saveJobs.filter (·.waiting == [])
  let s : State := { s with saveJobs := s.saveJobs.filter (·.waiting != []) }
  ended.foldl (fun s j =>
    let s := s.lateAdd 0 j.hall j.idx.toNat
    if j.load then
      let s := j.cores.foldl (fun s c => s.runMeets c) s
      let s := j.cores.foldl (fun s c => s.resumeCore c) s
      let groups := ((s.context j.ctx).map (·.pausedGroups)).getD []
      (groups.foldl (fun s g => s.wholeGroup j.ctx g) s).pump
    else s) s

/-- CORE_SAVE (R407, R409, R410): a first turn takes the core's state as it leaves; a second one, at the end of its storing,
finishes its part of the save. -/
def execCoreSave (c : Nat) (s : State) : Host.Outcome State Fault Refusal :=
  event s (
    if (s.core c).hold != .stopping then (if s.stored c then some ((s.jobStep c false).finishJobs) else none)
    else if !s.quiet c then none
    else
      let p := s.savePages c (s.core c).ctx 1 saveOffsets
      match p.2 with
      | .ok pages => some ((p.1.saveCore c pages).startStoring c)
      | .error _ => none)

/-- SAVE_FAILED (R411): the store at an offset faults; the core stays reserved and its record is posted. -/
def execSaveFailed (c off : Nat) (s : State) : Host.Outcome State Fault Refusal :=
  event s (
    if (s.core c).hold != .stopping || !s.quiet c then none
    else
      let p := s.savePages c (s.core c).ctx 1 saveOffsets
      match p.2 with
      | .ok _ => none
      | .error o =>
        if o ≠ off then none
        else
          let t := p.1.setCore c { p.1.core c with hold := .reserved }
          some (((t.postSaveFailed (t.core c).ctx c off).jobStep c false).finishJobs))

/-- CONTEXT_RESTORE (R408, R411, R459): a core's state comes back; a reserved core only clears its stops; a page that cannot be
read leaves it reserved. -/
def execContextRestore (f : Nat) (s : State) : Host.Outcome State Fault Refusal :=
  event s (do
    let x ← s.flight f
    match x.body with
    | .restore id => do
      if s.cycle < x.due || (s.core x.dst).hold == .stopping then none
      else
        let j ← s.saveJobs.find? (·.id == id)
        let c := x.dst
        let t := s.dropFlight f
        let k := t.core c
        let other := k.ctx != 0 && k.ctx != j.ctx
        match (t.context j.ctx).bind (fun y => assocGet y.saved c) with
        | some old =>
          if other then some ((t.jobStep c true).finishJobs)
          else
            let failed (t : State) (off : Nat) : State :=
              let t := t.setCore c { t.core c with hold := .reserved, ctx := j.ctx }
              ((t.postSaveFailed j.ctx c off).jobStep c true).finishJobs
            let p := t.savePages c j.ctx 0 saveOffsets
            match p.2 with
            | .error off => some (failed p.1 off)
            | .ok pages =>
              let r := p.1.readImage (p.1.vfOf j.ctx) pages
              match r.2 with
              | .error off => some (failed (r.1.retireSoon (r.1.placeIn j.ctx c)) off)
              | .ok image =>
                let now := r.1.core c
                let back : Core := { old.loadImage image with
                  hold := .loading, power := .active, droops := now.droops, clockStep := now.clockStep, tlb := now.tlb }
                let t := r.1.modContext j.ctx (fun y => { y with saved := y.saved.filter (·.1 != c) })
                some (((t.setCore c back).jobStep c true).finishJobs)
        | none =>
          let t := if other then t else t.setCore c { k with hold := .loading, ctx := j.ctx, power := .active }
          some ((t.jobStep c true).finishJobs)
    | _ => none)

/-! ### CTXSAVE and CTXLOAD at their commit (R406, R414, R470) -/

/-- The virtual function of a context is active. -/
def State.vfActive (s : State) (ctx : Nat) : Bool :=
  match s.context ctx with
  | some x => s.vfs.any (fun v => v.vf == x.vf && v.active)
  | none => false

/-- A counter index of a pointer that names one of the issuing hall core. -/
def counterIndex (p : Word) : BitVec 8 :=
  BitVec.ofNat 8 (if ptrSpace p = 0 then (ptrAddr p - 0x80000) / 16 else chipOffset (ptrAddr p) / 16)

/-- A record about a context as a whole, with ticket 0. -/
def State.postContext (s : State) (ctx cause arg : Nat) : State :=
  s.postTrap ctx (trapWords ctx 0 0 0 cause false false 0 0 0 0 (BitVec.ofNat 64 arg) 0 0 0)

/-- A job begins with its cores; with none it is over at once. -/
def State.startJob (s : State) (ctx : Nat) (hall : CoreId) (idx : BitVec 8) (load : Bool) (cores : List CoreId) : State :=
  let id := s.fresh
  let j : SaveJob := { id := id, ctx := ctx, hall := hall, idx := idx, load := load, cores := cores, waiting := cores, storing := [] }
  let s : State := { s with saveJobs := s.saveJobs ++ [j], fresh := id + 1 }
  (cores.foldl (fun s c =>
    let wake := if (s.core c).power = .off then 40000 else 0
    s.send (s.transit hall c + wake) hall c 0 0 0 0 0 0 (if load then .restore id else .stop id)) s).finishJobs

/-- CTXSAVE at its commit. -/
def State.ctxSave (s : State) (hall : CoreId) (counter ctx rect : Word) : State :=
  let n := ctx.toNat
  if !s.vfActive n then (s.lateAdd 0 hall (counterIndex counter).toNat).postContext n 0x09 4
  else s.startJob n hall (counterIndex counter) false ((rectCores rect).filter (fun c => (s.core c).ctx == n && (s.core c).hold != .saved))

/-- A logical index has no physical core in the table of a context's function (R417, R470). -/
def State.unmapped (s : State) (ctx : Nat) (c : CoreId) : Bool := ((s.functionOf ctx).map (fun v => v.place c == none)).getD false

/-- The cores of a context are loaded, for a counter of a hall core; where one has no physical core nothing is restored, and the
counter has its add at once with a record (R414, R470). -/
def State.loadCores (s : State) (ctx : Nat) (hall : CoreId) (idx : BitVec 8) (cores : List CoreId) : State :=
  if cores.any (s.unmapped ctx) then (s.lateAdd 0 hall idx.toNat).postContext ctx 0x09 5
  else (s.readRoot ctx).startJob ctx hall idx true cores

/-- CTXLOAD at its commit. -/
def State.ctxLoad (s : State) (hall : CoreId) (counter ctx rect : Word) : State :=
  let n := ctx.toNat
  if !s.vfActive n then (s.lateAdd 0 hall (counterIndex counter).toNat).postContext n 0x09 4
  else s.loadCores n hall (counterIndex counter) (rectCores rect)

/-! ### Logical-to-physical tables (R417, R465, R466) -/

/-- A logical core holds state of a context of a function, loaded or reserved (DEDUCED log 33). -/
def State.holdsState (s : State) (vf : Nat) (c : CoreId) : Bool :=
  (s.core c).ctx != 0 && (s.functionOf (s.core c).ctx).map (·.vf) == some vf

/-- A physical core is mapped by another entry than one function's for one index: an entry of a function that owns it, as every
function owns the spares (DEDUCED log 33). -/
def State.mappedElsewhere (s : State) (vf idx p : Nat) : Bool :=
  s.vfs.any (fun v => v.owns p && (List.range 2048).any (fun i => !(v.vf == vf && i == idx) && v.place i == some p))

/-- LPMAP at its commit: the state and the code of its status (R417). -/
def State.lpMap (s : State) (b c : Word) : State × Nat :=
  let idx := b.field 0 11
  let vf := b.field 16 7
  match s.vfs.find? (·.vf == vf) with
  | none => (s, 0x0403)
  | some v =>
    let set (p : Option Nat) : State :=
      { s with vfs := mapFirst (·.vf == vf) (fun (v : VirtualFunction) => { v with lp := assocSet v.lp idx p }) s.vfs }
    if s.holdsState vf idx then (s, 0x0402)
    else if c.bit 63 then (set none, 0)
    else
      let p := c.field 0 12
      if s.mappedElsewhere vf idx p then (s, 0x0401)
      else if field p 10 2 != coreDie idx || !v.owns p then (s, 0x0403)
      else (set (some p), 0)

/-! ### Virtual functions (R415, R480) -/

/-- A virtual function from its descriptor, or the code of what is wrong with it. -/
def State.vfDescriptor (s : State) (vf : Nat) (d : List Byte) : Except Nat (List Word × BitVec 8 × Bool) :=
  let rects := bytesToWords 4 d
  let tc := d.getD 32 0
  let flags := d.getD 34 0
  let others := s.vfs.filter (·.vf != vf)
  let shapes := rects.all (fun r => r == 0 || rectShape r)
  let clash := rects.any (fun r => r != 0 && (rectCores r).any (fun c => others.any (fun o => o.rects.any (fun q => q != 0 && rectHas q c))))
  if !(shapes && d.getD 33 0 == 0 && flags.toNat ≤ 1 && (d.drop 35).all (· == 0)) then .error 0x0403
  else if clash then .error 0x0402
  else if others.any (fun o => o.tcMask &&& tc != 0) then .error 0x0403
  else .ok (rects, tc, flags.bit 0)

/-- A context of a virtual function is loaded on some core. -/
def State.vfLoaded (s : State) (vf : Nat) : Bool := s.cores.any (fun p => p.2.ctx != 0 && s.vfOf p.2.ctx == vf)

/-- The reply by which a sealed function's credential of 256 bits leaves, once, for the one who configured it, under the function's
number (R480, DESIGN CHOICE log 14). -/
def VirtualFunction.credentialReply (v : VirtualFunction) : List Reply :=
  match v.credential with
  | some c => [{ tag := v.vf, status := 0, body := (List.range 4).map (fun j => BitVec.ofNat 64 (c / 2 ^ (64 * j))) }]
  | none => []

/-- VFCFG at its commit: the state and the code of its status (R415, R480). -/
def State.vfConfig (s : State) (vf op : Nat) (d : List Byte) : State × Nat :=
  let old := s.vfs.find? (·.vf == vf)
  let isActive := (old.map (·.active)).getD false
  match op with
  | 0 =>
    if isActive then (s, 0x0401)
    else
      match s.vfDescriptor vf d with
      | .error e => (s, e)
      | .ok (rects, tc, isSealed) =>
        let v : VirtualFunction :=
          { vf := vf, rects := rects, tcMask := tc, isSealed := isSealed,
            key := if isSealed then some (Config.freshKey s.fresh) else none,
            credential := if isSealed then some (Config.freshKey (s.fresh + 1) % 2 ^ 256) else none, active := false,
            lp := (old.map (·.lp)).getD s.repair }
        ({ s with vfs := s.vfs.filter (·.vf != vf) ++ [v], fresh := s.fresh + 2, replies := s.replies ++ v.credentialReply }, 0)
  | 1 =>
    if old.isNone then (s, 0x0403)
    else if isActive then (s, 0)
    else if 8 ≤ (s.vfs.filter (·.active)).length then (s, 0x0401)
    else ({ s with vfs := mapFirst (·.vf == vf) (fun (v : VirtualFunction) => { v with active := true }) s.vfs }, 0)
  | _ =>
    if s.vfLoaded vf then (s, 0x0401)
    else ({ s with vfs := mapFirst (·.vf == vf) (fun (v : VirtualFunction) => { v with active := false }) s.vfs }, 0)

end Sys2Proof.Machine
end

