-- ==== Sys2Proof/Machine/HallThreads.lean ====
section
/-!
DEFINITION. The run queue of hall threads: who runs, whose slice ends, and the entry to the service (R392, R396, R398, R471).
-/
namespace Sys2Proof.Machine

/-- The thread on a hall seat. -/
def State.threadOn (s : State) (c : CoreId) (n : Nat) : Option HallThread :=
  s.runQueue.find? (fun h => h.place == some (c, n))

/-- The thread that takes a seat next: of the highest class, first in first out. -/
def State.nextThread (s : State) : Option HallThread :=
  (List.range 8).findSome? (fun p => s.runQueue.find? (fun h => h.ready && h.prio == p))

/-- Every seat of the hall cores that work is taken. -/
def State.hallFull (s : State) : Bool := s.workingHalls.all (fun c => (List.range 4).all (fun n => (s.seat c n).st != .free))

/-- The slice of the thread on a seat has ended. -/
def State.sliceEnded (s : State) (h : HallThread) : Bool :=
  match h.place with
  | some p => (s.seat p.1 p.2).hall.sliceEnd
  | none => false

/-- A thread that runs is displaced: every seat is taken, more threads of a higher class are ready than slices have ended already,
and no other thread that runs on is of a lower class; among several of the lowest class the schedule says which (R396, DESIGN CHOICE
DESIGN CHOICE log 116). -/
def State.displaced (s : State) (h : HallThread) : Bool :=
  let running := s.runQueue.filter (fun r => r.place.isSome)
  s.hallFull && (running.filter s.sliceEnded).length < (s.runQueue.filter (fun r => r.ready && r.prio < h.prio)).length &&
    (running.filter (fun r => !s.sliceEnded r)).all (fun r => r.prio ≤ h.prio)

/-- SLICE_END (R396): the slice of the thread on a hall seat ends after 4,000,000 cc, or for a thread of a higher class; the entry comes
at the next chunk boundary. -/
def execSliceEnd (c k : Nat) (s : State) : Host.Outcome State Fault Refusal :=
  event s (do
    let h ← s.threadOn c k
    let t := s.seat c k
    if t.hall.sliceEnd || !(h.since + 4000000 ≤ s.cycle || s.displaced h) then none
    else
      let mark (x : HallRegs) : HallRegs := { x with sliceEnd := true }
      let s : State := { s with runQueue := mapFirst (·.cid == h.cid) (fun r => { r with since := s.cycle }) s.runQueue }
      some (s.setSeat c k { t with hall := mark t.hall, hallSnap := mark t.hallSnap }))

/-- A thread at a chunk boundary leaves its seat for the tail of the run queue, with the seat's state, and its place is free. -/
def State.unseat (s : State) (c n : Nat) (h : HallThread) (saved : List CoreId) : State :=
  let t := s.seat c n
  let s := (s.leaveHall c n).setSeat c n { t.freed with hall := t.hall.idle, hallSnap := t.hall.idle }
  s.queueThread { h with kept := some t, saved := saved }

/-- A thread is descheduled: its context is pre-empted on every core that holds it (R396). -/
def State.deschedule (s : State) (c n : Nat) (h : HallThread) : State :=
  let cores := (s.cores.filter (fun p => p.2.ctx == h.ctx && p.2.hold == .none)).map (·.1)
  let t := s.unseat c n h cores
  if cores = [] then t else t.startJob h.ctx c 255 false cores

/-- HALL_SERVICE_ENTRY (R396, R398): at a chunk boundary after the end of a slice, HEPC is the next instruction and HCAUSE 0xFF; where
another thread of its class or a higher one waits and no seat is free, the thread then gives up its seat (DEDUCED log 117). -/
def execHallServiceEntry (c k : Nat) (s : State) : Host.Outcome State Fault Refusal :=
  event s (
    let t := s.seat c k
    if !(isHall c && seatExists k && t.serviceDue) then none
    else
      let u := s.setSeat c k (t.serviceEntry 0xFF t.regs.pc)
      some (match u.threadOn c k with
        | some h => if u.hallFull && u.runQueue.any (fun r => r.ready && r.prio ≤ h.prio) then u.deschedule c k h else u
        | none => u))

/-- A thread of a retired hall core moves at its next chunk boundary (R471). -/
def State.moveThread (s : State) (c n : Nat) : State :=
  match s.threadOn c n with
  | some h => if s.hallRetired c && (s.seat c n).st == .running && !(s.seat c n).started then s.unseat c n h [] else s
  | none => s

end Sys2Proof.Machine
end

