-- ==== Sys2Proof/Machine/Walks.lean ====
section
/-!
DEFINITION. Page-table walks as they end, with what they were for, and the fetch of a code line (R23, R424 to R426, R459).
-/
namespace Sys2Proof.Machine

/-! ### Line fetches (R426) -/

/-- What a seat waits for at its line cache. -/
def Core.lineWait (k : Core) (n : Nat) : Option LineWait := k.lineWaits.find? (·.seat == n)

/-- The line of a head that is waited for. -/
def LineWait.line (w : LineWait) : Nat := w.head / 64 * 64

/-- A line arrives in a core's cache, with no bytes when it has no heads, and the seats that wait for it go on. -/
def State.lineArrives (s : State) (c : CoreId) (line : Nat) (bs : List Byte) : State :=
  let k := s.core c
  let go (k : Core) (w : LineWait) : Core :=
    if w.line = line && (k.seat w.seat).st == .stalled then k.setSeat w.seat { k.seat w.seat with st := .running } else k
  let k : Core := k.lineWaits.foldl go k
  s.setCore c { k with lines := assocSet k.lines line bs, lineWaits := k.lineWaits.filter (·.line != line) }

/-- The context a seat's code lies in: its launch's, or that of the hall thread on the seat (DEDUCED log 64). -/
def State.codeCtx (s : State) (c : CoreId) (n : Nat) : Nat := s.ctxOf c (s.seat c n)

/-- Who asks for a seat's code line: its record names the head whose fetch failed, a transfer's target included (R22, R101). -/
def State.lineAsker (s : State) (c : CoreId) (w : LineWait) : Asker :=
  let t := s.seat c w.seat
  { core := c, seat := w.seat, lid := t.lid, cid := t.cid, ia := BitVec.ofNat 48 w.head, cpc := t.snap.pc, mig := t.origin.isSome }

/-- A line that is waited for has been translated, once (R423), or mended: its bytes are there from a cc on. -/
def State.lineDue (s : State) (c : CoreId) (n pa due : Nat) : State :=
  let k := s.core c
  s.setCore c { k with lineWaits := k.lineWaits.map (fun w => if w.seat = n then { w with frame := some pa, due := due } else w) }

/-- A line's bytes are read at its frame; one that has to be mended comes when that is done (R456), and a poisoned one has no heads
(R459). -/
def State.readLine (s : State) (c : CoreId) (w : LineWait) (pa : Nat) : State :=
  let lag := s.mendLag [lineOf pa]
  let a := s.dramRead (s.vfOf (s.codeCtx c w.seat)) pa 64
  if lag ≠ 0 then a.1.lineDue c w.seat pa (s.cycle + lag)
  else a.1.lineArrives c w.line (match a.2 with | some x => x.1 | none => [])

/-- What a translation makes of a line fetch: its bytes come from HBM about 1,400 cc on (R10). -/
def State.lineOutcome (s : State) (c : CoreId) (w : LineWait) (r : Translated) : State :=
  let ctx := s.codeCtx c w.seat
  match r with
  | .frame pa => s.lineDue c w.seat pa (s.cycle + 1400 + s.cipherLag (s.vfOf ctx))
  | .code _ => s.lineArrives c w.line []
  | .report reason e => (s.postWalk (s.lineAsker c w) ctx w.line 3 reason e).lineArrives c w.line []
  | .held reason e => s.holdWalk (s.lineAsker c w) ctx w.line 3 reason e (.line c w.seat)
  | .walk => s.askWalk c ctx w.line 3 (.line c w.seat)

/-- LINE_FETCH (R426, R459). -/
def execLineFetch (c k : Nat) (s : State) : Host.Outcome State Fault Refusal :=
  event s (do
    let w ← (s.core c).lineWait k
    match w.frame with
    | some pa => if s.cycle < w.due then none else some (s.readLine c w pa)
    | none =>
      if s.walks.any (·.purpose == .line c k) then none
      else
        let a := s.translate c (s.codeCtx c k) w.line 3
        some (a.1.lineOutcome c w a.2))

/-! ### Walks (R424, R425) -/

/-- What a walk at the package edge comes to: a source that cannot be read is lost, a target that cannot be written refuses. -/
def State.edgeOutcome (s : State) (id : Nat) (w : Walk) (r : Translated) : State :=
  match s.edgeOut.find? (·.id == id), s.flight id with
  | some e, _ =>
    match s.outgoing? e.packet.xid with
    | none => s
    | some o =>
      match r with
      | .frame pa =>
        (match e.pieces[e.frames.length]? with
          | some p => s.edgeFrames o { e with frames := e.frames ++ [(pa, p.2)] } (e.pieces.drop (e.frames.length + 1))
          | none => s).pump
      | .code _ => (s.packetLost o e none).pump
      | .report reason x => ((s.postWalk o.asker w.ctx w.va w.access reason x).packetLost o e none).pump
      | .held reason x => s.holdWalk o.asker w.ctx w.va w.access reason x (.edge id)
      | .walk => s
  | none, some f =>
    match f.body with
    | .packet p =>
      let a := (s.exportEntry (remoteEntry p.dst)).asker
      match r with
      | .code _ => (s.dropFlight id).edgeAck p (some (0x28, p.dst))
      | .report reason x =>
        ((s.postWalk a w.ctx w.va w.access reason x).dropFlight id).edgeAck p (some (0x28, p.dst))
      | .held reason x => s.holdWalk a w.ctx w.va w.access reason x (.edge id)
      | _ => s
    | _ => s
  | none, none => s

/-- What a walk for a route comes to. -/
def State.routeOutcome (s : State) (c : CoreId) (id : Nat) (w : Walk) (r : Translated) : State :=
  match (s.core c).routes.find? (·.id == id) with
  | none => s
  | some x =>
    match x.stage with
    | .copy t k =>
      let on (s : State) (y : Option Nat × Nat) : State :=
        s.copyRow c { x with frames := x.frames ++ [y] } t k (x.pages.drop (x.frames.length + 1))
      match r with
      | .frame pa => on s (some pa, 0)
      | .code code => on s (none, code)
      | .report reason e => on (s.postWalk (x.asker c) w.ctx w.va w.access reason e) (none, 0x0100)
      | .held reason e => s.holdWalk (x.asker c) w.ctx w.va w.access reason e (.route c id)
      | .walk => s
    | _ => s

/-- What a walk for a packet of a block queue comes to: a read of device memory takes its time from here on (R10). -/
def State.packetWalked (s : State) (c : CoreId) (entry key : Nat) (w : Walk) (r : Translated) : State :=
  match s.packetAt c entry key with
  | none => s
  | some (e, p) =>
    let u := s.packetOutcome c e key w.va r
    let q := p.translated r s.fresh
    let q := if q.frame.isSome && w.access != 1 then
        { q with due := max q.due (s.cycle + 1400 + s.cipherLag w.vf) } else q
    match q.code with
    | some code => u.endPacket c entry q code
    | none => u.setPacket c entry q

/-- The core that a walk's asker stands on. -/
def WalkFor.core : WalkFor → Option CoreId
  | .packet c _ _ => some c
  | .line c _ => some c
  | .route c _ => some c
  | .edge _ => none

/-- A walk's asker is saved with its core: the walk ends once it is back (R425). -/
def State.walkAway (s : State) (w : Walk) : Bool :=
  match w.purpose.core with
  | some c => (s.context w.ctx).any (fun x => (assocGet x.saved c).isSome)
  | none => false

/-- A walk has ended for one of those that it was for: the asker's core cache takes the leaf, and the outcome is that access's own
(R424).  A seat that waits for another line by now is not concerned. -/
def State.walkFor (s : State) (stop : WalkEnd) (w : Walk) : State :=
  let u := s.takeLeaf w.core w.ctx w.va stop
  let r := stop.outcome w.ctx (s.vfOf w.ctx) w.va w.access
  match w.purpose with
  | .packet c e key => u.packetWalked c e key w r
  | .line c n =>
    match (u.core c).lineWait n with
    | some x => if x.line = w.va && x.frame.isNone then u.lineOutcome c x r else u
    | none => u
  | .edge id => u.edgeOutcome id w r
  | .route c id => u.routeOutcome c id w r

/-- TRANSLATION_WALK (R424, R425): misses for one page at one die are one walk, which ends for all of them (DEDUCED log 58); one
that has to have a line of its tables rebuilt ends when that is done (R456). -/
def execTranslationWalk (w : Nat) (s : State) : Host.Outcome State Fault Refusal :=
  event s (do
    let x ← s.walks.find? (·.id == w)
    if x.held || s.cycle < x.readyAt || s.walkAway x then none
    else
      let mine (y : Walk) : Bool :=
        !y.held && y.ctx == x.ctx && y.va / 4096 == x.va / 4096 && coreDie y.core == coreDie x.core && y.readyAt ≤ s.cycle && !s.walkAway y
      let lag := s.walkLag x.core x.ctx x.va
      if lag ≠ 0 then
        let a := s.tableWalk (s.vfOf x.ctx) x.va (s.walkStart x.core x.ctx (s.vfOf x.ctx) x.va)
        some { a.1 with walks := a.1.walks.map (fun y => if mine y then { y with readyAt := s.cycle + lag } else y) }
      else
        let a := ({ s with walks := s.walks.filter (fun y => !mine y) } : State).endWalk x.core x.ctx x.va
        some ((s.walks.filter mine).foldl (fun t y => t.walkFor a.2 y) a.1))

end Sys2Proof.Machine
end

