-- ==== Sys2Proof/Machine/Seats.lean ====
section
/-!
DEFINITION. Seats: park points, deferred results, waits, boundaries, budgets, conflicts, transfers, and the taking of work
(R31 to R38, R189 to R206, R227, R246, R276, R277).
-/
namespace Sys2Proof.Machine

/-! ### Park points (R31, R33, R36) -/

/-- A group result is written into the registers, with its flags (R33, R71). -/
def Seat.landResult (t : Seat) (g : GroupResult) : Seat :=
  let regs := { t.regs with nf := t.regs.nf ||| g.nf }
  match g.reg, g.live with
  | some r, true => { t with regs := regs.write r g.val, past := { reg := r, val := t.regs.read r } :: t.past }
  | _, _ => { t with regs := regs }

/-- The seat's group results written, in program order. -/
def Seat.landResults (t : Seat) : Seat := { t.results.foldl Seat.landResult t with results := [] }

/-- Every group result of a parked seat is there. -/
def Seat.resultsReady (t : Seat) (cycle : Nat) : Bool := t.results.all (fun g => g.waits == 0 && g.readyAt ≤ cycle)

/-- At a boundary, a speculative task's routes are sent for their claims, as far as the unit has room (R337, R390). -/
def State.specRoutes (s : State) (c n : Nat) : State :=
  let t := s.seat c n
  if t.boundary.isNone || (match t.task with | some x => x.inPlace | none => true) then s
  else
    let room := 16 - (s.core c).routes.length
    let isRoute (h : HeldEffect) : Bool := match h.body with | .expert _ (.route ..) => true | _ => false
    let mine := (t.held.filter isRoute).take room
    let s := mine.foldl (fun s h => match h.body with
      | .expert home (.route b row m) => s.issueRoute c home t.lid t.cid n h.tag h.ia t.snap.pc t.origin.isSome b row m true
      | _ => s) s
    s.setSeat c n { t with held := t.held.filter (fun h => !mine.contains h) }

/-- PARK_POINT (R31, R33, R36, R198): the results are written; at a boundary the seat commits, with its place 4 cc on. -/
def execParkPoint (c k : Nat) (s : State) : Host.Outcome State Fault Refusal :=
  event s (
    let t := s.seat c k
    if t.st != .parked || t.halted || !t.resultsReady s.cycle then none
    else
      let u := t.landResults
      some (match u.boundary with
        | none => s.setSeat c k { u with st := .running }
        | some _ => ((s.setSeat c k { u with st := .committing, grantAt := s.cycle + 4 }).placeTask c k).specRoutes c k))

/-! ### Deferred results (R37, R38, R205) -/

/-- A deferred result lands: in the chunk-start registers too when an earlier chunk issued its operation (R38). -/
def Seat.landDeferred (t : Seat) (d : Deferred) (val : Word) : Seat :=
  let v : Vec := val.setWidth 1024
  let u : Seat := { t with
    regs := t.regs.write d.reg v
    snap := if d.old then t.snap.write d.reg v else t.snap
    past := { reg := d.reg, val := t.regs.read d.reg } :: t.past
    deferred := t.deferred.filter (· != d) }
  u.wake

/-- The seat, of any core, that waits for a tag; a lent one is left out. -/
def State.seatAwaiting (s : State) (tag : Nat) : Option (CoreId × Nat × Deferred) :=
  s.cores.findSome? (fun p => (List.range 4).findSome? (fun n =>
    let t := p.2.seat n
    if t.st = .free || t.st == .lent then none else (t.deferred.find? (·.tag == tag)).map (fun d => (p.1, n, d))))

/-- A transfer in flight with a deferred result landed (R205). -/
def Transfer.landDeferred (t : Transfer) (tag : Nat) (val : Word) : Transfer :=
  match t.deferred.find? (·.tag == tag) with
  | some d => { t with regs := t.regs.write d.reg (val.setWidth 1024), deferred := t.deferred.filter (· != d) }
  | none => t

/-- The same for an item in flight. -/
def Body.landDeferred (b : Body) (tag : Nat) (val : Word) : Body :=
  match b with
  | .transfer t => .transfer (t.landDeferred tag val)
  | .transferBack t => .transferBack (t.landDeferred tag val)
  | b => b

/-- DEFERRED_RESULT_LANDING (R37, R38, R205): at the seat, or with the transfer that carries it; a cancelled one is dropped. -/
def execDeferredResultLanding (f : Nat) (s : State) : Host.Outcome State Fault Refusal :=
  event s (do
    let x ← s.arriving f
    match x.body with
    | .deferred tag val =>
      let t := s.dropFlight f
      match t.seatAwaiting tag with
      | some (c, n, d) => some (t.setSeat c n ((t.seat c n).landDeferred d val))
      | none =>
        if t.savedSeat (fun y => y.deferred.any (·.tag == tag)) then none
        else match t.runQueue.find? (fun h => h.kept.any (fun y => y.deferred.any (·.tag == tag))) with
        | some h => some (t.modKept h.cid (fun y => match y.deferred.find? (·.tag == tag) with | some d => y.landDeferred d val | none => y))
        | none => some { t with flights := t.flights.map (fun (g : Flight) => { g with body := g.body.landDeferred tag val }) }
    | _ => none)

/-! ### Waits in place and boundaries (R192, R195, R246) -/

/-- The word that a waiting LDFE takes. -/
def State.waitTakes (s : State) (c : CoreId) (n : Nat) : List Nat :=
  let t := s.seat c n
  match fetchAt (s.core c) t.regs.pc, t.waitFull with
  | .words w, some (l, true) =>
    match decode w.head w.tail with
    | .ok (.ldfe ..) => l
    | _ => []
  | _, _ => []

/-- FULL_WAIT_SATISFIED (R192, R213, R246): the seat issues its instruction again; a word that it is to take is reserved with
the test.  A halted seat's stall ends only after the resume (R474). -/
def execFullWaitSatisfied (c k : Nat) (s : State) : Host.Outcome State Fault Refusal :=
  event s (
    let t := s.seat c k
    let home := seatHome c t
    let words := match t.waitFull with | some (l, true) => l | _ => []
    if t.st == .stalled && !t.halted && s.waitMet c k && !s.testsAfter c k home words then
      let took := (s.waitTakes c k).map (fun a => (a, c, k))
      let u := s.setSeat c k { t with st := .running, waitFull := none }
      let h := u.core home
      some (u.setCore home { h with reserved := took ++ h.reserved })
    else none)

/-- The chunk of a running seat ends before its next instruction: the 513th, or one that meets a result still held (R37,
R195). -/
def State.boundaryDue (s : State) (c : CoreId) (n : Nat) : Bool :=
  let t := s.seat c n
  t.st == .running && (t.count == 512 ||
    match fetchAt (s.core c) t.regs.pc with
    | .words w =>
      match decode w.head w.tail with
      | .ok i => gate t w i == .boundary
      | .error _ => false
    | _ => false)

/-- IMPLICIT_BOUNDARY (R37, R195): the seat parks with the boundary. -/
def execImplicitBoundary (c k : Nat) (s : State) : Host.Outcome State Fault Refusal :=
  event s (
    let t := s.seat c k
    if s.boundaryDue c k then some (s.setSeat c k { t with st := .parked, boundary := some .implicit }) else none)

/-- BUDGET_EXCEEDED (R197): the count runs until the commit is done, so it also strikes a chunk that waits at step 5; what has
drained or issued by then stays (DEDUCED log 34).  A halt pauses the budget (R474). -/
def execBudgetExceeded (c k : Nat) (s : State) : Host.Outcome State Fault Refusal :=
  event s (
    let t := s.seat c k
    let live := t.st == .running || t.st == .parked || t.st == .stalled || t.st == .committing
    if live && t.overBudget s.cycle then
      some (s.fault c k 0x18 (BitVec.ofNat 64 t.budget) t.regs.pc)
    else none)

/-! ### Conflicts (R276, R277) -/

/-- A chunk that has aborted eight times in a row takes its home core's priority, or waits for it. -/
def Core.claimPriority (k : Core) (who : CoreId × Nat) : Core :=
  if k.priority = some who || k.priorityQueue.contains who then k
  else if k.priority.isNone then { k with priority := some who }
  else { k with priorityQueue := k.priorityQueue ++ [who] }

/-- CONFLICT_ABORT (R276, R277): at the next issue, or before the grant, and after the resume where a halt holds the chunk (R476);
the chunk re-runs at once and keeps the priority it may have. -/
def execConflictAbort (c k : Nat) (s : State) : Host.Outcome State Fault Refusal :=
  event s (
    let t := s.seat c k
    if !(t.conflict && !t.granted && !t.halted && (t.st == .running || t.st == .committing)) then none
    else
      let home := seatHome c t
      let u := (s.abort c k true).rerun c k
      let row := t.conflictRow + 1
      let u := u.setSeat c k { u.seat c k with conflictRow := row }
      some (if 8 ≤ row then u.setCore home ((u.core home).claimPriority (c, k)) else u))

/-! ### Seat transfers (R204 to R206) -/

/-- A region 3 landing that has arrived waits for the seat (R227). -/
def State.regsAwait (s : State) (c : CoreId) (n : Nat) : Bool :=
  s.flights.any (fun f => f.dst == c && decide (f.due ≤ s.cycle) && (match f.body with | .region3 m .. => m == n | _ => false))

/-- A seat of a core may take work: free, with no stop or halt, its core active (R201, R227, R358, R406, R474). -/
def State.mayTake (s : State) (c : CoreId) (n : Nat) : Bool :=
  let k := s.core c
  (k.seat n).st == .free && !(k.seat n).stop && k.hold == .none && !k.haltQuick && k.power == .active && !s.regsAwait c n &&
    !s.hallRetired c

/-- An operation that a continuation's migrated chunk has sent to its home has still to execute there: the next chunk at home comes
after it (R293, R294). -/
def State.homeOpen (s : State) (home : CoreId) (cid : Nat) : Bool :=
  s.openOps.any (fun o => o.cid == cid && o.path && !o.done && o.place == some home && o.src != home)

/-- The first seat transfer that has arrived at a core that holds its context (R397). -/
def State.transferAt (s : State) (c : CoreId) : Option (Flight × Transfer) :=
  s.flights.findSome? (fun f => match f.body with
    | .transfer t => if f.dst = c && f.due ≤ s.cycle && s.atHome f then some (f, t) else none
    | _ => none)

/-- The 5,184 bytes of a seat transfer (R205). -/
def Transfer.image (t : Transfer) : List Byte :=
  t.regs.image.take 4744 ++ wordBytes t.record.w0 ++ wordBytes t.record.w1 ++ wordBytes t.record.w2 ++
    natToBytes 8 (t.regs.nf.toNat + 2 ^ 8 * t.regs.rmode.toNat) ++ wordBytes t.regs.seed ++
    natToBytes 8 (t.core + 2 ^ 16 * t.seat) ++ natToBytes 8 0 ++
    ((t.deferred.take 24).flatMap Deferred.image ++ List.replicate 384 0).take 384

/-- SEAT_TRANSFER_TAKE (R201, R204): the chunk runs again from its start.  The seat's own NF, RMODE and SEED come back when the
chunk has left, and its matrix status stays (R45, R187) (DEDUCED log 101). -/
def execSeatTransferTake (c k : Nat) (s : State) : Host.Outcome State Fault Refusal :=
  event s (do
    let x ← s.transferAt c
    if !(seatExists k && s.mayTake c k) then none
    else
      let t := x.2
      let old := s.seat c k
      let g := t.regs.taken old.regs
      some ((s.dropFlight x.1.id).setSeat c k
        { old with
          kept := some (old.regs.nf, old.regs.rmode, old.regs.seed)
          st := .running, regs := g, snap := g, record := t.record, cid := t.cid, deferred := t.deferred,
          past := [], delivered := [], resumeAt := s.cycle + 8, origin := some (t.core, t.seat), lastCommit := t.lastCommit,
          task := t.task, trap := t.trap, more := t.more,
          haltedAt := (s.seat t.core t.seat).haltedAt }))

/-- SEAT_TRANSFER_RETURN (R206, R405): the lent seat goes on with its next chunk, becomes free, or is trapped for a deferred
trap that came meanwhile. -/
def execSeatTransferReturn (f : Nat) (s : State) : Host.Outcome State Fault Refusal :=
  event s (do
    let x ← s.flight f
    match x.body with
    | .transferBack t =>
      if s.cycle < x.due || (s.core t.core).away || s.homeOpen t.core t.cid then none
      else
        let u := s.dropFlight f
        let old := u.seat t.core t.seat
        if !(old.st == .lent && old.cid == t.cid) then some u
        else if t.retired then some (u.setSeat t.core t.seat (old.endLent t.regs.nf t.regs.rmode t.regs.seed))
        else
          let back : Seat := { old with
            st := .running, regs := t.regs.taken old.regs, snap := t.regs.taken old.regs, record := t.record,
            deferred := t.deferred, lentTo := none,
            lastCommit := t.lastCommit, task := t.task, trap := t.trap, more := t.more, count := 0, started := false }
          let u := u.setSeat t.core t.seat back
          some (match t.trap with
            | some d => u.trapSeat t.core t.seat d.cause d.arg true true d.ia d.cpc t.target
            | none => u)
    | _ => none)

/-! ### Starting a record (R14, R189, R190) -/

/-- The values a register held before on the seat, the newest first. -/
def Seat.earlier (t : Seat) (r : Reg) : List Vec := t.regs.read r :: (t.past.filter (·.reg == r)).map (·.val)

/-- An undefined start value: one of the register's earlier values on the seat, or the value it began with (R14, DESIGN CHOICE log
3). -/
def Seat.undefined (t : Seat) (seed kind : Nat) (r : Reg) : Vec :=
  let l := t.earlier r
  (l[Config.pick seed kind % l.length]?).getD (t.regs.read r)

/-- Every register undefined, but for vectors that an engine delivered into the free seat (R227). -/
def Seat.scramble (t : Seat) (seed : Nat) : Regs :=
  { t.regs with
    x := Vector.ofFn (fun i => (t.undefined seed (100 + i.val) (.x (BitVec.ofFin i))).setWidth 64)
    v := Vector.ofFn (fun i =>
      let r : BitVec 5 := BitVec.ofFin i
      if t.delivered.contains r then t.regs.v[i] else t.undefined seed (200 + i.val) (.v r))
    q := Vector.ofFn (fun i => (t.undefined seed (300 + i.val) (.q (BitVec.ofFin i))).setWidth 128) }

/-- The registers of a seat that another launch has used hold nothing of it (R14), beside the vectors that an engine has
delivered (R227). -/
def Seat.forLaunch (t : Seat) (lid : Nat) : Seat :=
  if t.record.lid = lid then t
  else { t with
    past := []
    regs := { t.regs with
      x := Vector.replicate 64 0
      v := Vector.ofFn (fun i => if t.delivered.contains (BitVec.ofFin i) then t.regs.v[i] else 0)
      q := Vector.replicate 8 0 } }

/-- The registers that a record sets (R190). -/
def Regs.start (g : Regs) (r : Record) (pc : BitVec 48) : Regs :=
  { g with
    x := (((((((g.x.set 1 r.a1).set 2 r.a2).set 3 r.a3).set 4 r.a4).set 5 r.a5).set 6 r.w1).set 7 r.x7)
    pc := pc }

/-- The task that a record starts (R385). -/
def Record.task (r : Record) : Option TaskState :=
  if r.isTask then
    some { stamp := r.w2, spawnId := r.x7, inPlace := false, finished := false, readSig := 0, writeSig := 0 }
  else none

/-- The entry PC of a record; none where no entry exists (R189). -/
def State.entryPc (s : State) (r : Record) : Option (BitVec 48) :=
  if r.w0.field 0 48 ≠ 0 then some (r.w0.setWidth 48)
  else
    let hid := r.w0.field 56 8
    if 64 ≤ hid then none
    else
      let e := wordAt (((s.launch r.lid).map (·.handlers)).getD []) hid
      if e.field 0 48 = 0 then none else some (e.setWidth 48)

/-- A seat starts a record: its first instruction issues 8 cc later (R189, R190, R201). -/
def State.startRecord (s : State) (c : CoreId) (n : Nat) (r : Record) : State :=
  let cid := if r.cid = 0 then s.fresh else r.cid
  let t := (s.seat c n).forLaunch r.lid
  let pc := s.entryPc r
  let g := (t.scramble s.fresh).start r (pc.getD 0)
  let u : Seat := { t with
    st := .running, regs := g, snap := g, delivered := [], record := { r with cid := cid }, cid := cid, resumeAt := s.cycle + 8,
    task := r.task, lastCommit := r.last, hall := t.hall.idle, hallSnap := t.hall.idle, stop := false }
  let s : State := ({ s with fresh := s.fresh + 1 } : State).setSeat c n u
  match pc with
  | some _ => s
  | none => s.fault c n 0x04 0 0

/-! ### Taking work (R201, R202, R392) -/

/-- The record of a message (R202). -/
def Message.record (m : Message) (c : CoreId) : Record :=
  { w0 := BitVec.ofNat 64 (m.hid * 2 ^ 56), w1 := BitVec.ofNat 64 (c % 2048 + m.lid % 65536 * 2 ^ 11), w2 := 0,
    a1 := wordAt m.words 0, a2 := wordAt m.words 1, a3 := wordAt m.words 2, a4 := wordAt m.words 3, a5 := wordAt m.words 4,
    x7 := m.seq, cid := 0, clip := m.clip, last := none }

/-- The class of a record's launch. -/
def State.recordClass (s : State) (r : Record) : Nat := ((s.launch r.lid).map (·.prio)).getD 0

/-- Remove the first entry of a list that is equal to one. -/
def dropRecord (r : Record) : List Record → List Record
  | [] => []
  | x :: l => if x = r then l else x :: dropRecord r l

/-- The records of a list that may start: no paused group holds them, and no operation of their last chunk is open at home. -/
def State.startable (s : State) (c : CoreId) (l : List Record) : List Record :=
  l.filter (fun r => !s.recordHeld (s.core c).ctx r && !s.homeOpen c r.cid)

/-- A record waits for another seat than this one (R201). -/
def Record.hintsAway (r : Record) (n : Nat) : Bool := r.w0.bit 55 && r.w0.field 52 2 != n

/-- The records that a seat may take: one hinted to another seat only where no other entry can use the seat (R201). -/
def State.unhinted (s : State) (c : CoreId) (n : Nat) (l : List Record) : List Record :=
  let k := s.core c
  if k.msgq != [] || (s.startable c (k.ready ++ k.work)).any (fun r => !r.hintsAway n) then l.filter (fun r => !r.hintsAway n) else l

/-- Of records of one class, the one whose launch the core served longest ago, the first of those (R392). -/
def inTurn (served : List Nat) (l : List Record) : Option Record :=
  let age (r : Record) : Nat := served.idxOf r.lid
  l.foldl (fun best r => match best with
    | none => some r
    | some b => if age b < age r then some r else best) none

/-- The ready record that a seat takes: of the highest class, the launches of one class in turn (R201, R392) (DEDUCED log 50). -/
def State.readyFor (s : State) (c : CoreId) (n : Nat) : Option Record :=
  let l := s.unhinted c n (s.startable c (s.core c).ready)
  (List.range 8).findSome? (fun p => inTurn (s.core c).served (l.filter (fun r => s.recordClass r == p)))

/-- The first record of the work list that a seat may take. -/
def State.workFor (s : State) (c : CoreId) (n : Nat) : Option Record := (s.unhinted c n (s.startable c (s.core c).work)).head?

/-- A message is taken: once its clip handler ends, the ring slot it names can be published (R224). -/
def State.takeMessage (s : State) (c : CoreId) (n : Nat) (m : Message) (rest : List Message) : State :=
  (s.setCore c { s.core c with msgq := rest, tookMsg := true }).startRecord c n (m.record c)

/-- A ready record is taken. -/
def State.takeReady (s : State) (c : CoreId) (n : Nat) (r : Record) : State :=
  let k := s.core c
  (s.setCore c { k with ready := dropRecord r k.ready, tookMsg := false, served := r.lid :: k.served.filter (· != r.lid) }).startRecord c n r

/-- NF, RMODE and SEED of a context on a hall seat: as it left them there, or as at its creation (R44, R45). -/
def State.hallFp (s : State) (c n ctx : Nat) : BitVec 6 × BitVec 3 × Word :=
  ((s.context ctx).bind (fun x => assocGet x.hallSeats (c, n))).getD (0, 0, initialSeed c n)

/-- A thread that was taken off a seat goes on, in this seat's service under its HVEC, and its context is resumed on the cores that were
saved then (R396); a deferred trap that came meanwhile traps it (R405). -/
def State.resumeThread (s : State) (c : CoreId) (n : Nat) (h : HallThread) (k : Seat) : State :=
  let t := s.seat c n
  let hall : HallRegs := { k.hall with hvec := t.hall.hvec }
  let s := s.setSeat c n { k with hall := hall, hallSnap := hall, resumeAt := s.cycle + 8, lastIssue := t.lastIssue,
                                  lastClass := t.lastClass }
  let s := if h.saved = [] then s else s.loadCores h.ctx c 255 h.saved
  match k.trap with
  | some d => s.trapSeat c n d.cause d.arg true false d.ia d.cpc c
  | none => s

/-- A hall thread takes a seat: a new one starts at the seat's HVEC, one that a counter has released with its record, and one that was
taken off a seat goes on; HCTX names its context (DEDUCED log 35). -/
def State.startThread (s : State) (c : CoreId) (n : Nat) (h : HallThread) : State :=
  let t := s.seat c n
  let go (x : HallThread) : HallThread :=
    { x with ready := false, record := none, kept := none, saved := [], place := some (c, n), since := s.cycle }
  let s : State := { s with runQueue := mapFirst (fun x => x.cid == h.cid) go s.runQueue }
  match h.kept with
  | some k => s.resumeThread c n h k
  | none =>
    let fp := s.hallFp c n h.ctx
    let regs : Regs := { t.regs with nf := fp.1, rmode := fp.2.1, seed := fp.2.2 }
    let s := s.setSeat c n { t with regs := regs, hall := { t.hall with hctx := BitVec.ofNat 16 h.ctx } }
    s.startRecord c n (h.record.getD { Record.zero with w0 := t.hall.hvec.setWidth 64, cid := h.cid })

/-- A pull leaves for the nearest larder (R201). -/
def State.sendPull (s : State) (c : CoreId) : Option State :=
  let k := s.core c
  if isHall c || k.pulling || s.pullOrder c == [] then none
  else some ((s.setCore c { k with pulling := true }).send 300 c c 0 0 0 0 0 0 (.pull (nearestLarder c)))

/-- SEAT_TAKE_WORK (R201, R202, R392): a free seat takes the first entry there is; with none, its core sends one pull. -/
def execSeatTakeWork (c k : Nat) (s : State) : Host.Outcome State Fault Refusal :=
  event s (
    if !(coreExists c && seatExists k && s.mayTake c k) || (s.transferAt c).isSome then none
    else
      let core := s.core c
      let thread := if isHall c then s.nextThread else none
      let ready := (s.readyFor c k).filter (fun r => !thread.any (fun h => h.prio < s.recordClass r))
      match core.msgq, ready with
      | m :: rest, some r => if core.tookMsg then some (s.takeReady c k r) else some (s.takeMessage c k m rest)
      | m :: rest, none => some (s.takeMessage c k m rest)
      | [], some r => some (s.takeReady c k r)
      | [], none =>
        match s.workFor c k with
        | some r => some ((s.setCore c { core with work := dropRecord r core.work }).startRecord c k r)
        | none =>
          match thread with
          | some h => some (s.startThread c k h)
          | none => s.sendPull c)

end Sys2Proof.Machine
end

