-- ==== Sys2Proof/Machine/Commit.lean ====
section
/-!
DEFINITION. The commit of a chunk: its place in the commit order, the drain, the held effects, and what becomes of the seat
(R174, R175, R177, R178, R184, R196 to R200, R206, R249, R267 to R280, R350, R385 to R389, R405).
-/
namespace Sys2Proof.Machine

/-! ### What a commit waits for (R198 step 3) -/

/-- No pop of a ring by another chunk that is uncommitted comes before one of the chunk's own (R174). -/
def Core.firstPopper (k : Core) (n : Nat) : Bool :=
  (k.seat n).undo.pops.all (fun p =>
    ((((k.popOrder.filter (·.1 == p.1)).map (·.2)).reverse.dropWhile (· != n)).all (· == n)))

/-- A buffered store reaches an accumulator tile that another chunk holds (R178). -/
def State.tilesFree (s : State) (c n : Nat) (t : Seat) : Bool :=
  let home := seatHome c t
  let h := s.core home
  t.wbuf.all (fun w =>
    !(0x90000 ≤ w.1 && w.1 < 0xA0000) ||
      !h.tileHolds.any (fun x => x.1 == (w.1 - 0x90000) / 0x1000 && !(home == c && x.2 == n)))

/-- The lines that a drain writes with data or bits (R276). -/
def Seat.drainLines (t : Seat) : List Nat :=
  (t.wbuf.map (fun (w : Host.Cell) => w.1 / 64) ++ t.fe.flatMap (fun (f : FeChange) => linesOf f.lo (8 * f.words))).eraseDups

/-- The filter bits of a drain's lines. -/
def Seat.drainBits (t : Seat) : Vec := setBits 0 (t.drainLines.map (fun l => filterBit (64 * l)))

/-- A filter has one of the bits set. -/
def filterHit (f : Option Vec) (bits : Vec) : Bool :=
  match f with
  | some v => v &&& bits != 0
  | none => false

/-- The chunk that holds the home core's conflict priority is not one that the drain would hit (R277). -/
def State.priorityAllows (s : State) (c n : Nat) (t : Seat) : Bool :=
  match (s.core (seatHome c t)).priority with
  | some p => p == (c, n) || !filterHit (s.seat p.1 p.2).filter t.drainBits
  | none => true

/-- The chunk wrote the last injection word: a store that covers 0xA_0078 (R240, R244). -/
def Seat.injects (t : Seat) : Bool := t.wbuf.any (fun w => w.1 == 0xA0078)

/-- An effect of the operand ring unit (R184). -/
def Held.isRing : Held → Bool
  | .ringConfig .. => true
  | .ringPublish .. => true
  | .ringReset _ => true
  | .scaleLink .. => true
  | _ => false

/-- An operation on a counter. -/
def Held.isCounter : Held → Bool
  | .counter .. => true
  | .lsamo _ _ onCounter .. => onCounter
  | _ => false

/-- The chunk arms a counter at its end (R200). -/
def Seat.arms (t : Seat) : Bool := match t.boundary with | some (.waitc ..) => true | _ => false

/-- Another chunk of the core that has its place still has effects, or an arm, to issue on this core's rings (R184) or on the path
(R249, R279). -/
def Core.unitsFree (k : Core) (n : Nat) : Bool :=
  let t := k.seat n
  (t.held.all (fun h => !h.body.isRing && !h.body.isPath) && !t.arms) ||
    (List.range 4).all (fun m => m == n || !(k.seat m).granted || ((k.seat m).held == [] && !(k.seat m).arms))

/-- What arrived before at the core's message unit has been taken before a commit holds the unit for counters of its own core (R229,
R249). -/
def State.unitClear (s : State) (c n : Nat) : Bool :=
  let t := s.seat c n
  !t.held.any (fun h => h.body.isCounter && h.body.unitAt c (seatHome c t) == 1) || s.ownTurn c 1

/-- The homes whose configure intakes a chunk's configures name. -/
def Seat.intakes (t : Seat) : List CoreId :=
  t.held.filterMap (fun h => match h.body with | .group home op => if op.configures then some home else none | _ => none)

/-- No chunk between its grant and its effects holds a configure intake that the chunk names (R350). -/
def State.intakeFree (s : State) (c n : Nat) : Bool :=
  let mine := (s.seat c n).intakes
  mine == [] || !s.cores.any (fun p => (List.range 4).any (fun m =>
    !(p.1 == c && m == n) && (p.2.seat m).granted && (p.2.seat m).intakes.any mine.contains))

/-- The order of grants within a cc: the die, then compute cores, then hall cores (R272) (DEDUCED log 68). -/
def grantKey (c : CoreId) : Nat := coreDie c * 4096 + c

/-- A task's chunk may take its place: the task is in place, or comes to be (R385).  A finished one commits apart (R387). -/
def State.taskMay (s : State) (t : Seat) : Bool :=
  match t.task with
  | none => true
  | some x =>
    match s.launch t.lid with
    | some l => s.meetsPlace l x
    | none => x.inPlace || !x.finished

/-- Everything but a task's turn that a chunk's place waits for (R174, R177, R178, R198, R240, R269, R277). -/
def State.chunkReady (s : State) (c n : Nat) : Bool :=
  let k := s.core c
  let t := k.seat n
  let home := seatHome c t
  t.st == .committing && !t.granted && t.grantAt ≤ s.cycle && !t.conflict && !t.overBudget s.cycle && !k.away &&
    (home == c || (s.core home).open') &&
    !k.matrix.any (·.seat == n) && k.firstPopper n && s.tilesFree c n t && k.unitsFree n && s.unitClear c n && s.intakeFree c n &&
    !s.openOps.any (fun o => o.cid == t.cid && o.fenced && !o.done) && s.priorityAllows c n t &&
    !(t.injects && s.submits home && s.resultOut home)

/-- The core's grant of this cc, in the order of R272: after every grant already made, and to its lowest ready seat. -/
def State.grantTurn (s : State) (c n : Nat) (ready : Nat → Bool) : Bool :=
  (s.place.1 < s.cycle || (s.place.1 == s.cycle && decide (s.place.2 < grantKey c))) && (List.range n).all (fun m => !ready m)

/-! ### Rings at a commit (R173, R184) -/

/-- The scale tiles of deliveries that are still to land in a ring take the numbers that their data tiles will have, now that the
ring counts from 0 again (R85, R173). -/
def Core.renumber (k : Core) (fill : List (Nat × Nat)) : Core :=
  let number (x : Nat × BitVec 16) : Nat × BitVec 16 :=
    match fill.findIdx? (·.1 == x.1) with
    | some i => (x.1, BitVec.ofNat 16 i)
    | none => x
  { k with rings := k.rings.map (fun r => { r with given := r.given.map number }) }

/-- A ring's descriptor loaded, with everything else clear; deliveries that are on their way stay reserved, and land from the new
tail on (DESIGN CHOICE log 113). -/
def Core.loadRing (k : Core) (g : BitVec 3) (w0 w1 : Word) : Core :=
  let old := k.ring g
  let k := k.renumber old.filling
  let new : Ring := { Ring.init with base := w0, shape := w1, cfg := true, eng := w1.bit 8, filling := old.filling, given := old.given }
  let unlink (r : Ring) : Ring := if r.lnk && r.sring == g then { r with lnk := false, sring := 0 } else r
  { k with rings := (k.rings.map unlink).set g.toFin new }

/-- A ring's state cleared, keeping the descriptor, cfg and the link.  Deliveries that are on their way stay reserved, and land from
the new tail on (DESIGN CHOICE log 113). -/
def Ring.clear (r : Ring) : Ring := { r with head := 0, tail := 0, hseq := 0, pubs := 0, ready := 0, held := 0, tags := [] }

/-- RRESET: the ring and its scale ring. -/
def Core.resetRing (k : Core) (g : BitVec 3) : Core :=
  let r := k.ring g
  let k := k.renumber r.filling
  let j : Core := { k with rings := k.rings.set g.toFin (k.ring g).clear }
  if r.lnk then { j with rings := j.rings.set r.sring.toFin (j.ring r.sring).clear } else j

/-- RPUB: n slots are published at the tail (R173). -/
def Ring.publishMore (r : Ring) (n : Nat) : Ring :=
  { r with ready := r.ready + n, pubs := r.pubs + n
           tags := r.tags.filter (fun t => !((List.range n).any (fun i => (r.tail + i) % r.slots == t.1)))
           tail := if r.slots = 0 then 0 else (r.tail + n) % r.slots }

/-- The slots that a chunk popped become free (R174). -/
def freePops (rings : Vector Ring 8) : List (BitVec 3 × Nat) → Vector Ring 8
  | [] => rings
  | (g, n) :: r =>
    let x := rings[g.toFin]
    freePops (rings.set g.toFin { x with held := x.held - n }) r

/-- SCLCFG's checks of a link (R184). -/
def Core.mayLink (k : Core) (g h : BitVec 3) : Bool :=
  let r := k.ring g
  let code := ptrFmt r.base
  let kt := if code = 0x15 then 128 else stepKt (ringElement code)
  g != h && (k.ring h).cfg && ptrFmt (k.ring h).base == 0x11 && r.cfg && r.blocked &&
    (k.ring h).slotBytes == 32 * (kt / 2 ^ ptrBlog r.base)

/-- A queued instruction names a ring. -/
def Core.queueNames (k : Core) (g : BitVec 3) : Bool := k.matrix.any (fun e => (memberRings e.op true).contains g)

/-! ### The checks of step 2 (R175, R184, R249, R350) -/

/-- What a check comes to: the commit waits, or the chunk aborts. -/
inductive Hold where
  | wait
  | trap (ia : BitVec 48) (cause : Nat) (arg : Word)
  deriving DecidableEq, Repr

/-- A ring effect applied to its core, or what it meets. -/
def Core.ringEffect (k : Core) (ia : BitVec 48) : Held → Except Hold Core
  | .ringConfig g w0 w1 => if k.queueNames g then .error .wait else .ok (k.loadRing g w0 w1)
  | .ringReset g => if k.queueNames g then .error .wait else .ok (k.resetRing g)
  | .ringPublish g count =>
    let r := k.ring g
    if count = 0 then .ok k
    else if !r.cfg || r.eng || r.slots < count.toNat then .error (.trap ia 0x11 (BitVec.ofNat 64 g.toNat))
    else if r.room < count.toNat then .error .wait
    else .ok { k with rings := k.rings.set g.toFin (r.publishMore count.toNat) }
  | .scaleLink g h true =>
    if k.mayLink g h then .ok { k with rings := k.rings.set g.toFin { k.ring g with lnk := true, sring := h } }
    else .error (.trap ia 0x09 2)
  | .scaleLink g h false =>
    let r := k.ring g
    if r.lnk && r.sring == h then .ok { k with rings := k.rings.set g.toFin { r with lnk := false, sring := 0 } } else .ok k
  | _ => .ok k

/-- One held effect tried on the state after the drain: the state it would leave, or what stands against it (R249, R463). -/
def State.tryEffect (s : State) (c : CoreId) (h : HeldEffect) : Except Hold State :=
  match h.body with
  | .counter addr core idx op =>
    if core ≠ c then .ok s
    else
      match s.counterOp core idx op c with
      | .ok t => .ok t
      | .error e => .error (.trap h.ia e addr)
  | .lsamo ptr core counter off op v w =>
    if core ≠ c then .ok s
    else
      let r := s.lsamoAt core c (s.coreVf c) ptr counter off op v w
      match r.2.2 with
      | some (cause, arg) => if cause = 0x11 then .ok r.1 else .error (.trap h.ia cause arg)
      | none => .ok r.1
  | .group home (.configure _) =>
    match s.reserveGroup home h.tag with
    | none => .error (.trap h.ia 0x24 (BitVec.ofNat 64 home))
    | some t => .ok t
  | b => if b.isRing then ((s.core c).ringEffect h.ia b).map (fun k => s.setCore c k) else .ok s

/-- The effects tried in program order. -/
def State.tryEffects (s : State) (c : CoreId) : List HeldEffect → Except Hold State
  | [] => .ok s
  | h :: r =>
    match s.tryEffect c h with
    | .ok t => t.tryEffects c r
    | .error e => .error e

/-- The ring whose published slots a buffered write meets (R175). -/
def Core.drainGuard (k : Core) (wbuf : List Host.Cell) : Option Nat := wbuf.findSome? (fun w => k.guardedBy w.1 1)

/-! ### The drain (R198 step 4, R274) -/

/-- Full bits of a range of words. -/
def Core.setBitsOf (k : Core) (f : FeChange) : Core :=
  let ws := (run 0 f.words).map (fun i => f.lo + 8 * i)
  { k with full := if f.full then ws.foldl (fun l a => insertSorted a l) k.full else k.full.filter (fun a => !ws.contains a) }

/-- The home core after the drain of a chunk of seat n of core c: bytes, bits, poison and reservations (R213, R274, R463). -/
def Core.drain (k : Core) (t : Seat) (c n : Nat) : Core :=
  let covered (p : Nat) : Bool := (run p 8).all (fun a => (assocGet t.wbuf a).isSome)
  let k : Core := { k with
    store := t.wbuf.foldr (fun w m => m.put w.1 w.2) k.store
    poison := k.poison.filter (fun p => !covered p)
    reserved := k.reserved.filter (fun r => !(r.2.1 == c && r.2.2 == n)) }
  t.fe.foldr (fun f k => k.setBitsOf f) k

/-- A window register's words written. -/
def Core.setWindow (k : Core) (w : BitVec 3) (w0 w1 : Word) : Core :=
  { k with windows := k.windows.set w.toFin { w0 := w0, w1 := w1 } }

/-- What takes place with the drain and is no held effect: windows of the home core, and tags freed at the larder (R214,
R313). -/
def State.commitOp (s : State) (c n : Nat) (t : Seat) (o : CommitOp) : State :=
  match o with
  | .window w w0 w1 => s.setCore (seatHome c t) ((s.core (seatHome c t)).setWindow w w0 w1)
  | .tagFree tag m => s.send 0 c c t.lid t.cid n 0 t.snap.pc t.snap.pc (.tagFree tag m)

/-- Every other uncommitted chunk homed on the core whose filter has a drained line's bit is in conflict (R276). -/
def State.markConflicts (s : State) (c n : Nat) (home : CoreId) (bits : Vec) : State :=
  let hit (d m : Nat) (t : Seat) : Seat :=
    if !(d == c && m == n) && seatHome d t == home && filterHit t.filter bits && !t.granted then { t with conflict := true } else t
  { s with cores := s.cores.map (fun p =>
      (p.1, { p.2 with seat0 := hit p.1 0 p.2.seat0, seat1 := hit p.1 1 p.2.seat1, seat2 := hit p.1 2 p.2.seat2,
                       seat3 := hit p.1 3 p.2.seat3 })) }

/-- The executing core once the chunk of a seat has drained: its popped slots are free and its tiles are held no more (R174,
R178). -/
def Core.releaseMatrix (k : Core) (n : Nat) : Core :=
  { k with rings := freePops k.rings (k.seat n).undo.pops, popOrder := k.popOrder.filter (·.2 != n),
           tileHolds := k.tileHolds.filter (·.2 != n) }

/-- The drain of a seat's chunk, with all that goes with it. -/
def State.drain (s : State) (c n : Nat) : State :=
  let t := s.seat c n
  let home := seatHome c t
  let s := s.setCore home (((s.core home).drain t c n).yieldPriority (c, n))
  let s := t.commitOps.foldl (fun s o => s.commitOp c n t o) s
  let s := s.markConflicts c n home t.drainBits
  let s := s.setCore c ((s.core c).releaseMatrix n)
  let s := if t.injects then s.submit home else s
  (s.wakeHomed home).wakeHomed c

/-- The checks of step 2: what holds the commit up, or nothing (DEDUCED log 57). -/
def State.commitCheck (s : State) (c n : Nat) : Except Hold Unit :=
  let t := s.seat c n
  match (s.core (seatHome c t)).drainGuard t.wbuf with
  | some g => .error (.trap t.regs.pc 0x11 (BitVec.ofNat 64 g))
  | none => ((s.drain c n).tryEffects c t.held).map (fun _ => ())

/-! ### Issuing the effects (R198 step 5, R278 to R280) -/

/-- An operation that has issued and is not complete. -/
def State.openOp (s : State) (tag cid : Nat) (place : Option CoreId) (remote path : Bool) (src : CoreId) : State :=
  { s with openOps := s.openOps ++ [{ tag := tag, cid := cid, place := place, remote := remote, path := path, src := src,
                                      done := false, fenced := false }] }

/-- Path effects of a continuation whose previous chunk committed on another core wait until that core's are acknowledged
(R280). -/
def State.pathHeld (s : State) (c : CoreId) (t : Seat) : Bool :=
  match t.lastCommit with
  | some d => d != c && s.openOps.any (fun o => o.cid == t.cid && o.path && o.src == d)
  | none => false

/-- No message from a core to itself is in flight; one that the core's triggers fired is of one class with a SEND of the core (R260). -/
def State.selfClear (s : State) (c : CoreId) : Bool :=
  !s.flights.any (fun g => g.src == c && g.dst == c && g.body.orderClass == 1)

/-- Where an engine command's destination lies, for a fence: a core, or none for HBM and the cellar; and whether it is another
package (R268). -/
def State.enginePlace (s : State) (c : CoreId) (cmd : EngineCmd) : Option CoreId × Bool :=
  match cmd.kind with
  | .xcopy _ =>
    if remotePackage cmd.c = s.pkgId.toNat then
      let e := s.exportEntry (remoteEntry cmd.c)
      (if ptrSpace e.w0 = 1 then some (chipCore (ptrAddr e.w0)) else none, false)
    else (none, true)
  | .store => (none, false)
  | .amo _ => (none, false)
  | .cas => (none, false)
  | _ => (some (destOwner s c cmd), false)

/-- The commands that have a place in the block queue of a core or are on their way to one. -/
def State.queueTaken (s : State) (c : CoreId) : Nat :=
  (s.core c).bq.length + (s.flights.filter (fun f => f.dst == c && (match f.body with | .bqEntry .. => true | _ => false))).length

/-- An item in flight as a commit sends it. -/
def State.launchItem (s : State) (delay : Nat) (c n : Nat) (t : Seat) (dst : CoreId) (tag : Nat) (ia : BitVec 48) (b : Body) :
    State :=
  s.send delay c dst t.lid t.cid n tag ia t.snap.pc b t.origin.isSome

/-- A path effect issues: it executes at once where its owner is the executing core, and waits at step 5 while it cannot, so
that it completes within its commit; otherwise it goes on its way (R278, R279).  What arrived before it at the core's message
unit is taken first, but for the counters that the commit holds (R229, R249). -/
def State.issuePath (s : State) (c n : Nat) (t : Seat) (tag : Nat) (h : HeldEffect) : Option State :=
  let dst := h.body.owner (seatHome c t)
  let x : Flight := { id := s.fresh, due := s.cycle, src := c, dst := dst, lid := t.lid, cid := t.cid, seat := n, tag := tag,
                      ia := h.ia, cpc := t.snap.pc, backoff := 64, mig := t.origin.isSome, body := .effect h.body }
  match h.body with
  | .send _ hid words =>
    if dst = c then
      if !(s.selfClear c && (s.core c).messageRoom) then none
      else
        let q := s.nextSeq c t.lid
        let k := q.1.core c
        some (q.1.setCore c { k with msgq := k.msgq ++ [{ hid := hid, words := words, src := c, seq := q.2, lid := t.lid, clip := none }] })
    else some ((s.openOp tag t.cid (some dst) false true c).sendMessage c dst t.lid t.cid n tag hid words h.ia t.snap.pc)
  | b =>
    if dst = c then
      if !b.isCounter && !s.ownTurn c 1 then none
      else some (s.pathEffect x b)
    else some ((s.openOp tag t.cid (some dst) false true c).launchItem (s.transit c dst) c n t dst tag h.ia (.effect b))

/-- An expert operation issues: a route to the routing unit, the others to the directory at the larder (R333, R335). -/
def State.issueExpert (s : State) (c n : Nat) (t : Seat) (tag : Nat) (h : HeldEffect) (home : CoreId) (op : ExpertOp) :
    Option State :=
  match op with
  | .route b row m =>
    if 16 ≤ (s.core c).routes.length then none
    else some (s.issueRoute c home t.lid t.cid n tag h.ia t.snap.pc t.origin.isSome b row m false)
  | _ => some ((s.openOp tag t.cid none false false c).launchItem 300 c n t c tag h.ia (.effect h.body))

/-- A spawn or a push to the work list that could not be made is a deferred format-fault (R379). -/
def State.spawned (s : State) (c n : Nat) (t : Seat) (tag : Nat) (ia : BitVec 48) (r : Option State) : State :=
  match r with
  | some u => u
  | none => (s.deferTrap 0 c c t.cid n t.lid 0x09 2 ia t.snap.pc t.origin.isSome).complete tag

/-- An effect reads the committed store of the chunk's home; a poisoned word there is a deferred trap, and the effect does
nothing more (R266, R463, DEDUCED log 115). -/
def State.effectReads (s : State) (c n : Nat) (t : Seat) (ia : BitVec 48) (a len : Nat) (go : State) : State :=
  match (s.core (seatHome c t)).poisonIn a len with
  | some p => s.deferTrap 0 c c t.cid n t.lid 0x29 (BitVec.ofNat 64 p) ia t.snap.pc t.origin.isSome
  | none => go

/-- The status of an operation that the hall's configuration interface answers (R415, R416). -/
def State.answer (s : State) (c n : Nat) (t : Seat) (tag code : Nat) : State :=
  s.launchItem 0 c n t c tag 0 (.deferred tag (BitVec.ofNat 64 (code * 2 ^ 48)))

/-- One held effect issues, or waits for room (R196, R217, R278, R318, R335). -/
def State.issueOne (s : State) (c n : Nat) (h : HeldEffect) : Option State :=
  let t := s.seat c n
  let home := seatHome c t
  let tag := if h.tag = 0 then s.fresh else h.tag
  let s : State := if h.tag = 0 then s.tick else s
  match h.body with
  | .engine cmd =>
    let p := s.enginePlace c cmd
    match cmd.kind with
    | .xcopy _ => some ((s.openOp tag t.cid p.1 p.2 false c).launchItem 0 c n t c tag h.ia (.stream cmd none t.place))
    | _ =>
      if 32 ≤ s.queueTaken c then none
      else some ((s.openOp tag t.cid p.1 p.2 false c).launchItem 0 c n t c tag h.ia (.bqEntry cmd none))
  | .tagBind tag' record =>
    (s.openOp tag t.cid (s.launch t.lid |>.map (fun l => routerOf l.rect (tagId tag'))) false false c).issueBind c t.lid t.cid n tag tag' record
  | .meet tag' operand =>
    if (s.core c).ifaceRoom then
      (s.openOp tag t.cid (s.launch t.lid |>.map (fun l => routerOf l.rect (tagId tag'))) false false c).issueMeet c t.lid t.cid n tag tag' operand
    else none
  | .expert _ op => s.issueExpert c n t tag h home op
  | .group issuer op =>
    let unit := op.unit issuer
    let q := s.numberFork c issuer t.lid op
    if unit = c || op.configures then
      if ((s.core unit).group op.slot).expiredBy s.cycle || s.preceded s.cycle (ownRank c) unit 2 then none
      else
        let r := q.1.groupTake c issuer t.lid tag q.2
        some (match r.2 with
          | some v => r.1.launchItem (8 + s.transit c unit) c n t c tag h.ia (.deferred tag v)
          | none => r.1)
    else some ((q.1.openOp tag t.cid (some unit) false false c).launchItem (s.transit c unit) c n t unit tag h.ia
      (.effect (.group issuer q.2)))
  | .spawn prio record key dst =>
    let u := s.openOp tag t.cid (if prio then none else some dst) false false c
    some (u.spawned c n t tag h.ia (u.spawnTask c t.lid t.cid n tag prio record key dst))
  | .workPush record =>
    let u := s.openOp tag t.cid none false false c
    some (u.spawned c n t tag h.ia (u.pushWork c t.lid tag record))
  | .queuePush qn addr =>
    let r := Record.ofWords (bytesToWords 8 ((s.core home).store.bytes addr 64)) 0
    some (s.effectReads c n t h.ia addr 64
      ((s.openOp tag t.cid none false false c).pushFlight c (nearestLarder c) (some qn) t.lid t.cid n tag r))
  | .raftersConfig op ty width rect => some (s.setCore home ((s.core home).configRafters op ty width rect))
  | .codebookLoad ptr =>
    let k := s.core home
    let l : CodebookLoad := { issued := tag, started := false, dueAt := 0, data := k.store.bytes (ptrAddr ptr) 2064 }
    some (s.effectReads c n t h.ia (ptrAddr ptr) 2064 (s.setCore home { k with cbPending := k.cbPending ++ [l] }).tick)
  | .tlbInv addr control => some ((s.openOp tag t.cid none false false c).invalidate tag addr control)
  | .ctxSave counter ctx rect => some (s.ctxSave c counter ctx rect)
  | .ctxLoad counter ctx rect => some (s.ctxLoad c counter ctx rect)
  | .lpMap b w => let r := s.lpMap b w; some (r.1.answer c n t tag r.2)
  | .vfcfg vf op d => let r := s.vfConfig vf op d; some (r.1.answer c n t tag r.2)
  | b =>
    if b.isRing then
      match (s.core c).ringEffect h.ia b with
      | .ok k => some (s.setCore c k)
      | .error .wait => none
      | .error _ => some s
    else if s.pathHeld c t then none
    else s.issuePath c n t tag h

/-- Effects issue in program order until one waits: the state, and the effects left. -/
def State.issueAll (s : State) (c n : Nat) : List HeldEffect → State × List HeldEffect
  | [] => (s, [])
  | h :: r =>
    match s.issueOne c n h with
    | some t => t.issueAll c n r
    | none => (s, h :: r)

/-- The chunk's effects issue as far as they can. -/
def State.issueHeld (s : State) (c n : Nat) : State :=
  let r := s.issueAll c n (s.seat c n).held
  r.1.setSeat c n { r.1.seat c n with held := r.2 }

/-! ### Tasks at a commit (R385 to R389) -/

/-- The seats of a launch's speculative tasks whose read signature shares a bit with a write signature (R389). -/
def State.overtaken (s : State) (c n lid : Nat) (w : Vec) : List (CoreId × Nat) :=
  s.cores.flatMap (fun p => ((List.range 4).filter (fun m =>
    let t := p.2.seat m
    !(p.1 == c && m == n) && t.lid == lid && t.st != .free && t.st != .lent &&
      (match t.task with | some x => !x.inPlace && (x.readSig &&& w) != 0 | none => false))).map (fun m => (p.1, m)))

/-- An aborted task waits for the effects of the committing one (R389). -/
def State.stallTask (s : State) (cid : Nat) (who : CoreId × Nat) : State :=
  let waited := match (s.seat who.1 who.2).rerun with | some l => l | none => []
  let s := s.abort who.1 who.2
  s.setSeat who.1 who.2 { s.seat who.1 who.2 with st := .stalled, rerun := some (cid :: waited) }

/-- The comparison at a task's commit (R389) (DEDUCED log 69). -/
def State.compareTask (s : State) (c n : Nat) : State :=
  let t := s.seat c n
  match t.task with
  | none => s
  | some x => (s.overtaken c n t.lid x.writeSig).foldl (fun s w => s.stallTask t.cid w) s

/-! ### The grant -/

/-- The group slots that a chunk's configures reserve at its grant, in program order (R350) (DEDUCED log 86). -/
def State.reserveGroups (s : State) (held : List HeldEffect) : State :=
  held.foldl (fun s h => match h.body with
    | .group home (.configure _) => (s.reserveGroup home h.tag).getD s
    | _ => s) s

/-- The round trip by which a migrated chunk's configures lengthen its commit (R350). -/
def State.configureTrip (s : State) (c home : CoreId) (held : List HeldEffect) : Nat :=
  if held.any (fun h => match h.body with | .group _ op => op.configures | _ => false) then s.roundTrip c home else 0

/-- The place is granted: the drain in this cc, the effects 4 cc later (R198, R272, R274). -/
def State.grant (s : State) (c n : Nat) : State :=
  let s : State := { s with place := (s.cycle, grantKey c) }
  let s := ((s.putInPlace c n).drain c n).compareTask c n
  let t := s.seat c n
  let s := s.reserveGroups t.held
  s.tick.setSeat c n
    { t with granted := true, place := s.fresh, grantAt := s.cycle + 4 + s.configureTrip c (seatHome c t) t.held,
             wbuf := [], wtotal := 0, fe := [],
             commitOps := [], filter := none, conflictRow := 0, undo := { pops := [], tiles := [] }, allocated := [], popped := [] }

/-! ### After the effects (R198, R200, R206, R269, R405) -/

/-- An operation lies in a fence's scope (R268, R288). -/
def OpenOp.inScope (o : OpenOp) (f : FenceSpec) (home : CoreId) : Bool :=
  match f.scope with
  | 0 => o.place == some home
  | 1 => o.place == some home
  | 2 => match o.place with | some p => rectHas f.rect p | none => false
  | 3 => match o.place with | some p => rectHas f.rect p | none => false
  | 4 => !o.remote
  | _ => true

/-- The commits after a release fence wait for the operations in its scope (R269). -/
def State.fence (s : State) (t : Seat) (home : CoreId) : State :=
  match t.boundary with
  | some (.fence f) =>
    if f.order = 0 then s
    else { s with openOps := s.openOps.map (fun (o : OpenOp) =>
             if o.cid == t.cid && o.inScope f home then { o with fenced := true } else o) }
  | _ => s

/-- The seat at the start of its next chunk (R195, R209). -/
def Seat.nextChunk (t : Seat) (c : CoreId) (cycle : Nat) : Seat :=
  { t with
    st := .running, snap := t.regs, results := [], deferred := t.deferred.map (fun d => { d with old := true }), held := [],
    count := 0, started := false, boundary := none, granted := false, waitFull := none, filter := none, conflict := false,
    conflictRow := 0, hallSnap := t.hall, hallUndo := [], lastCommit := some c, resumeAt := cycle }

/-- The seat goes on: with its next chunk, back to the lent seat, or trapped for a pending deferred trap (R198, R206, R405). -/
def State.goOn (s : State) (c n : Nat) : State :=
  let t := s.seat c n
  let s := s.fence t (seatHome c t)
  let u := t.nextChunk c s.cycle
  match t.origin with
  | some (d, m) =>
    let f := u.freed
    (s.setSeat c n f).send (s.transit c d + 82) c d t.lid t.cid m 0 0 0
      (.transferBack { regs := u.regs.shipped, record := u.record, cid := u.cid, deferred := u.deferred, core := d, seat := m, target := c,
                       lastCommit := some c, task := u.task, retired := false, trap := u.trap, more := u.more })
  | none =>
    let s := s.setSeat c n u
    match u.trap with
    | some d => s.trapSeat c n d.cause d.arg true false d.ia d.cpc c
    | none => s.moveThread c n

/-- What a retired continuation's refusals still need is kept while its effects are out (R405). -/
def State.noteEnd (s : State) (t : Seat) : State :=
  let out (cid : Nat) : Bool :=
    s.openOps.any (fun o => o.cid == cid) || s.flights.any (fun f => f.cid == cid) ||
      s.cores.any (fun p => p.2.bq.any (fun e => e.cid == cid) || p.2.routes.any (fun r => r.cid == cid)) ||
      s.outgoing.any (fun o => o.cid == cid)
  { s with ended := (s.ended ++ [(t.cid, t.record)]).filter (fun e => out e.1) }

/-- A deferred trap that is pending where its continuation retires goes to the hall with ticket 0 (R405) (DEDUCED log 84). -/
def State.endTrap (s : State) (c n : Nat) (t : Seat) : State :=
  match t.trap with
  | none => s
  | some d =>
    let ctx := s.ctxOf c t
    s.postTrap ctx (trapWords ctx (if isHall c then 0 else t.lid) 0 t.more d.cause true t.origin.isSome n d.ia c d.cpc d.arg
      t.record.w0 t.record.w1 (if isHall c then 0 else t.record.x7))

/-- HEND (R112, R206, R224): the continuation retires, a clip handler's slot can be published, and the seat frees. -/
def State.retireSeat (s : State) (c n : Nat) : State :=
  let t := s.seat c n
  let home := seatHome c t
  let s := match t.record.clip with
    | some (_, id) => s.setCore home ((s.core home).endClip id)
    | none => s
  let s := ((s.noteEnd t).endTrap c n t).shipEnd c t
  (s.setSeat c n t.freed).leaveHall c n

/-- The record that a WAITC writes (R200): the PC after it and x1 to x5. -/
def Seat.suspendRecord (t : Seat) : Record :=
  { t.record with
    w0 := BitVec.ofNat 64 (t.record.w0.toNat / 2 ^ 48 * 2 ^ 48 + t.regs.pc.toNat)
    a1 := t.x 1, a2 := t.x 2, a3 := t.x 3, a4 := t.x 4, a5 := t.x 5, cid := t.cid }

/-- WAITC (R200, R252, R362): the record parks at the counter's owner, or goes to the hall with a pending deferred trap; the seat
frees.  The arm waits like any path effect, and at its own core for its turn, so that it completes within its commit (R229, R278).
-/
def State.suspendSeat (s : State) (c n : Nat) (addr : Word) (owner : CoreId) (idx : BitVec 8) (thr : Word)
    (ia : BitVec 48) : Option State :=
  let t := s.seat c n
  if s.pathHeld c t then none
  else
    let r : Record := { t.suspendRecord with last := some c }
    let free (s : State) : State := ((s.shipEnd c t).setSeat c n t.freed).leaveHall c n
    match t.trap with
    | some d => some (free (s.recordToHall r c n d.cause d.arg true d.ia d.cpc t.origin.isSome t.more))
    | none =>
      let tag := s.fresh
      let s := s.tick
      let own := owner == c
      if own && !(s.ownTurn c 1 && !(s.core c).counterHeld c idx) then none
      else
      let x : Flight := { id := s.fresh, due := s.cycle, src := c, dst := owner, lid := t.lid, cid := t.cid, seat := n, tag := tag,
                          ia := ia, cpc := t.snap.pc, backoff := 64, mig := t.origin.isSome, body := .waitc addr idx thr r }
      let s := free s
      some (if own then s.parkWaiter x addr idx thr r
        else (s.openOp tag t.cid (some owner) false true c).launchItem (s.transit c owner) c n t owner tag ia (.waitc addr idx thr r))

/-- Step 5, 4 cc after the grant, and its end: the effects issue as far as they can, and the seat leaves the committing state
when none is left (R198, R278). -/
def State.finishCommit (s : State) (c n : Nat) : Option State :=
  let u := s.issueHeld c n
  let before := (s.seat c n).held.length
  let t := u.seat c n
  if t.held ≠ [] then (if t.held.length = before then none else some u)
  else
    match t.boundary with
    | some .hend => some (u.retireSeat c n)
    | some (.waitc addr core idx thr ia) =>
      (u.suspendSeat c n addr core idx thr ia).orElse (fun _ => if before = 0 then none else some u)
    | _ => some (u.goOn c n)

/-! ### Events -/

/-- Nothing of step 2 stands against a chunk's place: what waits or aborts takes no grant of its core (R272). -/
def State.checked (s : State) (c n : Nat) : Bool := match s.commitCheck c n with | .ok _ => true | .error _ => false

/-- A chunk takes its place, waits, or aborts at its checks. -/
def State.tryGrant (s : State) (c n : Nat) : Option State :=
  match s.commitCheck c n with
  | .error .wait => none
  | .error (.trap ia cause arg) => some (s.fault c n cause arg ia)
  | .ok _ => some (s.grant c n)

/-- A finished task may commit: its key is at most the working horizon, and every smaller key has committed (R387). -/
def State.finishedMay (s : State) (t : Seat) : Bool :=
  match t.task, s.launch t.lid with
  | some x, some l =>
    x.finished && !x.inPlace && s.smallerCommitted t.lid x.key &&
      (match l.workingHorizon with | some h => !keyLt h x.key | none => false)
  | _, _ => false

/-- COMMIT_GRANT (R198, R272): the grant with the drain, and, 4 cc later, the end of the commit. -/
def execCommitGrant (c k : Nat) (s : State) : Host.Outcome State Fault Refusal :=
  event s (
    let t := s.seat c k
    let ready (m : Nat) : Bool := s.chunkReady c m && (s.taskMay (s.seat c m) || s.finishedMay (s.seat c m)) && s.checked c m
    if !(coreExists c && seatExists k && t.st == .committing) then none
    else if t.granted then (if s.cycle < t.grantAt || t.overBudget s.cycle then none else s.finishCommit c k)
    else if s.chunkReady c k && s.taskMay t && s.grantTurn c k ready then s.tryGrant c k
    else none)

/-- TASK_COMMIT (R387, R389). -/
def execTaskCommit (c k : Nat) (s : State) : Host.Outcome State Fault Refusal :=
  event s (
    let ready (m : Nat) : Bool := s.chunkReady c m && (s.taskMay (s.seat c m) || s.finishedMay (s.seat c m)) && s.checked c m
    if coreExists c && seatExists k && s.chunkReady c k && s.finishedMay (s.seat c k) && s.grantTurn c k ready then s.tryGrant c k
    else none)

/-- Every held effect of the continuations has completed, and none of them is between its grant and its effects (R389). -/
def State.effectsDone (s : State) (cids : List Nat) : Bool :=
  !s.openOps.any (fun o => cids.contains o.cid && !o.done) &&
    !s.cores.any (fun p => (List.range 4).any (fun n => (p.2.seat n).granted && cids.contains (p.2.seat n).cid))

/-- TASK_RERUN (R389): the aborted task runs again from its start. -/
def execTaskRerun (c k : Nat) (s : State) : Host.Outcome State Fault Refusal :=
  event s (
    let t := s.seat c k
    match t.rerun with
    | some l => if t.st == .stalled && s.effectsDone l then some (s.setSeat c k { t with st := .running, rerun := none }) else none
    | none => none)

end Sys2Proof.Machine
end

