-- ==== Sys2Proof/Machine/Control.lean ====
section
/-!
DEFINITION. Group 0: control transfers, chunk boundaries, traps and the return from the service (R100 to R114), and SEL's
neighbours stand in Integer.
-/
namespace Sys2Proof.Machine

/-- The outcome of every NOP: nothing changes but the PC (R102). -/
def nothing (sw : Bool) (s : State) : Host.Outcome State Fault Refusal := settle sw s (.ok s)

/-- NOP (R102). -/
def execNop (sw : Bool) (s : State) : Host.Outcome State Fault Refusal := nothing sw s

/-- NOP with a one-halfword tail that is ignored (R102). -/
def execNopT1 (sw : Bool) (_x : BitVec 16) (s : State) : Host.Outcome State Fault Refusal := nothing sw s

/-- NOP with a two-halfword tail that is ignored (R102). -/
def execNopT2 (sw : Bool) (_x : BitVec 32) (s : State) : Host.Outcome State Fault Refusal := nothing sw s

/-- NOP with a four-halfword tail that is ignored (R102). -/
def execNopT3 (sw : Bool) (_x : BitVec 64) (s : State) : Host.Outcome State Fault Refusal := nothing sw s

/-- The checks of a taken transfer's target (R101): within 48 bits, its line fetched, and a head of it (R23); a line that has
no heads because its fetch failed gives the line's address (R426). -/
def checkTarget (s : State) (t : Int) : Except Stop (BitVec 48) :=
  if t < 0 || 2 ^ 48 ≤ t then .error (.trap 0x04 (BitVec.ofInt 64 t))
  else
    match s.here.line t.toNat with
    | none => .error (.line t.toNat)
    | some bs =>
      if s.here.isHead t.toNat then .ok (BitVec.ofInt 48 t)
      else .error (.trap 0x04 (if bs = [] then BitVec.ofNat 64 (t.toNat / 64 * 64) else BitVec.ofInt 64 t))

/-- The issuing seat issues the target of a taken transfer no earlier than 2 cc after it (R100) (DEDUCED log 75). -/
def State.taken (s : State) : State := s.setMe { s.me with resumeAt := s.cycle + 2 }

/-- A transfer: the body gives the state and the target, or none for `next(a)`. -/
def transfer (sw : Bool) (s : State) (body : Except Stop (State × Option Int)) : Host.Outcome State Fault Refusal :=
  match body with
  | .error e => settle sw s (.error e)
  | .ok (t, none) => settle sw s (.ok t)
  | .ok (t, some target) =>
    match checkTarget s target with
    | .error e => settle sw s (.error e)
    | .ok pc => settleTo sw (fun _ => pc) s (.ok t.taken)

/-- An instruction's own address plus a signed offset. -/
def relative (s : State) (off : Int) : Int := (s.me.regs.pc.toNat : Int) + off

/-- J (R103). -/
def execJ (sw : Bool) (off : BitVec 32) (s : State) : Host.Outcome State Fault Refusal :=
  transfer sw s (.ok (s, some (relative s off.toInt)))

/-- The link of JAL: a BYTES pointer into space 2 at `next(a)` (R104). -/
def linkValue (s : State) : Word := 0x0020000000000000 ||| (nextAddr s.here s.me.regs.pc).setWidth 64

/-- JAL (R103, R104). -/
def execJal (sw : Bool) (l : BitVec 6) (off : BitVec 32) (s : State) : Host.Outcome State Fault Refusal :=
  transfer sw s (.ok (s.putX l (linkValue s), some (relative s off.toInt)))

/-- JR (R103, R105): bits 63:48 of the register are ignored. -/
def execJr (sw : Bool) (t : BitVec 6) (s : State) : Host.Outcome State Fault Refusal :=
  transfer sw s (.ok (s, some ((s.x t).field 0 48)))

/-- A compare-and-branch (R106): the offset field counts halfwords, bit 0 of the byte offset being 0 (R107). -/
def branch (sw : Bool) (cond : Word → Word → Bool) (a b : BitVec 6) (off : BitVec 25) (s : State) :
    Host.Outcome State Fault Refusal :=
  transfer sw s (.ok (s, if cond (s.x a) (s.x b) then some (relative s (2 * off.toInt)) else none))

/-- BEQ (R106). -/
def execBeq (sw : Bool) (a b : BitVec 6) (off : BitVec 25) (s : State) : Host.Outcome State Fault Refusal :=
  branch sw (fun u v => u == v) a b off s

/-- BNE (R106). -/
def execBne (sw : Bool) (a b : BitVec 6) (off : BitVec 25) (s : State) : Host.Outcome State Fault Refusal :=
  branch sw (fun u v => u != v) a b off s

/-- BLT (R106). -/
def execBlt (sw : Bool) (a b : BitVec 6) (off : BitVec 25) (s : State) : Host.Outcome State Fault Refusal :=
  branch sw (fun u v => u.slt v) a b off s

/-- BGE (R106). -/
def execBge (sw : Bool) (a b : BitVec 6) (off : BitVec 25) (s : State) : Host.Outcome State Fault Refusal :=
  branch sw (fun u v => !u.slt v) a b off s

/-- BLTN (R106). -/
def execBltn (sw : Bool) (a b : BitVec 6) (off : BitVec 25) (s : State) : Host.Outcome State Fault Refusal :=
  branch sw (fun u v => u.ult v) a b off s

/-- BGEN (R106). -/
def execBgen (sw : Bool) (a b : BitVec 6) (off : BitVec 25) (s : State) : Host.Outcome State Fault Refusal :=
  branch sw (fun u v => !u.ult v) a b off s

/-- LOOP (R108, R109): the decremented count is an immediate result; 0 falls through. -/
def execLoop (sw : Bool) (c : BitVec 6) (o : BitVec 16) (s : State) : Host.Outcome State Fault Refusal :=
  transfer sw s (.ok (s.putX c (s.x c - 1), if s.x c - 1 = 0 then none else some (relative s (-(o.toNat : Int)))))

/-- End the issuing seat's chunk after this instruction: it parks with the boundary pending (R36, R195). -/
def endChunk (sw : Bool) (b : Boundary) (s : State) : Host.Outcome State Fault Refusal :=
  settle (sw || true) s (.ok (s.setMe { s.me with boundary := some b }))

/-- HEND (R112). -/
def execHend (sw : Bool) (s : State) : Host.Outcome State Fault Refusal := endChunk sw .hend s

/-- CHUNK (R111). -/
def execChunk (sw : Bool) (s : State) : Host.Outcome State Fault Refusal := endChunk sw .chunk s

/-- The fault of TRAP: code × 2^16 + argument (R113). -/
def trapWith (sw : Bool) (code : BitVec 6) (arg : Nat) (s : State) : Host.Outcome State Fault Refusal :=
  settle sw s (.error (.trap 0x19 (BitVec.ofNat 64 (code.toNat * 2 ^ 16 + arg))))

/-- TRAP code (R113). -/
def execTrap (sw : Bool) (code : BitVec 6) (s : State) : Host.Outcome State Fault Refusal := trapWith sw code 0 s

/-- TRAP code, arg (R113). -/
def execTrapArg (sw : Bool) (code : BitVec 6) (arg : BitVec 16) (s : State) : Host.Outcome State Fault Refusal :=
  trapWith sw code arg.toNat s

/-- SYSRET (R114, R398): privileged on a compute core; on a hall core the thread goes on at HEPC, checked under R101, and no
other register changes. -/
def execSysret (sw : Bool) (s : State) : Host.Outcome State Fault Refusal :=
  match needsHall s (headOfInstr (.sysret sw)) with
  | .error e => settle sw s (.error e)
  | .ok _ =>
    match checkTarget s (s.me.hall.hepc.toNat : Int) with
    | .error e => settle sw s (.error e)
    | .ok pc => settleTo sw (fun _ => pc) s (.ok (s.setMe s.me.serviceReturn).taken)

end Sys2Proof.Machine
end

