-- ==== Sys2Proof/Machine/Service.lean ====
section
/-!
DEFINITION. The resident service: contexts, maps, images, launches, waits, counters and telemetry (R325, R373 to R376, R393,
R396, R437 to R439, R445, R446).
-/
namespace Sys2Proof.Machine

/-! ### Requests and replies (R445) -/

/-- The service's reply to a request. -/
def State.reply (s : State) (tag status : Nat) (body : List Word := []) : State :=
  { s with replies := s.replies ++ [{ tag := tag, status := status, body := body }] }

/-- A request wakes an idle package, and is served 200,000 cc later then (R483). -/
def State.awaken (s : State) : State :=
  if s.idle then { s with idle := false, cycle := s.cycle + 200000, requestAt := s.cycle + 200000 }
  else { s with requestAt := s.cycle }

/-- The requester of a request, by its tag (DESIGN CHOICE log 40). -/
def requesterOf (tag : Nat) : Nat := tag / 2 ^ 32

/-- The code, the tag and, where it names one, the context of a request (R445, R473). -/
def requestFields : Instr → Option (Nat × Nat × Option Nat)
  | .createContext tag .. => some (1, tag, some 0)
  | .destroyContext tag ctx => some (2, tag, some ctx)
  | .map tag ctx .. => some (3, tag, some ctx)
  | .loadImage tag ctx .. => some (4, tag, some ctx)
  | .launch tag ctx _ => some (5, tag, some ctx)
  | .wait tag ctx .. => some (6, tag, some ctx)
  | .readCounters tag ctx _ => some (7, tag, some ctx)
  | .debugAttach tag .. => some (8, tag, none)
  | .quickHalt tag .. => some (8, tag, none)
  | .settledHalt tag .. => some (8, tag, none)
  | .debugRead tag .. => some (8, tag, none)
  | .debugWrite tag .. => some (8, tag, none)
  | .debugResume tag .. => some (8, tag, none)
  | .debugDetach tag _ => some (8, tag, none)
  | .debugTrace tag .. => some (8, tag, none)
  | .telemetry tag ctx _ => some (9, tag, some ctx)
  | _ => none

/-- The 32-byte header of a message whose body is `length` bytes stands for a request (R445). -/
def headerOk (h : List Byte) (length requester : Nat) (e : Instr) : Bool :=
  let n (lo k : Nat) : Nat := bytesToNat ((h.drop lo).take k)
  match requestFields e with
  | some (code, tag, ctx) =>
    h.length == 32 && n 0 2 == code && n 2 2 == 0 && tag == requester * 2 ^ 32 + n 4 4 && ctx.all (· == n 8 2) && n 10 2 == length &&
      length ≤ 4096 && n 12 20 == 0
  | none => false

/-- The context of a request, of its own requester. -/
def State.ownContext (s : State) (tag ctx : Nat) : Option Context :=
  (s.context ctx).bind (fun x => if x.requester == requesterOf tag then some x else none)

/-- A request about a context: refused where there is no such context of the requester. -/
def onContext (s : State) (tag ctx : Nat) (f : State → Context → State) : Host.Outcome State Fault Refusal :=
  let s := s.awaken
  .next (match s.ownContext tag ctx with
    | some x => f s x
    | none => s.reply tag 0x0501)

/-- The core of a context: its saved state, or the core itself where it holds the context. -/
def State.coreOf (s : State) (ctx : Nat) (c : CoreId) : Option Core :=
  match (s.context ctx).bind (fun x => assocGet x.saved c) with
  | some k => some k
  | none => if (s.core c).ctx = ctx then some (s.core c) else none

/-- The context's core with f applied, where there is one. -/
def State.modCoreOf (s : State) (ctx : Nat) (c : CoreId) (f : Core → Core) : State :=
  match (s.context ctx).bind (fun x => assocGet x.saved c) with
  | some k => s.modContext ctx (fun x => { x with saved := assocSet x.saved c (f k) })
  | none => if (s.core c).ctx = ctx then s.setCore c (f (s.core c)) else s

/-! ### Contexts -/

/-- CREATE_CONTEXT (R396, R445): a context with its hall thread, in the virtual function and the class of the request (DESIGN CHOICE
DESIGN CHOICE log 73). -/
def execCreateContext (tag vf prio _save : Nat) (s : State) : Host.Outcome State Fault Refusal :=
  let s := s.awaken
  .next (
    if 7 < prio || !s.vfs.any (·.vf == vf) then s.reply tag 0x0502
    else if 65535 ≤ s.contexts.length then s.reply tag 0x0503
    else
      let id := freeHandle (s.contexts.map (·.id)) s.fresh 2
      let x : Context :=
        { id := id, vf := vf, prio := prio, requester := requesterOf tag, budget := 0, save := 0, trq := 0, ringNext := 0,
          root := 0, nextRoot := none, directory := [], saved := [], pausedGroups := [], hallSeats := [] }
      let h : HallThread := { ctx := id, prio := prio, cid := s.fresh, ready := true, record := none, kept := none, saved := [],
                              place := none,
                              since := s.cycle }
      ({ s with contexts := s.contexts ++ [x], runQueue := s.runQueue ++ [h], fresh := s.fresh + 1 } : State).reply tag 0
        [BitVec.ofNat 64 id])

/-- A core whose context is gone is as at the creation of the next one; what counts across contexts stays (R44, R483). -/
def Core.emptied (k : Core) (c : CoreId) : Core :=
  { Core.init c with droops := k.droops, power := k.power, clockStep := k.clockStep, lines := [] }

/-- A translation cache without a context's entries. -/
def dropCtx (ctx : Nat) (l : List TlbEntry) : List TlbEntry := l.filter (·.ctx != ctx)

/-- A context ends: its launches, cores, thread, tickets, walks, translations and export entries (R438, R445). -/
def State.endContext (s : State) (ctx : Nat) : State :=
  let s := (s.launches.filter (·.ctx == ctx)).foldl (fun s l => s.endLaunch l.lid) s
  let mine (h : HallThread) : Bool := h.ctx == ctx
  let s := (s.runQueue.filter mine).foldl (fun s h =>
    match h.place with
    | some p => (s.abortOne p.1 p.2).setSeat p.1 p.2 ((s.abortOne p.1 p.2).seat p.1 p.2).freed
    | none => s) s
  let close (e : TableEntry) : TableEntry :=
    if e.owner = ctx then { e with w1 := BitVec.ofNat 64 (e.w1.toNat / 2 ^ 32 * 2 ^ 32) } else e
  { s with
    cores := s.cores.map (fun p =>
      (p.1, if p.2.ctx = ctx then p.2.emptied p.1 else { p.2 with tlb := dropCtx ctx p.2.tlb }))
    contexts := s.contexts.filter (·.id != ctx)
    runQueue := s.runQueue.filter (fun h => !mine h)
    tickets := s.tickets.filter (·.ctx != ctx)
    walks := s.walks.filter (·.ctx != ctx)
    rounds := s.rounds.filter (·.ctx != ctx)
    dieTlbs := s.dieTlbs.map (fun (d : DieTlb) => { d with entries := dropCtx ctx d.entries, pinned := dropCtx ctx d.pinned })
    exports := s.exports.map (fun e => (e.1, close e.2))
    sessions := s.sessions.filter (·.ctx != ctx) }

/-- DESTROY_CONTEXT (R438, R445) (DEDUCED log 70). -/
def execDestroyContext (tag ctx : Nat) (s : State) : Host.Outcome State Fault Refusal :=
  onContext s tag ctx (fun s _ => (s.endContext ctx).reply tag 0)

/-! ### Maps (R437, R439, R446) -/

/-- Word j of a 32-byte entry. -/
def entryWord (e : BitVec 256) (j : Nat) : Word := e.extractLsb' (64 * j) 64

/-- The four words of an entry. -/
def tableEntry (e : BitVec 256) : TableEntry :=
  { w0 := entryWord e 0, w1 := entryWord e 1, w2 := entryWord e 2, w3 := entryWord e 3 }

/-- An export entry's fields are in range (R437); its context comes from the request's header. -/
def TableEntry.exportOk (e : TableEntry) : Bool :=
  let at' := ptrAddr e.w0
  ptrFmt e.w0 == 0 && ptrBlog e.w0 == 0 &&
    ((ptrSpace e.w0 == 1 && (chipRegion at' == 0 || chipRegion at' == 2) && chipCore at' == e.w2.field 0 11) ||
      ptrSpace e.w0 == 2) &&
    e.w1.field 56 8 == 0 && e.w2.field 24 40 == 0 && e.w2.field 11 6 == 0 && e.w2.field 17 7 ≤ 95 && e.w3.field 16 48 == 0

/-- A stream entry's fields are in range (R439). -/
def TableEntry.streamOk (e : TableEntry) : Bool :=
  e.w0.field 16 48 == 0 && e.w0.field 6 7 ≤ 95 && e.w3 == 0 && (List.range 4).all (fun j => e.setWord j / 2 ^ 24 == 0)

/-- A page-table update, and whether it was made: an entry at its physical address, or the root, which the context's next CTXLOAD takes;
a context that has none yet takes its first one at once (R421, R422, DESIGN CHOICE log 41). -/
def State.mapPage (s : State) (ctx idx : Nat) (e : TableEntry) : State × Bool :=
  match idx with
  | 0 =>
    let pa := e.w1.toNat
    if pa % 8 == 0 && paInRange pa then s.dramWrite (s.vfOf ctx) pa (wordBytes e.w0) else (s, false)
  | 1 =>
    if e.w0.field 0 12 != 0 || e.w0.field 48 16 != 0 then (s, false)
    else
      let h := s.headerRoot ctx
      match h.2 with
      | some pa => h.1.dramWrite (s.vfOf ctx) pa (wordBytes e.w0)
      | none =>
        (h.1.modContext ctx (fun x => if x.root = 0 then { x with root := e.w0 } else { x with nextRoot := some e.w0 }), true)
  | _ => (s, false)

/-- MAP (R445, R446): kind 0 a page-table update, 1 an export entry, 2 a stream entry. -/
def execMap (tag ctx kind idx : Nat) (e : BitVec 256) (s : State) : Host.Outcome State Fault Refusal :=
  onContext s tag ctx (fun s _ =>
    let t := tableEntry e
    match kind with
    | 0 =>
      let u := s.mapPage ctx idx t
      u.1.reply tag (if u.2 then 0 else 0x0502)
    | 1 =>
      if 256 ≤ idx || !t.exportOk then s.reply tag 0x0502
      else
        let entry : TableEntry := { t with w3 := BitVec.ofNat 64 ctx }
        ({ s with exports := assocSet s.exports idx entry } : State).reply tag 0
    | 2 =>
      if 4096 ≤ idx || !t.streamOk then s.reply tag 0x0502
      else
        let entry : TableEntry := { t with w0 := t.w0 &&& ~~~(3#64 <<< 4) }
        (({ s with streams := assocSet s.streams idx entry } : State).pump).reply tag 0
    | _ => s.reply tag 0x0502)

/-! ### Images (R211, R445) -/

/-- The physical pieces of a range of device virtual addresses; none where a page is not mapped. -/
def State.mappedPieces (s : State) (ctx : Nat) : List (Nat × Nat) → State × Option (List (Nat × Nat))
  | [] => (s, some [])
  | (va, n) :: r =>
    let a := s.mapped ctx va
    let b := a.1.mappedPieces ctx r
    (b.1, match a.2, b.2 with
      | some pa, some l => some ((pa, n) :: l)
      | _, _ => none)

/-- Bytes of device virtual memory, as the service reads them. -/
def State.serviceRead (s : State) (ctx va n : Nat) : State × Option (List Byte) :=
  let m := s.mappedPieces ctx (rangePieces va n)
  match m.2 with
  | some l => m.1.readPieces (s.vfOf ctx) l
  | none => (m.1, none)

/-- Every core of a context fetches its lines anew (DESIGN CHOICE log 12). -/
def State.dropLines (s : State) (ctx : Nat) : State :=
  { s with cores := s.cores.map (fun p => (p.1, if p.2.ctx = ctx then { p.2 with lines := [] } else p.2)) }

/-- A core that holds no context takes one; it is as at the context's creation (R397). -/
def State.takeContext (s : State) (ctx : Nat) (c : CoreId) : State :=
  let k := s.core c
  if k.ctx = 0 && k.hold == .none && (s.coreOf ctx c).isNone then s.setCore c { k with ctx := ctx, power := .active } else s

/-- LOAD_IMAGE (R211, R445): into mapped pages, or into one core's local store, whose words become full (DESIGN CHOICE log 42);
bytes that meet a published slot of a ring are refused as a whole (R175, DESIGN CHOICE log 90). -/
def execLoadImage (tag ctx core addr : Nat) (data : List (BitVec 8)) (s : State) : Host.Outcome State Fault Refusal :=
  onContext s tag ctx (fun s _ =>
    if core < 2048 then
      let s := s.takeContext ctx core
      if s.inPartition ctx false core && addr + data.length ≤ 0x80000 &&
          (match s.coreOf ctx core with | some k => (k.guardedBy addr data.length).isNone | none => false) then
        (s.modCoreOf ctx core (fun k =>
          ({ k with store := k.store.write addr data }.clearPoison addr data.length).fillWords addr data.length)).reply tag 0
      else s.reply tag 0x0502
    else
      let m := s.mappedPieces ctx (rangePieces addr data.length)
      match m.2 with
      | none => m.1.reply tag 0x0502
      | some l =>
        let w := m.1.writePieces (s.vfOf ctx) data l
        if w.2 then (w.1.dropLines ctx).reply tag 0 else w.1.reply tag 0x0502)

/-! ### Launches (R373 to R376) -/

/-- The fields of a launch descriptor (R373). -/
structure LaunchDescriptor where
  code : Word
  htab : Word
  rect : Word
  init : Word
  ninit : Nat
  prio : Nat
  flags : Nat
  res0 : Nat
  energy : Nat
  levint : Nat
  window : Word
  res1 : Word
  deriving DecidableEq, Repr

/-- The descriptor that 64 bytes hold. -/
def LaunchDescriptor.ofBytes (b : List Byte) : LaunchDescriptor :=
  let n (lo k : Nat) : Nat := bytesToNat ((b.drop lo).take k)
  { code := BitVec.ofNat 64 (n 0 8), htab := BitVec.ofNat 64 (n 8 8), rect := BitVec.ofNat 64 (n 16 8),
    init := BitVec.ofNat 64 (n 24 8), ninit := n 32 4, prio := n 36 1, flags := n 37 1, res0 := n 38 2, energy := n 40 4,
    levint := n 44 4, window := BitVec.ofNat 64 (n 48 8), res1 := BitVec.ofNat 64 (n 56 8) }

/-- A device virtual address that is a multiple of 64. -/
def lineAligned (w : Word) : Bool := w.field 0 6 == 0 && w.field 48 16 == 0

/-- Every field of a descriptor lies in its range (R373, R374). -/
def LaunchDescriptor.ok (d : LaunchDescriptor) : Bool :=
  lineAligned d.code && lineAligned d.htab && lineAligned d.init && rectShape d.rect && d.ninit ≤ 65536 && d.prio ≤ 7 &&
    d.flags ≤ 1 && d.res0 == 0 && d.res1 == 0 && (d.levint == 0 || (1024 ≤ d.levint && d.levint ≤ 65536)) && d.window.toNat ≤ 2 ^ 62

/-- An initial record that the service takes (R374). -/
def initialOk (rect : Word) (w : List Word) : Bool :=
  rectHas rect ((wordAt w 1).field 0 11) && !((wordAt w 0).bit 49 && (wordAt w 2).bit 63)

/-- Initial record j of a launch (R374, R375): its launch id, res fields cleared, and its spawn id. -/
def initialRecord (lid j : Nat) (w : List Word) : Record :=
  let r := Record.ofWords w (BitVec.ofNat 64 (2 ^ 43 + j))
  { r with w0 := r.w0 &&& ~~~(1#64 <<< 54), w1 := spawnWord1 r.w1 lid }

/-- The 64-byte records that bytes hold. -/
def recordsOf : Nat → List Byte → List (List Word)
  | 0, _ => []
  | n + 1, b => bytesToWords 8 (b.take 64) :: recordsOf n (b.drop 64)

/-- The objects of a core that live for the launch, as at its start (R65, R165, R171, R214, R234, R254, R259, R331, R346,
R378, DEDUCED log 43). -/
def Core.startLaunch (k : Core) : Core :=
  let clean (t : Seat) : Seat := if t.st = .free then { t with record := Record.zero } else t
  { k with
    windows := Vector.replicate 8 { w0 := 0, w1 := 0 }
    triggers := Vector.replicate 64 { armed := false, idx := 0, thr := 0, record := 0, lid := 0 }, hallArms := []
    rings := Vector.replicate 8 Ring.init, mailbox := Mailbox.init, table := [], cbValid := false, cbLoads := 0,
    cbPending := [], experts := [], groups := Vector.replicate 4 GroupSlot.free, msgCounts := [], spawnCounts := [], lines := [],
    seat0 := clean k.seat0, seat1 := clean k.seat1, seat2 := clean k.seat2, seat3 := clean k.seat3 }

/-- A core's counts of messages and spawns in a launch start from 0 (R259, R378). -/
def Core.startCounts (k : Core) (lid : Nat) : Core :=
  { k with msgCounts := k.msgCounts.filter (·.1 != lid), spawnCounts := k.spawnCounts.filter (·.1 != lid) }

/-- The cores of a rectangle start a launch: its counts everywhere, the other objects that live for a launch where no other
launch of the context runs on the core (DEDUCED log 43). -/
def State.startOnCores (s : State) (ctx lid : Nat) (rect : Word) : State :=
  (rectCores rect).foldl (fun s c =>
    let s := s.takeContext ctx c
    if s.launches.any (fun l => l.ctx == ctx && rectHas l.rect c) then s.modCoreOf ctx c (fun k => k.startCounts lid)
    else s.modCoreOf ctx c Core.startLaunch) s

/-- A launch as it starts. -/
def Launch.start (lid ctx : Nat) (d : LaunchDescriptor) (handlers : List Word) (records : List Record) (cycle : Nat) : Launch :=
  { lid := lid, ctx := ctx, handlers := handlers, rect := d.rect, prio := d.prio, noMig := d.flags == 1, energy := d.energy,
    drops := 0, levint := if d.levint = 0 then 4096 else d.levint, window := if d.window = 0 then 2 ^ 20 else d.window.toNat,
    startAt := cycle, pending := records, tagGens := [], tagBlocks := [],
    meetStats := { stale := 0, duplicate := 0, stray := 0, mismatch := 0, rebind := 0, late := 0, unbound := 0, orphan := 0,
                   badFree := 0, nak := 0 },
    fifos := [], prio0 := [], prio1 := [], extended := [], horizon := none, horizonFrom := 0, horizonAt := cycle + 256,
    reductions := [], issuedKeys := [], topStamp := none,
    levelAt := cycle + (if d.levint = 0 then 4096 else d.levint), servedLast := 0 }

/-- A checked descriptor starts its launch (R374). -/
def State.startLaunch (s : State) (tag ctx : Nat) (d : LaunchDescriptor) (handlers : List Word) (records : List (List Word)) :
    State :=
  if 65535 ≤ s.launches.length then s.reply tag 0x0503
  else
    let lid := freeHandle (s.launches.map (·.lid)) s.fresh 3
    let rs := records.zipIdx.map (fun x => initialRecord lid x.2 x.1)
    let s := (s.startOnCores ctx lid d.rect).dropLines ctx
    ({ s with launches := s.launches ++ [Launch.start lid ctx d handlers rs s.cycle], fresh := s.fresh + 1 } : State).reply tag 0
      [BitVec.ofNat 64 lid]

/-- The entry line of a record, where it is resident in the code pages and can be read (R376). -/
def State.entryLine (s : State) (ctx : Nat) (r : Record) : State × Option (Nat × List Byte) :=
  match s.entryPc r with
  | none => (s, none)
  | some pc =>
    let line := pc.toNat / 64 * 64
    let b := s.serviceRead ctx line 64
    (b.1, b.2.map (fun l => (line, l)))

/-- One initial record leaves with its entry line; the mesh transit counts from hall 0.0 (R376, DESIGN CHOICE log 12). -/
def State.sendInitial (s : State) (ctx : Nat) (r : Record) : State :=
  let b := s.entryLine ctx r
  b.1.send (b.1.transit 2048 r.home) r.home r.home r.lid 0 0 0 0 0 (.initial r b.2)

/-- INITIAL_RECORD_SEND (R375, R376): the larder sends a launch's initial records about 600 cc after the commit. -/
def execInitialRecordSend (lid : Nat) (s : State) : Host.Outcome State Fault Refusal :=
  event s (do
    let l ← s.launch lid
    if l.pending = [] || s.cycle < l.startAt + 600 then none
    else some (l.pending.foldl (fun s r => s.sendInitial l.ctx r) (s.modLaunch lid (fun l => { l with pending := [] }))))

/-- LAUNCH (R373, R374): a descriptor that fails a check, or cannot be read, starts nothing (DESIGN CHOICE log 62).  The handler
table is read here, once, and kept with the launch: the spec does not say when it is read (DESIGN CHOICE log 100). -/
def execLaunch (tag ctx va : Nat) (s : State) : Host.Outcome State Fault Refusal :=
  onContext s tag ctx (fun s _ =>
    let a := s.serviceRead ctx va 64
    match a.2 with
    | none => a.1.reply tag 0x0502
    | some b =>
      let d := LaunchDescriptor.ofBytes b
      if !(d.ok && (rectCores d.rect).all (s.inPartition ctx false)) then a.1.reply tag 0x0502
      else
        let h := a.1.serviceRead ctx d.htab.toNat 512
        let r := h.1.serviceRead ctx d.init.toNat (64 * d.ninit)
        match h.2, (if d.ninit = 0 then some [] else r.2) with
        | some hb, some rb =>
          let records := recordsOf d.ninit rb
          if records.all (initialOk d.rect) then r.1.startLaunch tag ctx d (bytesToWords 64 hb) records
          else r.1.reply tag 0x0502
        | _, _ => r.1.reply tag 0x0502)

/-! ### Waits, counters and telemetry -/

/-- Cc in a microsecond (R6). -/
def usec : Nat := 4000

/-- WAIT (R445): answered at once where the counter has reached the threshold, otherwise when it does. -/
def execWait (tag ctx c ctr thr tmo : Nat) (s : State) : Host.Outcome State Fault Refusal :=
  onContext s tag ctx (fun s _ =>
    if 2048 ≤ c || 256 ≤ ctr || 2 ^ 64 ≤ thr then s.reply tag 0x0502
    else
      match s.coreOf ctx c with
      | none => s.reply tag 0x0502
      | some k =>
        let v := (k.counter (BitVec.ofNat 8 ctr)).value
        if thr ≤ v.toNat then s.reply tag 0 [v]
        else
          let w : ServiceWait := { tag := tag, ctx := ctx, core := c, idx := BitVec.ofNat 8 ctr, thr := BitVec.ofNat 64 thr,
                                   deadline := s.cycle + usec * tmo }
          { s with waits := s.waits ++ [w] })

/-- WAIT_TIMEOUT (R445): the reply holds the value reached, on the context's core wherever its state is. -/
def execWaitTimeout (tag : Nat) (s : State) : Host.Outcome State Fault Refusal :=
  event s (do
    let w ← s.waits.find? (·.tag == tag)
    if s.cycle < w.deadline then none
    else
      let v := ((s.coreOf w.ctx w.core).map (fun k => (k.counter w.idx).value)).getD 0
      some (({ s with waits := s.waits.filter (·.tag != tag) } : State).reply tag 0x0504 [v]))

/-- READ_COUNTERS (R445): up to 64 pairs; values and shadows. -/
def execReadCounters (tag ctx : Nat) (pairs : List (Nat × Nat)) (s : State) : Host.Outcome State Fault Refusal :=
  onContext s tag ctx (fun s _ =>
    let one (p : Nat × Nat) : Option (List Word) :=
      if 2048 ≤ p.1 || 256 ≤ p.2 then none
      else (s.coreOf ctx p.1).map (fun k =>
        let x := k.counter (BitVec.ofNat 8 p.2)
        [x.value, x.shadow])
    let all := pairs.map one
    if 64 < pairs.length || all.any (·.isNone) then s.reply tag 0x0502 else s.reply tag 0 (all.filterMap id).flatten)

/-- The meeting statistics of a launch as words (R325). -/
def MeetStats.words (m : MeetStats) : List Word :=
  [m.stale, m.duplicate, m.stray, m.mismatch, m.rebind, m.late, m.unbound, m.orphan, m.badFree, m.nak].map (BitVec.ofNat 64)

/-- An entry of an error log as words (R462). -/
def ErrorRecord.words (e : ErrorRecord) : List Word :=
  [BitVec.ofNat 64 e.line, BitVec.ofNat 64 (e.kind + 256 * e.vf), BitVec.ofNat 64 e.time]

/-- The counts that a telemetry selector names: 0 the meeting statistics and 1 the energy drops of the context's launches, 3 the
error logs (R462), 2 the port and stream counts, whose values the spec leaves open (R445, DESIGN CHOICE log 44). -/
def State.telemetry (s : State) (ctx k : Nat) : Option (List Word) :=
  let mine := s.launches.filter (·.ctx == ctx)
  match k with
  | 0 => some (mine.flatMap (fun l => BitVec.ofNat 64 l.lid :: l.meetStats.words))
  | 1 => some (mine.flatMap (fun l => [BitVec.ofNat 64 l.lid, BitVec.ofNat 64 l.drops]))
  | 2 => some ((List.range 24).map (fun i => Config.freeWord (i + 1) s.fresh))
  | 3 => some (s.errlogs.flatMap (·.words))
  | _ => none

/-- TELEMETRY (R325, R393, R445). -/
def execTelemetry (tag ctx k : Nat) (s : State) : Host.Outcome State Fault Refusal :=
  onContext s tag ctx (fun s _ =>
    match s.telemetry ctx k with
    | some l => s.tick.reply tag 0 l
    | none => s.reply tag 0x0502)

end Sys2Proof.Machine
end

