-- ==== Sys2Proof/Machine/Debug.lean ====
section
/-!
DEFINITION. Debug sessions: attach, halts, reads and writes, resume, detach and trace (R473 to R479, R481, R484), and the
retries of what a settled halt refuses (R475).
-/
namespace Sys2Proof.Machine

/-! ### Sessions (R473, R481) -/

/-- Whether a credential is the one of the context's sealed function. -/
def State.sealOpens (s : State) (ctx cred : Nat) : Bool :=
  match s.functionOf ctx with
  | some v => v.isSealed && v.credential == some cred
  | none => false

/-- The context's function is sealed. -/
def State.sealedCtx (s : State) (ctx : Nat) : Bool := ((s.functionOf ctx).map (·.isSealed)).getD false

/-- The status of an attach at a level: done, or why it is refused (R473, R481) (DEDUCED log 71). -/
def State.attachStatus (s : State) (tag ctx level cred : Nat) : Nat :=
  match level with
  | 0 => 0x0505
  | 1 => if (s.ownContext tag ctx).isNone then 0x0501 else if s.sealedCtx ctx && !s.sealOpens ctx cred then 0x0505 else 0
  | 2 => if (s.ownContext tag ctx).isNone then 0x0501 else if s.sealedCtx ctx && !s.sealOpens ctx cred then 0x0505 else 0
  | 3 =>
    if s.lifecycle = .deployed then 0x0505
    else if (s.context ctx).isNone then 0x0501
    else if cred = Config.vendorCredential || s.sealOpens ctx cred then 0 else 0x0505
  | _ => 0x0502

/-- DEBUG_ATTACH (R473, R481): the session's id is the reply's body. -/
def execDebugAttach (tag ctx level cred : Nat) (s : State) : Host.Outcome State Fault Refusal :=
  let s := s.awaken
  let st := s.attachStatus tag ctx level cred
  .next (
    if st ≠ 0 then s.reply tag st
    else if 65535 ≤ s.sessions.length then s.reply tag 0x0503
    else
      let id := freeHandle (s.sessions.map (·.id)) s.fresh 4
      let x : Session :=
        { id := id, requester := requesterOf tag, level := level, ctx := ctx, quick := [], settled := [], notice := false,
          vfCredential := s.sealOpens ctx cred, sampleAt := none, samples := [], halting := [] }
      ({ s with sessions := s.sessions ++ [x], fresh := s.fresh + 1 } : State).reply tag 0 [BitVec.ofNat 64 id])

/-- The ops that a session admits (R473, R481): a vendor without a sealed function's credential only reads and detaches. -/
def State.sessionAdmits (s : State) (x : Session) (op : Nat) : Bool :=
  match x.level with
  | 1 => op == 7 || op == 8
  | 2 => true
  | 3 => s.lifecycle != .deployed && (!s.sealedCtx x.ctx || x.vfCredential || op == 4 || op == 7)
  | _ => false

/-- The state with f applied to a session. -/
def State.modSession (s : State) (id : Nat) (f : Session → Session) : State :=
  { s with sessions := mapFirst (·.id == id) f s.sessions }

/-- A request of a session: a pending notice is its answer (R477), and an op that is not admitted gets 0x0505. -/
def onSession (s : State) (tag ses op : Nat) (f : State → Session → State) : Host.Outcome State Fault Refusal :=
  let s := s.awaken
  .next (match s.sessions.find? (fun x => x.id == ses && x.requester == requesterOf tag) with
    | none => s.reply tag 0x0502
    | some x =>
      if x.notice then (s.modSession ses (fun x => { x with notice := false })).reply tag 0x0506
      else if s.sessionAdmits x op then f s x else s.reply tag 0x0505)

/-! ### Halts (R474, R475, R484) -/

/-- The cores of a rectangle that hold a session's context. -/
def State.haltCores (s : State) (ctx : Nat) (rect : Word) : List CoreId :=
  (rectCores rect).filter (fun c => (s.core c).ctx == ctx)

/-- The cores of a list that are off with the context saved (R484). -/
def State.offCores (s : State) (ctx : Nat) (l : List CoreId) : List CoreId :=
  l.filter (fun c => (s.core c).power == .off && ((s.context ctx).bind (fun x => assocGet x.saved c)).isSome)

/-- The service restores cores that are off; the request is acted on once they are back (R484). -/
def State.bringBack (s : State) (ctx : Nat) (l : List CoreId) : State :=
  let busy := s.saveJobs.any (fun j => j.load && j.ctx == ctx && l.any j.cores.contains)
  if busy then s else s.loadCores ctx 2048 255 l

/-- A parked core is active again; what is bound for it is taken 400 cc later (R483). -/
def State.unpark (s : State) (c : CoreId) : State :=
  if (s.core c).power = .parked then
    let t := s.setCore c { s.core c with power := .active }
    let later (f : Flight) : Flight := if f.dst = c then { f with due := max f.due (s.cycle + 400) } else f
    { t with flights := t.flights.map later }
  else s

/-- A seat is held at the boundary where it stands. -/
def Seat.halt (t : Seat) (cycle : Nat) : Seat := { t with haltedAt := some (t.haltedAt.getD cycle) }

/-- The seats of a core are halted, and the seats elsewhere that run its lent chunks. -/
def State.haltCore (s : State) (c : CoreId) : State :=
  let s := s.unpark c
  let s := s.setCore c { s.core c with haltQuick := true }
  let go (d : CoreId) (t : Seat) : Seat :=
    if d = c || (match t.origin with | some o => o.1 == c | none => false) then t.halt s.cycle else t
  { s with cores := s.cores.map (fun p => (p.1, p.2.mapSeats (go p.1))) }

/-- A core refuses new inbound items from now on. -/
def State.settleCore (s : State) (c : CoreId) : State :=
  let k := s.core c
  (s.setCore c { k with haltSettled := some (k.haltSettled.getD s.fresh) }).tick

/-- A list of cores with others added. -/
def addCores (l m : List CoreId) : List CoreId := l ++ m.filter (fun c => !l.contains c)

/-- A halt of a rectangle by a session: none while cores that are off come back. -/
def State.haltRect (s : State) (x : Session) (rect : Word) (settled : Bool) : State × Bool :=
  let off := s.offCores x.ctx (rectCores rect)
  if off ≠ [] then (s.bringBack x.ctx off, false)
  else
    let cs := s.haltCores x.ctx rect
    let s := cs.foldl (fun s c => s.haltCore c) s
    let s := if settled then cs.foldl (fun s c => s.settleCore c) s else s
    (s.modSession x.id (fun x =>
      if settled then { x with settled := addCores x.settled cs } else { x with quick := addCores x.quick cs }), true)

/-- A rectangle that a session may name. -/
def State.sessionRect (s : State) (x : Session) (rect : Word) : Bool :=
  rectShape rect && (rectCores rect).all (s.inPartition x.ctx false)

/-- A halt that is not complete is remembered, under its request, for its report. -/
def State.noteHalt (s : State) (ses tag : Nat) (rect : Word) (settled : Bool) : State :=
  s.modSession ses (fun x => { x with halting := x.halting.filter (·.1 != tag) ++ [(tag, rect, settled)] })

/-- QUICK_HALT (R474). -/
def execQuickHalt (tag ses : Nat) (rect : BitVec 64) (s : State) : Host.Outcome State Fault Refusal :=
  onSession s tag ses 2 (fun s x =>
    if !s.sessionRect x rect then s.reply tag 0x0502
    else
      let r := s.haltRect x rect false
      if r.2 then r.1.reply tag 0 else r.1.noteHalt ses tag rect false)

/-- The core that an item in flight changes. -/
def State.changedCore (s : State) (f : Flight) : Option CoreId :=
  match f.body with
  | .packet p => some (s.exportEntry (remoteEntry p.dst)).target
  | .pop _ _ _ home => some home
  | b => if b.changes then some f.dst else none

/-- Numbers of the items in flight to a core (R474, R475): engine packets that have read or are held on a fault, and what
travels; a message that a full queue keeps at its sender is not in flight (R236) (DEDUCED log 66). -/
def State.inbound (s : State) (c : CoreId) : List Nat :=
  let full (f : Flight) : Bool := match f.body with | .message _ => !(s.core c).messageRoom | _ => false
  let travelling := (s.flights.filter (fun f => s.changedCore f == some c && !full f)).map (·.id)
  let lands (e : BqEntry) (d : CoreId) (m : Move) : Bool := match m.dst with
    | .ptr w _ => ptrSpace w ≤ 1 && (pointerPlace e.cmd.home w).1 == c
    | .slot .. => d == c
    | .zero => false
  let packets := s.cores.flatMap (fun k => k.2.bq.flatMap (fun e =>
    (e.packets.filter (fun p => p.code.isNone && p.sentAt != 0 && p.moves.any (lands e k.1))).map (·.sentAt)))
  travelling ++ packets

/-- Every item that was in flight to a core at its settled halt has landed. -/
def State.coreSettled (s : State) (c : CoreId) : Bool :=
  match (s.core c).haltSettled with
  | some h => (s.inbound c).all (fun n => h ≤ n)
  | none => false

/-- SETTLED_HALT (R475): reported complete once every item already in flight has landed. -/
def execSettledHalt (tag ses : Nat) (rect : BitVec 64) (s : State) : Host.Outcome State Fault Refusal :=
  onSession s tag ses 3 (fun s x =>
    if !s.sessionRect x rect then s.reply tag 0x0502
    else
      let r := s.haltRect x rect true
      if r.2 && (r.1.haltCores x.ctx rect).all r.1.coreSettled then r.1.reply tag 0 else r.1.noteHalt ses tag rect true)

/-- A halt that a session waits for goes on: once no core of it is off it begins, and once it is complete it is reported (R474,
R475, R484). -/
def State.haltOn (s : State) (x : Session) (w : Nat × Word × Bool) : Option State :=
  let cs := s.haltCores x.ctx w.2.1
  let begun := cs.all (fun c => (s.core c).haltQuick && (!w.2.2 || (s.core c).haltSettled.isSome))
  if s.offCores x.ctx (rectCores w.2.1) ≠ [] then none
  else if !begun then some (s.haltRect x w.2.1 w.2.2).1
  else if w.2.2 && !cs.all s.coreSettled then none
  else some ((s.modSession x.id (fun x => { x with halting := x.halting.filter (·.1 != w.1) })).reply w.1 0)

/-- The first of a session's halts that can go on does. -/
def State.reportHalt (s : State) (ses : Nat) : State :=
  match s.sessions.find? (·.id == ses) with
  | some x => (x.halting.findSome? (s.haltOn x)).getD s
  | none => s

/-- INTERFACE_RETRY (R475): a refused item tries again after its backoff. -/
def execInterfaceRetry (f : Nat) (s : State) : Host.Outcome State Fault Refusal :=
  event s (do
    let x ← s.flight f
    let c ← s.changedCore x
    if s.cycle < x.due || (s.core c).lands f then none
    else
      let later (g : Flight) : Flight := { g with due := s.cycle + g.backoff, backoff := min 8192 (2 * g.backoff) }
      some { s with flights := mapFirst (·.id == f) later s.flights })

/-! ### Reads (R474, R478, DESIGN CHOICE log 45) -/

/-- The words that bytes hold, the last one filled up with zeros. -/
def packWords (b : List Byte) : List Word := bytesToWords ((b.length + 7) / 8) b

/-- The registers that such bytes hold; x0 and q0 keep nothing (R39). -/
def Regs.ofImage (g : Regs) (b : List Byte) : Regs :=
  let n (lo k : Nat) : Nat := bytesToNat ((b.drop lo).take k)
  { g with
    x := Vector.ofFn (fun i => if i.val = 0 then g.x[0] else BitVec.ofNat 64 (n (8 * i.val) 8))
    v := Vector.ofFn (fun i => BitVec.ofNat 1024 (n (512 + 128 * i.val) 128))
    q := Vector.ofFn (fun i => if i.val = 0 then g.q[0] else BitVec.ofNat 128 (n (4608 + 16 * i.val) 16))
    pc := BitVec.ofNat 48 (n 4736 8), nf := BitVec.ofNat 6 (n 4744 8), rmode := BitVec.ofNat 3 (n 4752 8),
    seed := BitVec.ofNat 64 (n 4760 8) }

/-- A number for each kind of held effect, in the order of the list of R196. -/
def Held.code : Held → Nat
  | .send .. => 0
  | .counter .. => 1
  | .engine .. => 2
  | .trigArm .. => 3
  | .trigDis .. => 4
  | .mailboxConfig .. => 5
  | .mailboxPost .. => 6
  | .lsamo .. => 7
  | .tagBind .. => 8
  | .meet .. => 9
  | .expert .. => 10
  | .group .. => 11
  | .spawn .. => 12
  | .queuePush .. => 13
  | .workPush .. => 14
  | .raftersConfig .. => 15
  | .ringConfig .. => 16
  | .ringPublish .. => 17
  | .ringReset .. => 18
  | .scaleLink .. => 19
  | .codebookLoad .. => 20
  | .tlbInv .. => 21
  | .ctxSave .. => 22
  | .ctxLoad .. => 23
  | .lpMap .. => 24
  | .vfcfg .. => 25

/-- The operands of an expert operation. -/
def ExpertOp.operands : ExpertOp → List Word
  | .route b c d => [b, c, d]
  | .repl0 b l => b :: l
  | .repl1 b c d => [b, c, d]
  | .retire0 b c => [b, c]
  | .retire1 b c => [b, c]
  | .step0 b => [b]
  | .step1 b c => [b, c]
  | .stat b c => [b, c]
  | .look b c => [b, c]

/-- The operands of a group operation. -/
def GroupOp.operands : GroupOp → List Word
  | .fork b l _ => b :: l
  | .reward b c => [b, c]
  | .cancel b c => [b, c]
  | .configure l => l
  | .release c => [c]
  | .stat b c => [b, c]

/-- The operands of a counter operation. -/
def CounterOp.operands : CounterOp → List Word
  | .add v => [0, v]
  | .expect k => [1, k]
  | .bainit n => [2, n]
  | .arrive p => [3, p]
  | .drop p => [4, p]

/-- The operands of a held effect, each in a word. -/
def Held.operands : Held → List Word
  | .send dst hid l => BitVec.ofNat 64 dst :: BitVec.ofNat 64 hid :: l
  | .counter a _ _ op => a :: op.operands
  | .engine cmd => [cmd.b, cmd.c, cmd.d, BitVec.ofNat 64 cmd.dc, BitVec.ofNat 64 cmd.sc, BitVec.ofNat 64 cmd.home]
  | .trigArm c e i thr r => [BitVec.ofNat 64 c, e.setWidth 64, i.setWidth 64, thr, BitVec.ofNat 64 r]
  | .trigDis c e => [BitVec.ofNat 64 c, e.setWidth 64]
  | .mailboxConfig c k i n => [BitVec.ofNat 64 c, BitVec.ofNat 64 k, i.setWidth 64, BitVec.ofNat 64 n]
  | .mailboxPost c v => [BitVec.ofNat 64 c, v]
  | .lsamo p _ _ _ op v w => [p, BitVec.ofNat 64 op, v, w]
  | .tagBind t l => t :: l
  | .meet t l => t :: l
  | .expert h op => BitVec.ofNat 64 h :: op.operands
  | .group h op => BitVec.ofNat 64 h :: op.operands
  | .spawn _ l key dst => key :: BitVec.ofNat 64 dst :: l
  | .queuePush q a => [BitVec.ofNat 64 q, BitVec.ofNat 64 a]
  | .workPush l => l
  | .raftersConfig op ty w r => [BitVec.ofNat 64 op, BitVec.ofNat 64 ty, BitVec.ofNat 64 w, r]
  | .ringConfig g a b => [g.setWidth 64, a, b]
  | .ringPublish g n => [g.setWidth 64, n]
  | .ringReset g => [g.setWidth 64]
  | .scaleLink g h l => [g.setWidth 64, h.setWidth 64, if l then 1 else 0]
  | .codebookLoad p => [p]
  | .tlbInv a b => [a, b]
  | .ctxSave a b c => [a, b, c]
  | .ctxLoad a b c => [a, b, c]
  | .lpMap a b => [a, b]
  | .vfcfg v op d => BitVec.ofNat 64 v :: BitVec.ofNat 64 op :: packWords d

/-- A held effect as a debugger reads it: its kind with the instruction's address, its tag, how many operands there are, and they. -/
def HeldEffect.image (h : HeldEffect) : List Word :=
  [BitVec.ofNat 64 (h.body.code * 2 ^ 48 + h.ia.toNat), BitVec.ofNat 64 h.tag, BitVec.ofNat 64 h.body.operands.length] ++ h.body.operands

/-- A register's number: x from 0, v from 64, q from 96. -/
def Reg.code : Reg → Nat
  | .x r => r.toNat
  | .v r => 64 + r.toNat
  | .q r => 96 + r.toNat

/-- The result buffer as words: for each result its register (255 for none), when it is ready, and its value. -/
def resultWords (l : List GroupResult) : List Word :=
  l.flatMap (fun g => BitVec.ofNat 64 ((g.reg.map (·.code)).getD 255) :: BitVec.ofNat 64 g.readyAt ::
    bytesToWords 16 (natToBytes 128 g.val.toNat))

/-- The matrix queue and the step as words. -/
def Core.matrixWords (k : Core) : List Word :=
  BitVec.ofNat 64 k.matrix.length :: BitVec.ofNat 64 ((k.mstep.map (·.endAt)).getD 0) ::
    k.matrix.flatMap (fun e => [BitVec.ofNat 64 (e.seat + 2 ^ 16 * e.ia.toNat), BitVec.ofNat 64 e.done])

/-- Bytes of a region of a core (R52). -/
def Core.regionBytes (k : Core) (region off n : Nat) : Option (List Byte) :=
  match regionSize region with
  | none => none
  | some z =>
    if z < off + n then none
    else
      let cut (b : List Byte) : Option (List Byte) := some ((b.drop off).take n)
      match region with
      | 0 => some (k.store.bytes off n)
      | 1 => cut (k.counters.toList.flatMap (·.bytes))
      | 2 => some (k.store.bytes (0x90000 + off) n)
      | 3 => cut ((List.range 4).flatMap (fun m => (k.seat m).vectorBytes))
      | 4 => cut (k.rings.toList.flatMap (fun r => wordBytes r.base ++ wordBytes r.shape ++ wordBytes r.word ++
        wordBytes (BitVec.ofNat 64 (r.pubs % 65536))))
      | _ => cut (wordBytes (BitVec.ofNat 64 k.mailbox.posts))

/-- What a read names (DESIGN CHOICE log 45): bits 63:56 of the address say what, bits 55:48 the seat. -/
def State.debugBytes (s : State) (c : CoreId) (k : Core) (addr len : Nat) : Option (List Byte) :=
  let t := k.seat (addr / 2 ^ 48 % 4)
  let words (l : List Word) : Option (List Byte) := some (((l.flatMap wordBytes).drop (addr % 2 ^ 48)).take len)
  match addr / 2 ^ 56 with
  | 0 => k.regionBytes (chipRegion addr) (chipOffset addr) len
  | 1 => some ((t.regs.image.drop (addr % 2 ^ 48)).take len)
  | 2 => some (((packBits 8192 ((List.range 65536).map (fun w => k.isFull (8 * w)))).drop (addr % 2 ^ 48)).take len)
  | 3 => words (t.wbuf.flatMap (fun w => [BitVec.ofNat 64 w.1, w.2.setWidth 64]))
  | 4 => words (t.held.flatMap (·.image))
  | 5 => words [BitVec.ofNat 64 (s.inbound c).length]
  | 6 => words (resultWords t.results)
  | 7 => words k.matrixWords
  | _ => none

/-- A read of the matrix unit's step state wakes its gated sub-arrays and sets no woke bit (R478). -/
def State.debugWake (s : State) (c : CoreId) (addr : Nat) : State :=
  if addr / 2 ^ 56 = 7 then
    let k := s.core c
    s.setCore c { k with subs := k.subs.map (fun (a : SubArray) => a.request s.cycle k.mstep.isSome) }
  else s

/-- What a read returns in place of the bytes of a sealed function whose credential the session lacks: by its key, the place and the
bytes (R481). -/
def State.cipherBytes (s : State) (ctx c addr : Nat) (b : List Byte) : List Byte :=
  let key := ((s.functionOf ctx).bind (·.key)).getD 0
  (List.range b.length).map (fun j => Config.ciphertext key (c * 2 ^ 56 + addr) b j)

/-- DEBUG_READ (R473, R474, R481, R484). -/
def execDebugRead (tag ses c addr len : Nat) (s : State) : Host.Outcome State Fault Refusal :=
  onSession s tag ses 4 (fun s x =>
    if 2048 ≤ c || 4096 < len then s.reply tag 0x0502
    else if s.offCores x.ctx [c] ≠ [] then s.bringBack x.ctx [c]
    else
      let s := s.unpark c
      match s.coreOf x.ctx c with
      | none => s.reply tag 0x0502
      | some k =>
        let open' := x.vfCredential || !s.sealedCtx x.ctx
        if !open' && 2 ^ 56 ≤ addr then s.reply tag 0x0505
        else
          match s.debugBytes c k addr len with
          | some b => (s.debugWake c addr).reply tag 0 (packWords (if open' then b else s.cipherBytes x.ctx c addr b))
          | none => s.reply tag 0x0502)

/-! ### Writes (R476) -/

/-- A write to local-store data: the full bits stay, and halted chunks that have read the lines are in conflict. -/
def State.debugStore (s : State) (c : CoreId) (off : Nat) (b : List Byte) : Option State :=
  let k := s.core c
  if 0x80000 < off + b.length || (k.guardedBy off b.length).isSome then none
  else
    let t := s.setCore c ({ k with store := k.store.write off b }.clearPoison off b.length)
    some (t.markConflicts c 4 c (setBits 0 ((linesOf off b.length).map (fun l => filterBit (64 * l)))))

/-- A write to a halted seat's registers, in effect at resume. -/
def State.debugRegs (s : State) (c n off : Nat) (b : List Byte) : Option State :=
  let t := s.seat c n
  if !t.halted || t.st == .free || t.st == .lent || 4768 < off + b.length then none
  else
    let old := t.regs.image
    some (s.setSeat c n { t with regs := t.regs.ofImage (old.take off ++ b ++ old.drop (off + b.length)) })

/-- DEBUG_WRITE (R476): accepted in a settled halt only. -/
def execDebugWrite (tag ses c addr : Nat) (data : List (BitVec 8)) (s : State) : Host.Outcome State Fault Refusal :=
  onSession s tag ses 5 (fun s x =>
    let out := if !x.settled.contains c || (s.core c).haltSettled.isNone || 4096 < data.length then none
      else match addr / 2 ^ 56 with
        | 0 => if chipRegion addr = 0 then s.debugStore c (chipOffset addr) data else none
        | 1 => s.debugRegs c (addr / 2 ^ 48 % 4) (addr % 2 ^ 48) data
        | _ => none
    match out with
    | some t => t.reply tag 0
    | none => s.reply tag 0x0502)

/-! ### Resume, detach and trace (R473, R477, R479) -/

/-- A session gives up its halts of some cores: each ends where no other session holds it. -/
def State.resumeCores (s : State) (id : Nat) (p : CoreId → Bool) : State :=
  match s.sessions.find? (·.id == id) with
  | none => s
  | some x =>
    let mine := (addCores x.quick x.settled).filter p
    let off (l : List CoreId) : List CoreId := l.filter (fun c => !mine.contains c)
    let s := s.modSession id (fun x => { x with quick := off x.quick, settled := off x.settled,
                                                halting := x.halting.filter (fun w => !(rectCores w.2.1).any p) })
    let one (s : State) (c : CoreId) : State :=
      let settled := s.sessions.any (·.settled.contains c)
      if settled then s
      else if s.sessions.any (·.quick.contains c) then s.setCore c { s.core c with haltSettled := none }
      else s.releaseHalt c
    mine.foldl one s

/-- DEBUG_RESUME (R477). -/
def execDebugResume (tag ses : Nat) (rect : BitVec 64) (s : State) : Host.Outcome State Fault Refusal :=
  onSession s tag ses 6 (fun s x =>
    if !rectShape rect then s.reply tag 0x0502 else (s.resumeCores x.id (rectHas rect)).reply tag 0)

/-- A session ends, its halts released. -/
def State.closeSession (s : State) (id : Nat) : State :=
  let t := s.resumeCores id (fun _ => true)
  { t with sessions := t.sessions.filter (·.id != id) }

/-- DEBUG_DETACH (R473). -/
def execDebugDetach (tag ses : Nat) (s : State) : Host.Outcome State Fault Refusal :=
  onSession s tag ses 7 (fun s x => (s.closeSession x.id).reply tag 0)

/-- The trap records of a context that stand in its ring (R401, R402). -/
def State.postedRecords (s : State) (ctx : Nat) : List Word :=
  let r := s.trapRing ctx
  let k := s.core r.1
  let slots := ((List.range 256).map (fun j => r.2.1 + 64 * j)).filter (fun a => k.isFull a)
  (slots.map (fun a => bytesToWords 8 (k.store.bytes a 64))).flatMap (fun w => if (wordAt w 0).field 48 16 = ctx then w else [])

/-- The PC of every seat of a context. -/
def State.sampledPcs (s : State) (ctx : Nat) : List Word :=
  (s.cores.filter (fun p => p.2.ctx == ctx)).flatMap (fun p => (List.range 4).map
    (fun n => BitVec.ofNat 64 ((4 * p.1 + n) * 2 ^ 48 + (p.2.seat n).regs.pc.toNat)))

/-- A session takes a sample where none was taken in the last 65,536 cc: at a turn of the schedule or of the policy, or at the
request. -/
def State.sample (s : State) (x : Session) : State × List Word :=
  let due : Bool := match x.sampleAt with | some a => decide (a + 65536 ≤ s.cycle) | none => true
  if due then
    let l := s.sampledPcs x.ctx
    (s.modSession x.id (fun x => { x with sampleAt := some s.cycle, samples := l }), l)
  else (s, x.samples)

/-- A session whose tracing has begun takes its next sample (R479). -/
def State.sampleSession (s : State) (ses : Nat) : State :=
  match s.sessions.find? (fun x => x.id == ses && x.sampleAt.isSome) with
  | some x => (s.sample x).1
  | none => s

/-- What a session does by itself: its next sample, and the report of a halt that has become complete (R475, R479). -/
def State.sessionTurn (s : State) (ses : Nat) : State := (s.sampleSession ses).reportHalt ses

/-- DEBUG_TRACE (R479): 0 the trap records, 1 the samples of the PCs, 2 on the telemetry (DESIGN CHOICE log 44). -/
def execDebugTrace (tag ses k : Nat) (s : State) : Host.Outcome State Fault Refusal :=
  onSession s tag ses 8 (fun s x =>
    match k with
    | 0 => s.reply tag 0 (s.postedRecords x.ctx)
    | 1 => let r := s.sample x; r.1.reply tag 0 r.2
    | n + 2 =>
      match s.telemetry x.ctx n with
      | some l => s.tick.reply tag 0 l
      | none => s.reply tag 0x0502)

end Sys2Proof.Machine
end

