-- ==== Sys2Proof/Machine/Integer.lean ====
section
/-!
DEFINITION. Integer arithmetic (R115 to R118), immediates, comparisons, counts, bit fields and the pointer instructions
(R119 to R125).
-/
namespace Sys2Proof.Machine

/-- A source of an integer instruction: whole, or its low 32 bits extended for `.32` (R115). -/
def aluSource (w n : Bool) (x : Word) : Word :=
  if w then (if n then zext x.toNat 32 else sext x.toNat 32) else x

/-- The width W of the operation. -/
def aluWidth (w : Bool) : Nat := if w then 32 else 64

/-- The destination's value from the operation's result: bits 31:0 sign-extended for `.32` (R115). -/
def aluResult (w : Bool) (r : Word) : Word := if w then sext r.toNat 32 else r

/-- A shift count: the low 6 bits, or the low 5 for `.32`. -/
def shiftCount (w : Bool) (y : Word) : Nat := y.toNat % aluWidth w

/-- The operations of R115 on sources already extended, W bits wide. -/
inductive AluOp where
  | add | sub | mul | mulh | div | rem | and | or | xor | andn | shl | shr | sra | min | max
  deriving DecidableEq, Repr

/-- A source as an integer: unsigned under `.N`, otherwise signed. -/
def aluInt (n : Bool) (x : Word) : Int := if n then (x.toNat : Int) else x.toInt

/-- The quotient of R116: all ones for a zero divisor, otherwise truncated toward zero (the most negative value over −1
wraps to itself). -/
def aluQuotient (n : Bool) (p y : Word) : Word :=
  if y = 0 then BitVec.allOnes 64 else BitVec.ofInt 64 (Int.tdiv (aluInt n p) (aluInt n y))

/-- The remainder of R116: p for a zero divisor, otherwise p − y × quotient. -/
def aluRemainder (n : Bool) (p y : Word) : Word :=
  if y = 0 then p else BitVec.ofInt 64 (Int.tmod (aluInt n p) (aluInt n y))

/-- op(p, y) of R115 at width W; bits above W of the result are dropped afterwards. -/
def aluValue (op : AluOp) (w n : Bool) (p y : Word) : Word :=
  match op with
  | .add => p + y
  | .sub => p - y
  | .mul => p * y
  | .mulh => BitVec.ofInt 64 (aluInt n p * aluInt n y / (2 ^ aluWidth w : Int))
  | .div => aluQuotient n p y
  | .rem => aluRemainder n p y
  | .and => p &&& y
  | .or => p ||| y
  | .xor => p ^^^ y
  | .andn => p &&& ~~~y
  | .shl => p <<< shiftCount w y
  | .shr => (if w then zext p.toNat 32 else p) >>> shiftCount w y
  | .sra => p.sshiftRight (shiftCount w y)
  | .min => if aluInt n p ≤ aluInt n y then p else y
  | .max => if aluInt n p ≤ aluInt n y then y else p

/-- What an integer instruction writes (R115). -/
def aluWrite (op : AluOp) (w n : Bool) (p y : Word) : Word :=
  aluResult w (aluValue op w n (aluSource w n p) (aluSource w n y))

/-- The immediate operand of form I (R115). -/
def immValue (imm : BitVec 22) : Word := imm.signExtend 64

/-- The latency of DIV and REM (R115): 20 for a zero divisor or the wrapping case, otherwise 24 and a quarter of the
quotient's significant bits. -/
def divLatency (w n : Bool) (p y : Word) : Nat :=
  let a := aluInt n (aluSource w n p)
  let b := aluInt n (aluSource w n y)
  if b = 0 || (!n && b == -1 && a == -(2 ^ (aluWidth w - 1) : Int)) then 20
  else
    let q := (Int.tdiv a b).natAbs
    24 + ((if q = 0 then 0 else Nat.log2 q + 1) + 3) / 4

/-- An instruction whose result is immediate (R32). -/
def immediate (sw : Bool) (d : BitVec 6) (val : Word) (s : State) : Host.Outcome State Fault Refusal :=
  settle sw s (.ok (s.putX d val))

/-- An instruction with one group result in an x register (R32). -/
def grouped (sw : Bool) (d : BitVec 6) (val : Word) (latency : Nat) (s : State) : Host.Outcome State Fault Refusal :=
  settle sw s (.ok (s.gresX d val latency))

/-- ADD, form R (R115). -/
def execAddR (sw : Bool) (d b c : BitVec 6) (w : Bool) (s : State) : Host.Outcome State Fault Refusal :=
  immediate sw d (aluWrite .add w false (s.x b) (s.x c)) s

/-- ADD, form I (R115). -/
def execAddI (sw : Bool) (d b : BitVec 6) (w : Bool) (imm : BitVec 22) (s : State) : Host.Outcome State Fault Refusal :=
  immediate sw d (aluWrite .add w false (s.x b) (immValue imm)) s

/-- SUB, form R (R115). -/
def execSubR (sw : Bool) (d b c : BitVec 6) (w : Bool) (s : State) : Host.Outcome State Fault Refusal :=
  immediate sw d (aluWrite .sub w false (s.x b) (s.x c)) s

/-- SUB, form I (R115). -/
def execSubI (sw : Bool) (d b : BitVec 6) (w : Bool) (imm : BitVec 22) (s : State) : Host.Outcome State Fault Refusal :=
  immediate sw d (aluWrite .sub w false (s.x b) (immValue imm)) s

/-- MUL, form R (R115). -/
def execMulR (sw : Bool) (d b c : BitVec 6) (w : Bool) (s : State) : Host.Outcome State Fault Refusal :=
  grouped sw d (aluWrite .mul w false (s.x b) (s.x c)) 3 s

/-- MUL, form I (R115). -/
def execMulI (sw : Bool) (d b : BitVec 6) (w : Bool) (imm : BitVec 22) (s : State) : Host.Outcome State Fault Refusal :=
  grouped sw d (aluWrite .mul w false (s.x b) (immValue imm)) 3 s

/-- MULH, form R (R115). -/
def execMulhR (sw : Bool) (d b c : BitVec 6) (w n : Bool) (s : State) : Host.Outcome State Fault Refusal :=
  grouped sw d (aluWrite .mulh w n (s.x b) (s.x c)) 3 s

/-- MULH, form I (R115). -/
def execMulhI (sw : Bool) (d b : BitVec 6) (w n : Bool) (imm : BitVec 22) (s : State) : Host.Outcome State Fault Refusal :=
  grouped sw d (aluWrite .mulh w n (s.x b) (immValue imm)) 3 s

/-- DIV, form R (R115, R116). -/
def execDivR (sw : Bool) (d b c : BitVec 6) (w n : Bool) (s : State) : Host.Outcome State Fault Refusal :=
  grouped sw d (aluWrite .div w n (s.x b) (s.x c)) (divLatency w n (s.x b) (s.x c)) s

/-- DIV, form I (R115, R116). -/
def execDivI (sw : Bool) (d b : BitVec 6) (w n : Bool) (imm : BitVec 22) (s : State) : Host.Outcome State Fault Refusal :=
  grouped sw d (aluWrite .div w n (s.x b) (immValue imm)) (divLatency w n (s.x b) (immValue imm)) s

/-- REM, form R (R115, R116). -/
def execRemR (sw : Bool) (d b c : BitVec 6) (w n : Bool) (s : State) : Host.Outcome State Fault Refusal :=
  grouped sw d (aluWrite .rem w n (s.x b) (s.x c)) (divLatency w n (s.x b) (s.x c)) s

/-- REM, form I (R115, R116). -/
def execRemI (sw : Bool) (d b : BitVec 6) (w n : Bool) (imm : BitVec 22) (s : State) : Host.Outcome State Fault Refusal :=
  grouped sw d (aluWrite .rem w n (s.x b) (immValue imm)) (divLatency w n (s.x b) (immValue imm)) s

/-- AND, form R (R115). -/
def execAndR (sw : Bool) (d b c : BitVec 6) (w : Bool) (s : State) : Host.Outcome State Fault Refusal :=
  immediate sw d (aluWrite .and w false (s.x b) (s.x c)) s

/-- AND, form I (R115). -/
def execAndI (sw : Bool) (d b : BitVec 6) (w : Bool) (imm : BitVec 22) (s : State) : Host.Outcome State Fault Refusal :=
  immediate sw d (aluWrite .and w false (s.x b) (immValue imm)) s

/-- OR, form R (R115). -/
def execOrR (sw : Bool) (d b c : BitVec 6) (w : Bool) (s : State) : Host.Outcome State Fault Refusal :=
  immediate sw d (aluWrite .or w false (s.x b) (s.x c)) s

/-- OR, form I (R115). -/
def execOrI (sw : Bool) (d b : BitVec 6) (w : Bool) (imm : BitVec 22) (s : State) : Host.Outcome State Fault Refusal :=
  immediate sw d (aluWrite .or w false (s.x b) (immValue imm)) s

/-- XOR, form R (R115). -/
def execXorR (sw : Bool) (d b c : BitVec 6) (w : Bool) (s : State) : Host.Outcome State Fault Refusal :=
  immediate sw d (aluWrite .xor w false (s.x b) (s.x c)) s

/-- XOR, form I (R115). -/
def execXorI (sw : Bool) (d b : BitVec 6) (w : Bool) (imm : BitVec 22) (s : State) : Host.Outcome State Fault Refusal :=
  immediate sw d (aluWrite .xor w false (s.x b) (immValue imm)) s

/-- ANDN, form R (R115). -/
def execAndnR (sw : Bool) (d b c : BitVec 6) (w : Bool) (s : State) : Host.Outcome State Fault Refusal :=
  immediate sw d (aluWrite .andn w false (s.x b) (s.x c)) s

/-- ANDN, form I (R115). -/
def execAndnI (sw : Bool) (d b : BitVec 6) (w : Bool) (imm : BitVec 22) (s : State) : Host.Outcome State Fault Refusal :=
  immediate sw d (aluWrite .andn w false (s.x b) (immValue imm)) s

/-- SHL, form R (R115). -/
def execShlR (sw : Bool) (d b c : BitVec 6) (w : Bool) (s : State) : Host.Outcome State Fault Refusal :=
  immediate sw d (aluWrite .shl w false (s.x b) (s.x c)) s

/-- SHL, form I (R115). -/
def execShlI (sw : Bool) (d b : BitVec 6) (w : Bool) (imm : BitVec 22) (s : State) : Host.Outcome State Fault Refusal :=
  immediate sw d (aluWrite .shl w false (s.x b) (immValue imm)) s

/-- SHR, form R (R115). -/
def execShrR (sw : Bool) (d b c : BitVec 6) (w : Bool) (s : State) : Host.Outcome State Fault Refusal :=
  immediate sw d (aluWrite .shr w false (s.x b) (s.x c)) s

/-- SHR, form I (R115). -/
def execShrI (sw : Bool) (d b : BitVec 6) (w : Bool) (imm : BitVec 22) (s : State) : Host.Outcome State Fault Refusal :=
  immediate sw d (aluWrite .shr w false (s.x b) (immValue imm)) s

/-- SRA, form R (R115). -/
def execSraR (sw : Bool) (d b c : BitVec 6) (w : Bool) (s : State) : Host.Outcome State Fault Refusal :=
  immediate sw d (aluWrite .sra w false (s.x b) (s.x c)) s

/-- SRA, form I (R115). -/
def execSraI (sw : Bool) (d b : BitVec 6) (w : Bool) (imm : BitVec 22) (s : State) : Host.Outcome State Fault Refusal :=
  immediate sw d (aluWrite .sra w false (s.x b) (immValue imm)) s

/-- MIN, form R (R115). -/
def execMinR (sw : Bool) (d b c : BitVec 6) (w n : Bool) (s : State) : Host.Outcome State Fault Refusal :=
  immediate sw d (aluWrite .min w n (s.x b) (s.x c)) s

/-- MIN, form I (R115). -/
def execMinI (sw : Bool) (d b : BitVec 6) (w n : Bool) (imm : BitVec 22) (s : State) : Host.Outcome State Fault Refusal :=
  immediate sw d (aluWrite .min w n (s.x b) (immValue imm)) s

/-- MAX, form R (R115). -/
def execMaxR (sw : Bool) (d b c : BitVec 6) (w n : Bool) (s : State) : Host.Outcome State Fault Refusal :=
  immediate sw d (aluWrite .max w n (s.x b) (s.x c)) s

/-- MAX, form I (R115). -/
def execMaxI (sw : Bool) (d b : BitVec 6) (w n : Bool) (imm : BitVec 22) (s : State) : Host.Outcome State Fault Refusal :=
  immediate sw d (aluWrite .max w n (s.x b) (immValue imm)) s

/-- SEL (R118). -/
def execSel (sw : Bool) (d b c k : BitVec 6) (s : State) : Host.Outcome State Fault Refusal :=
  immediate sw d (if s.x k != 0 then s.x b else s.x c) s

/-- LI with a 16-bit literal (R119). -/
def execLi16 (sw : Bool) (d : BitVec 6) (imm : BitVec 16) (s : State) : Host.Outcome State Fault Refusal :=
  immediate sw d (imm.signExtend 64) s

/-- LI with a 32-bit literal (R119). -/
def execLi32 (sw : Bool) (d : BitVec 6) (imm : BitVec 32) (s : State) : Host.Outcome State Fault Refusal :=
  immediate sw d (imm.signExtend 64) s

/-- LI with a 64-bit literal (R119). -/
def execLi64 (sw : Bool) (d : BitVec 6) (imm : BitVec 64) (s : State) : Host.Outcome State Fault Refusal :=
  immediate sw d imm s

/-- LIH (R119): the low half is kept. -/
def execLih (sw : Bool) (d : BitVec 6) (imm : BitVec 32) (s : State) : Host.Outcome State Fault Refusal :=
  immediate sw d (imm ++ (s.x d).setWidth 32) s

/-- CMP's conditions (R120). -/
def condition (k : BitVec 3) (p y : Word) : Bool :=
  match k.toNat with
  | 0 => p == y
  | 1 => p != y
  | 2 => p.slt y
  | 3 => !p.slt y
  | 4 => p.ult y
  | _ => !p.ult y

/-- A condition as a word. -/
def boolWord (b : Bool) : Word := if b then 1 else 0

/-- CMP, form R (R120). -/
def execCmpR (sw : Bool) (d b c : BitVec 6) (k : BitVec 3) (s : State) : Host.Outcome State Fault Refusal :=
  immediate sw d (boolWord (condition k (s.x b) (s.x c))) s

/-- CMP, form I (R120). -/
def execCmpI (sw : Bool) (d b : BitVec 6) (k : BitVec 3) (imm : BitVec 22) (s : State) :
    Host.Outcome State Fault Refusal :=
  immediate sw d (boolWord (condition k (s.x b) (immValue imm))) s

/-- The width a code stands for: 8, 16, 32, 64 (R121). -/
def widthOf (w : BitVec 2) : Nat := 8 * 2 ^ w.toNat

/-- Ones among the low n bits. -/
def countOnes : Nat → Nat → Nat
  | 0, _ => 0
  | n + 1, v => v % 2 + countOnes n (v / 2)

/-- Zeros below the lowest one among the low n bits; n when there is none. -/
def trailingZeros : Nat → Nat → Nat
  | 0, _ => 0
  | n + 1, v => if v % 2 = 1 then 0 else 1 + trailingZeros n (v / 2)

/-- Zeros above the highest one among the low n bits; n when there is none. -/
def leadingZeros (n v : Nat) : Nat :=
  let u := v % 2 ^ n
  if u = 0 then n else n - 1 - Nat.log2 u

/-- CLZ (R121). -/
def execClz (sw : Bool) (d b : BitVec 6) (w : BitVec 2) (s : State) : Host.Outcome State Fault Refusal :=
  immediate sw d (BitVec.ofNat 64 (leadingZeros (widthOf w) (s.x b).toNat)) s

/-- CTZ (R121). -/
def execCtz (sw : Bool) (d b : BitVec 6) (w : BitVec 2) (s : State) : Host.Outcome State Fault Refusal :=
  immediate sw d (BitVec.ofNat 64 (trailingZeros (widthOf w) (s.x b).toNat)) s

/-- POPC (R121). -/
def execPopc (sw : Bool) (d b : BitVec 6) (w : BitVec 2) (s : State) : Host.Outcome State Fault Refusal :=
  immediate sw d (BitVec.ofNat 64 (countOnes (widthOf w) (s.x b).toNat)) s

/-- SEXT (R121). -/
def execSext (sw : Bool) (d b : BitVec 6) (w : BitVec 2) (s : State) : Host.Outcome State Fault Refusal :=
  immediate sw d (sext (s.x b).toNat (widthOf w)) s

/-- ZEXT (R121). -/
def execZext (sw : Bool) (d b : BitVec 6) (w : BitVec 2) (s : State) : Host.Outcome State Fault Refusal :=
  immediate sw d (zext (s.x b).toNat (widthOf w)) s

/-- BFX (R122). -/
def execBfx (sw : Bool) (d b pos len : BitVec 6) (sg : Bool) (s : State) : Host.Outcome State Fault Refusal :=
  let f := (s.x b).toNat / 2 ^ pos.toNat
  immediate sw d (if sg then sext f (fieldLength len) else zext f (fieldLength len)) s

/-- BFI (R122): the field's bits come from x[b], the others from the destination. -/
def execBfi (sw : Bool) (d b pos len : BitVec 6) (s : State) : Host.Outcome State Fault Refusal :=
  let m : Word := BitVec.ofNat 64 (2 ^ fieldLength len - 1) <<< pos.toNat
  immediate sw d ((s.x d &&& ~~~m) ||| ((s.x b <<< pos.toNat) &&& m)) s

/-- PADD and PSUB: the effective address with an exact offset, or pointer-overflow (R50, R123). -/
def pointerSum (sw : Bool) (d b : BitVec 6) (off : Int) (s : State) : Host.Outcome State Fault Refusal :=
  match effective (s.x b) off with
  | .error e => settle sw s (.error e)
  | .ok p => immediate sw d p s

/-- PADD, form R (R123). -/
def execPaddR (sw : Bool) (d b c : BitVec 6) (s : State) : Host.Outcome State Fault Refusal :=
  pointerSum sw d b (s.x c).toInt s

/-- PADD, form I (R123). -/
def execPaddI (sw : Bool) (d b : BitVec 6) (imm : BitVec 22) (s : State) : Host.Outcome State Fault Refusal :=
  pointerSum sw d b imm.toInt s

/-- PSUB, form R (R123). -/
def execPsubR (sw : Bool) (d b c : BitVec 6) (s : State) : Host.Outcome State Fault Refusal :=
  pointerSum sw d b (-(s.x c).toInt) s

/-- PSUB, form I (R123). -/
def execPsubI (sw : Bool) (d b : BitVec 6) (imm : BitVec 22) (s : State) : Host.Outcome State Fault Refusal :=
  pointerSum sw d b (-imm.toInt) s

/-- PTAG (R124): any code and any blog; space and address pass through. -/
def execPtag (sw : Bool) (d b fmt : BitVec 6) (blog : BitVec 4) (s : State) : Host.Outcome State Fault Refusal :=
  immediate sw d (fmt ++ blog ++ (s.x b).setWidth 54) s

/-- PGET (R125). -/
def execPget (sw : Bool) (d b : BitVec 6) (k : BitVec 2) (s : State) : Host.Outcome State Fault Refusal :=
  let p := s.x b
  immediate sw d (BitVec.ofNat 64 (match k.toNat with
    | 0 => ptrFmt p
    | 1 => ptrBlog p
    | 2 => ptrSpace p
    | _ => ptrAddr p)) s

end Sys2Proof.Machine
end

