-- ==== Sys2Proof/Machine/Reliability.lean ====
section
/-!
DEFINITION. Keeping data and cores over hours: parity updates, scrubbing, mirror copies and the retirement of cores (R455 to
R463, R465 to R471).
-/
namespace Sys2Proof.Machine

/-! ### Parity, scrubbing and copies -/

/-- PARITY_UPDATE (R457): the parity line's streamer folds an update, in the order of their arrival. -/
def execParityUpdate (f : Nat) (s : State) : Host.Outcome State Fault Refusal :=
  event s (do
    let u ← s.parityDue.find? (·.id == f)
    if (s.parityDue.find? (·.line == u.line)) = some u then some (s.foldParity u) else none)

/-- PATROL_SCRUB (R461): a line is corrected, rebuilt or poisoned. -/
def execPatrolScrub (line : Nat) (s : State) : Host.Outcome State Fault Refusal :=
  event s (
    let l := lineOf line
    if inHbm l || inCellar l then some (((s.correct 0 [l]).mend 0 [l]).1) else none)

/-- SRAM_SCRUB (R463): a word is written back; a poisoned one has a value that the spec leaves open (DESIGN CHOICE log 46), and its
full bit stays. -/
def execSramScrub (c word : Nat) (s : State) : Host.Outcome State Fault Refusal :=
  event s (
    let a := word / 8 * 8
    let k := s.core c
    if coreExists c && k.poison.contains a then
      some ((s.setCore c { k with store := k.store.write a (wordBytes (Config.freeWord 0 s.fresh))
                                  poison := k.poison.filter (· != a) }).tick)
    else none)

/-- MIRROR_GRANULE_COPY (R458): a granule is copied afresh to its cellar address as it is stored, ciphertext as ciphertext (R482),
and its entry is clean again. -/
def execMirrorGranuleCopy (g : Nat) (s : State) : Host.Outcome State Fault Refusal :=
  event s (do
    let m ← s.mirrors.find? (·.granule == g)
    let r := s.readUnder none 0 (g * 2 ^ 16) (2 ^ 16)
    match r.2 with
    | none => some r.1
    | some x =>
      let t := (r.1.writeUnder none 0 m.cellar x.1).1
      some { t with mirrors := mapFirst (·.granule == g) (fun (m : Mirror) => { m with clean := true }) t.mirrors })

/-! ### Retiring a compute core (R466, R468 to R470) -/

/-- The index that a function's table places on a physical core. -/
def VirtualFunction.indexOf (v : VirtualFunction) (p : Nat) : Option Nat := (List.range 2048).find? (fun i => v.place i == some p)

/-- The index that the repair map places on a physical core. -/
def State.repairIndex (s : State) (p : Nat) : Option Nat := (List.range 2048).find? (fun i => s.repairOf i == some p)

/-- The logical index that a physical core stands for: in the table of a function that owns it, or else in the repair map (R466,
R468). -/
def State.logicalOf (s : State) (p : Nat) : Option Nat :=
  ((s.vfs.filter (·.owns p)).findSome? (·.indexOf p)).orElse (fun _ => s.repairIndex p)

/-- The die of a physical core has room for one more retirement (R466). -/
def State.retireRoom (s : State) (p : Nat) : Bool := (s.retired.filter (fun r => r / 1024 == p / 1024)).length < 32

/-- A spare of a die that no logical index has and that is not retired. -/
def State.spareFree (s : State) (p : Nat) : Bool :=
  !s.retired.contains p && !s.repair.any (fun r => r.2 == some p) && !s.vfs.any (fun v => v.lp.any (fun r => r.2 == some p))

/-- The free spare of the same die whose column is nearest, the lower one on a tie; none after 32 retirements. -/
def State.spareFor (s : State) (p : Nat) : Option Nat :=
  let spares := ((List.range 32).map (fun col => p / 1024 * 1024 + 512 + col)).filter (fun q => s.spareFree q && s.retireRoom p)
  spares.foldl (fun best q =>
    match best with
    | none => some q
    | some b => if absDiff (q % 32) (p % 32) < absDiff (b % 32) (p % 32) then some q else some b) none

/-- What a retirement saves: the contexts with a launch on an index that is the core's, or with its state, and the cores of those
launches. -/
def State.onIndex (s : State) (p idx : Nat) : List (Nat × List CoreId) :=
  let mine := s.launches.filter (fun l => rectHas l.rect idx && s.placeIn l.ctx idx == some p)
  let own := if (s.core idx).ctx = 0 || s.placeOf idx != some p then [] else [(s.core idx).ctx]
  (own ++ mine.map (·.ctx)).eraseDups.map (fun x =>
    (x, ((own.filter (· == x)).map (fun _ => idx) ++ (mine.filter (·.ctx == x)).flatMap (fun l => rectCores l.rect)).eraseDups))

/-- A core's state of a context is still on the chip: loaded, or reserved after a failed save. -/
def State.stillLoaded (s : State) (ctx : Nat) (c : CoreId) : Bool :=
  (s.core c).ctx == ctx && !((s.context ctx).map (fun x => x.saved.any (·.1 == c))).getD false

/-- The save of every launch that holds the index, one job for each context. -/
def State.saveFor (s : State) (l : List (Nat × List CoreId)) : State :=
  l.foldl (fun s x => s.startJob x.1 2048 255 false (x.2.filter (s.stillLoaded x.1))) s

/-- Cores that a failed load has reserved are given up for the save area that still holds their state. -/
def State.releaseReserved (s : State) (l : List (Nat × List CoreId)) : State :=
  l.foldl (fun s x => (x.2.filter (fun c => (s.core c).ctx == x.1 && (s.core c).hold == .reserved)).foldl
    (fun s c => s.setCore c ((s.core c).left c)) s) s

/-- The functions' tables take the new place of what stood on a physical core, and the repair map gains the retirement where its die has
room (R466, R468). -/
def State.remap (s : State) (p : Nat) (q : Option Nat) : State :=
  let move (v : VirtualFunction) : VirtualFunction := match v.indexOf p with
    | some i => { v with lp := assocSet v.lp i q }
    | none => v
  { s with
    vfs := s.vfs.map move
    repair := match s.repairIndex p, s.retireRoom p with
      | some i, true => assocSet s.repair i q
      | _, _ => s.repair
    retired := if s.retireRoom p then p :: s.retired else s.retired
    retireDue := s.retireDue.filter (·.core != p) }

/-- A retirement's first step has begun, for contexts and their cores. -/
def State.beginRetire (s : State) (p : Nat) (l : List (Nat × List CoreId)) : State :=
  { s with retireDue := s.retireDue.filter (·.core != p) ++ [{ core := p, saving := some l }] }

/-- The retirement of a physical compute core, one step at a turn: CTXSAVE, then the tables, the repair map and CTXLOAD of the same
cores (R468, R470). -/
def State.retireCore (s : State) (p : Nat) : Option State :=
  match s.logicalOf p with
  | none => some (s.remap p none)
  | some idx =>
    let on := ((s.retireDue.find? (·.core == p)).bind (·.saving)).getD (s.onIndex p idx)
    if s.saveJobs.any (fun j => on.any (·.1 == j.ctx)) then none
    else if on.any (fun x => x.2.any (s.stillLoaded x.1)) then some ((s.beginRetire p on).saveFor on)
    else
      let t := s.releaseReserved on
      some (on.foldl (fun t x => t.loadCores x.1 2048 255 x.2) (t.remap p (t.spareFor p)))

/-! ### Retiring a hall core (R471) -/

/-- Records that wait on a retired hall core wait on a working one. -/
def State.moveReady (s : State) (c : CoreId) : State :=
  (s.core c).ready.foldl (fun t r => t.toReady c r) (s.setCore c { s.core c with ready := [] })

/-- A hall core leaves the run queue, and its threads move as they come to a boundary; hall 0.0 goes last. -/
def State.retireHall (s : State) (c : CoreId) : Option State :=
  if c = 2048 && s.workingHalls.any (· != 2048) then none
  else
    let t : State := if s.hallRetired c then s else { s with retired := (c + 2048) :: s.retired }
    some ((List.range 4).foldl (fun t n => t.moveThread c n) (t.moveReady c))

/-- CORE_RETIREMENT (R468 to R471): physical core p of the compute cores, or hall core p − 4,096 (DESIGN CHOICE log 72). -/
def execCoreRetirement (p : Nat) (s : State) : Host.Outcome State Fault Refusal :=
  event s (
    if 4096 ≤ p then (if p < 4112 then s.retireHall (p - 2048) else none)
    else if s.retired.contains p || 17 ≤ p / 32 % 32 then none
    else s.retireCore p)

end Sys2Proof.Machine
end

