-- ==== Sys2Proof/Machine/Power.lean ====
section
/-!
DEFINITION. Power states, reset, the lifecycle and management (R395, R436, R480, R483, R485, R486).
-/
namespace Sys2Proof.Machine

/-- DROOP_EVENT (R395): only DROOPCNT changes. -/
def execDroopEvent (c : Nat) (s : State) : Host.Outcome State Fault Refusal :=
  event s (if coreExists c then some (s.setCore c { s.core c with droops := (s.core c).droops + 1 }) else none)

/-! ### Power states (R483) -/

/-- A core has nothing to do: every seat free, and its queues empty. -/
def Core.idle (k : Core) : Bool :=
  (List.range 4).all (fun n => (k.seat n).st == .free) && k.ready == [] && k.work == [] && k.msgq == [] && k.bq == [] &&
    k.matrix == [] && k.mstep.isNone && k.cbPending == []

/-- CORE_PARK (R483): 65,536 cc after the last issue on any seat (DEDUCED log 47). -/
def execCorePark (c : Nat) (s : State) : Host.Outcome State Fault Refusal :=
  event s (
    let k := s.core c
    if c < 2048 && k.power == .active && k.hold == .none && !k.haltQuick && k.idle &&
        (List.range 4).all (fun n => (k.seat n).lastIssue + 65536 ≤ s.cycle) then
      some (s.setCore c { k with power := .parked })
    else none)

/-- CORE_UNPARK (R483). -/
def execCoreUnpark (c : Nat) (s : State) : Host.Outcome State Fault Refusal :=
  event s (if (s.core c).power = .parked then some (s.unpark c) else none)

/-- CORE_POWER_OFF (R483): a core whose state is saved, or that has none. -/
def execCorePowerOff (c : Nat) (s : State) : Host.Outcome State Fault Refusal :=
  event s (
    let k := s.core c
    if c < 2048 && k.power != .off && (k.hold == .saved || (k.ctx == 0 && k.hold == .none)) then
      some (s.setCore c { Core.init c with hold := k.hold, droops := k.droops, clockStep := k.clockStep, power := .off })
    else none)

/-- Cc in a second (R6). -/
def second : Nat := 4000000000

/-- PACKAGE_IDLE (R483): no context is loaded, and no request has come for a second. -/
def execPackageIdle (s : State) : Host.Outcome State Fault Refusal :=
  event s (
    if !s.idle && s.cores.all (fun p => p.2.ctx == 0) && s.requestAt + second ≤ s.cycle then some { s with idle := true } else none)

/-- PACKAGE_WAKE (R483). -/
def execPackageWake (s : State) : Host.Outcome State Fault Refusal := event s (if s.idle then some s.awaken else none)

/-! ### Reset (R466, R485) -/

/-- POWER_ON_RESET (R485): what module flash and the always-on domain hold stays, and every logical-to-physical table has the
repair map. -/
def execPowerOnReset (s : State) : Host.Outcome State Fault Refusal :=
  .next { State.reset with
    agenda := s.agenda, fresh := s.fresh, pkgId := s.pkgId, lifecycle := s.lifecycle, repair := s.repair, retired := s.retired
    vfs := s.vfs.map (fun (v : VirtualFunction) => { v with active := false, lp := s.repair }) }

/-! ### Management (R436, R480, R486) -/

/-- LIFECYCLE_MOVE (R480): once, with the vendor credential. -/
def execLifecycleMove (cred : Nat) (s : State) : Host.Outcome State Fault Refusal :=
  event s (
    if s.lifecycle = .provisioning && cred = Config.vendorCredential then
      let t := (s.sessions.map (·.id)).foldl (fun (s : State) id => s.closeSession id) s
      some { t with
        lifecycle := .deployed
        vfs := t.vfs.map (fun (v : VirtualFunction) => { v with active := false, key := none, credential := none }) }
    else none)

/-- PACKAGE_ID_WRITE (R436, R480): in provisioning only. -/
def execPackageIdWrite (v : Nat) (s : State) : Host.Outcome State Fault Refusal :=
  event s (if s.lifecycle = .provisioning && v < 4096 then some { s with pkgId := BitVec.ofNat 12 v } else none)

/-- POWER_CAP (R486): the controllers meet it by holding clock steps. -/
def execPowerCap (v : Nat) (s : State) : Host.Outcome State Fault Refusal := .next { s with powerCap := v }

/-- What attestation measures (R486): the boot ROM, the firmware, the repair map, the lifecycle and the sealed functions. -/
def State.measurements (s : State) : List Word :=
  let sealedMask := ((s.vfs.filter (·.isSealed)).map (fun v => 2 ^ v.vf)).foldl (· + ·) 0
  [Config.measurement 0, Config.measurement 1, Config.repairDigest s.repair,
   if s.lifecycle = .deployed then 1 else 0, BitVec.ofNat 64 sealedMask, BitVec.ofNat 64 (sealedMask / 2 ^ 64)]

/-- ATTESTATION (R486): each measurement with its signature by the device key. -/
def execAttestation (nonce : Nat) (s : State) : Host.Outcome State Fault Refusal :=
  .next (s.reply nonce 0 (s.measurements.flatMap (fun m => [m, BitVec.ofNat 64 (Config.signature (nonce * 2 ^ 64 + m.toNat))])))

end Sys2Proof.Machine
end

