-- ==== Sys2Proof/Machine/Dispatch.lean ====
section
/-!
DEFINITION. One arm per row of the opcode table: the meaning that exec gives each instruction and each event.
-/
namespace Sys2Proof.Machine
open Sys2Proof

def exec (i : Instr) (s : State) : Host.Outcome State Fault Refusal :=
  match i with
  | .nop sw => Sys2Proof.Machine.execNop sw s
  | .nopT1 sw x => Sys2Proof.Machine.execNopT1 sw x s
  | .nopT2 sw x => Sys2Proof.Machine.execNopT2 sw x s
  | .nopT3 sw x => Sys2Proof.Machine.execNopT3 sw x s
  | .j sw off => Sys2Proof.Machine.execJ sw off s
  | .jal sw l off => Sys2Proof.Machine.execJal sw l off s
  | .jr sw t => Sys2Proof.Machine.execJr sw t s
  | .beq sw a b off => Sys2Proof.Machine.execBeq sw a b off s
  | .bne sw a b off => Sys2Proof.Machine.execBne sw a b off s
  | .blt sw a b off => Sys2Proof.Machine.execBlt sw a b off s
  | .bge sw a b off => Sys2Proof.Machine.execBge sw a b off s
  | .bltn sw a b off => Sys2Proof.Machine.execBltn sw a b off s
  | .bgen sw a b off => Sys2Proof.Machine.execBgen sw a b off s
  | .loop sw c o => Sys2Proof.Machine.execLoop sw c o s
  | .hend sw => Sys2Proof.Machine.execHend sw s
  | .chunk sw => Sys2Proof.Machine.execChunk sw s
  | .trap sw code => Sys2Proof.Machine.execTrap sw code s
  | .trapArg sw code arg => Sys2Proof.Machine.execTrapArg sw code arg s
  | .sysret sw => Sys2Proof.Machine.execSysret sw s
  | .addR sw d b c w => Sys2Proof.Machine.execAddR sw d b c w s
  | .addI sw d b w imm => Sys2Proof.Machine.execAddI sw d b w imm s
  | .subR sw d b c w => Sys2Proof.Machine.execSubR sw d b c w s
  | .subI sw d b w imm => Sys2Proof.Machine.execSubI sw d b w imm s
  | .mulR sw d b c w => Sys2Proof.Machine.execMulR sw d b c w s
  | .mulI sw d b w imm => Sys2Proof.Machine.execMulI sw d b w imm s
  | .mulhR sw d b c w n => Sys2Proof.Machine.execMulhR sw d b c w n s
  | .mulhI sw d b w n imm => Sys2Proof.Machine.execMulhI sw d b w n imm s
  | .divR sw d b c w n => Sys2Proof.Machine.execDivR sw d b c w n s
  | .divI sw d b w n imm => Sys2Proof.Machine.execDivI sw d b w n imm s
  | .remR sw d b c w n => Sys2Proof.Machine.execRemR sw d b c w n s
  | .remI sw d b w n imm => Sys2Proof.Machine.execRemI sw d b w n imm s
  | .andR sw d b c w => Sys2Proof.Machine.execAndR sw d b c w s
  | .andI sw d b w imm => Sys2Proof.Machine.execAndI sw d b w imm s
  | .orR sw d b c w => Sys2Proof.Machine.execOrR sw d b c w s
  | .orI sw d b w imm => Sys2Proof.Machine.execOrI sw d b w imm s
  | .xorR sw d b c w => Sys2Proof.Machine.execXorR sw d b c w s
  | .xorI sw d b w imm => Sys2Proof.Machine.execXorI sw d b w imm s
  | .andnR sw d b c w => Sys2Proof.Machine.execAndnR sw d b c w s
  | .andnI sw d b w imm => Sys2Proof.Machine.execAndnI sw d b w imm s
  | .shlR sw d b c w => Sys2Proof.Machine.execShlR sw d b c w s
  | .shlI sw d b w imm => Sys2Proof.Machine.execShlI sw d b w imm s
  | .shrR sw d b c w => Sys2Proof.Machine.execShrR sw d b c w s
  | .shrI sw d b w imm => Sys2Proof.Machine.execShrI sw d b w imm s
  | .sraR sw d b c w => Sys2Proof.Machine.execSraR sw d b c w s
  | .sraI sw d b w imm => Sys2Proof.Machine.execSraI sw d b w imm s
  | .minR sw d b c w n => Sys2Proof.Machine.execMinR sw d b c w n s
  | .minI sw d b w n imm => Sys2Proof.Machine.execMinI sw d b w n imm s
  | .maxR sw d b c w n => Sys2Proof.Machine.execMaxR sw d b c w n s
  | .maxI sw d b w n imm => Sys2Proof.Machine.execMaxI sw d b w n imm s
  | .sel sw d b c k => Sys2Proof.Machine.execSel sw d b c k s
  | .li16 sw d imm => Sys2Proof.Machine.execLi16 sw d imm s
  | .li32 sw d imm => Sys2Proof.Machine.execLi32 sw d imm s
  | .li64 sw d imm => Sys2Proof.Machine.execLi64 sw d imm s
  | .lih sw d imm => Sys2Proof.Machine.execLih sw d imm s
  | .cmpR sw d b c k => Sys2Proof.Machine.execCmpR sw d b c k s
  | .cmpI sw d b k imm => Sys2Proof.Machine.execCmpI sw d b k imm s
  | .clz sw d b w => Sys2Proof.Machine.execClz sw d b w s
  | .ctz sw d b w => Sys2Proof.Machine.execCtz sw d b w s
  | .popc sw d b w => Sys2Proof.Machine.execPopc sw d b w s
  | .sext sw d b w => Sys2Proof.Machine.execSext sw d b w s
  | .zext sw d b w => Sys2Proof.Machine.execZext sw d b w s
  | .bfx sw d b pos len sg => Sys2Proof.Machine.execBfx sw d b pos len sg s
  | .bfi sw d b pos len => Sys2Proof.Machine.execBfi sw d b pos len s
  | .paddR sw d b c => Sys2Proof.Machine.execPaddR sw d b c s
  | .paddI sw d b imm => Sys2Proof.Machine.execPaddI sw d b imm s
  | .psubR sw d b c => Sys2Proof.Machine.execPsubR sw d b c s
  | .psubI sw d b imm => Sys2Proof.Machine.execPsubI sw d b imm s
  | .ptag sw d b fmt blog => Sys2Proof.Machine.execPtag sw d b fmt blog s
  | .pget sw d b k => Sys2Proof.Machine.execPget sw d b k s
  | .fadd sw d b c p rnd sat => Sys2Proof.Machine.execFadd sw d b c p rnd sat s
  | .fsub sw d b c p rnd sat => Sys2Proof.Machine.execFsub sw d b c p rnd sat s
  | .fmul sw d b c p rnd sat => Sys2Proof.Machine.execFmul sw d b c p rnd sat s
  | .fmin sw d b c p => Sys2Proof.Machine.execFmin sw d b c p s
  | .fmax sw d b c p => Sys2Proof.Machine.execFmax sw d b c p s
  | .ffma sw d b c e p rnd sat => Sys2Proof.Machine.execFfma sw d b c e p rnd sat s
  | .fdiv sw d b c p rnd sat => Sys2Proof.Machine.execFdiv sw d b c p rnd sat s
  | .fsqrt sw d b p rnd sat => Sys2Proof.Machine.execFsqrt sw d b p rnd sat s
  | .fcmp sw d b c k p => Sys2Proof.Machine.execFcmp sw d b c k p s
  | .fcvt sw d b dst rnd sat src => Sys2Proof.Machine.execFcvt sw d b dst rnd sat src s
  | .fclass sw d b p => Sys2Proof.Machine.execFclass sw d b p s
  | .ld sw d b w imm => Sys2Proof.Machine.execLd sw d b w imm s
  | .st sw a b w imm => Sys2Proof.Machine.execSt sw a b w imm s
  | .ldf sw d b imm => Sys2Proof.Machine.execLdf sw d b imm s
  | .ldfe sw d b imm => Sys2Proof.Machine.execLdfe sw d b imm s
  | .stf sw a b imm => Sys2Proof.Machine.execStf sw a b imm s
  | .sete sw a l => Sys2Proof.Machine.execSete sw a l s
  | .setf sw a l => Sys2Proof.Machine.execSetf sw a l s
  | .caddR sw c b => Sys2Proof.Machine.execCaddR sw c b s
  | .caddI sw c imm => Sys2Proof.Machine.execCaddI sw c imm s
  | .cread sw d c => Sys2Proof.Machine.execCread sw d c s
  | .waitc sw c t => Sys2Proof.Machine.execWaitc sw c t s
  | .cexpectR sw c b => Sys2Proof.Machine.execCexpectR sw c b s
  | .cexpectI sw c imm => Sys2Proof.Machine.execCexpectI sw c imm s
  | .bainitR sw c b => Sys2Proof.Machine.execBainitR sw c b s
  | .bainitI sw c imm => Sys2Proof.Machine.execBainitI sw c imm s
  | .barrive sw c p => Sys2Proof.Machine.execBarrive sw c p s
  | .badrop sw c p => Sys2Proof.Machine.execBadrop sw c p s
  | .trigarm sw e b c d => Sys2Proof.Machine.execTrigarm sw e b c d s
  | .trigdis sw e => Sys2Proof.Machine.execTrigdis sw e s
  | .mbcfg sw b c d => Sys2Proof.Machine.execMbcfg sw b c d s
  | .mbpost sw b c => Sys2Proof.Machine.execMbpost sw b c s
  | .mbtake sw d b => Sys2Proof.Machine.execMbtake sw d b s
  | .lsamo sw d b c e op => Sys2Proof.Machine.execLsamo sw d b c e op s
  | .vadd sw d b c fmt q rnd sat z => Sys2Proof.Machine.execVadd sw d b c fmt q rnd sat z s
  | .vsub sw d b c fmt q rnd sat z => Sys2Proof.Machine.execVsub sw d b c fmt q rnd sat z s
  | .vmul sw d b c fmt q rnd sat z => Sys2Proof.Machine.execVmul sw d b c fmt q rnd sat z s
  | .vmin sw d b c fmt q z => Sys2Proof.Machine.execVmin sw d b c fmt q z s
  | .vmax sw d b c fmt q z => Sys2Proof.Machine.execVmax sw d b c fmt q z s
  | .vfma sw d b c e fmt q rnd sat z => Sys2Proof.Machine.execVfma sw d b c e fmt q rnd sat z s
  | .vabs sw d b fmt q sat z => Sys2Proof.Machine.execVabs sw d b fmt q sat z s
  | .vneg sw d b fmt q sat z => Sys2Proof.Machine.execVneg sw d b fmt q sat z s
  | .vdiv sw d b c fmt q rnd sat z => Sys2Proof.Machine.execVdiv sw d b c fmt q rnd sat z s
  | .vrcp sw d b fmt q rnd sat z => Sys2Proof.Machine.execVrcp sw d b fmt q rnd sat z s
  | .vrsq sw d b fmt q rnd sat z => Sys2Proof.Machine.execVrsq sw d b fmt q rnd sat z s
  | .vsqrt sw d b fmt q rnd sat z => Sys2Proof.Machine.execVsqrt sw d b fmt q rnd sat z s
  | .vexp2 sw d b fmt q rnd sat z => Sys2Proof.Machine.execVexp2 sw d b fmt q rnd sat z s
  | .vlog2 sw d b fmt q rnd sat z => Sys2Proof.Machine.execVlog2 sw d b fmt q rnd sat z s
  | .vand sw d b c fmt q z => Sys2Proof.Machine.execVand sw d b c fmt q z s
  | .vor sw d b c fmt q z => Sys2Proof.Machine.execVor sw d b c fmt q z s
  | .vxor sw d b c fmt q z => Sys2Proof.Machine.execVxor sw d b c fmt q z s
  | .vandn sw d b c fmt q z => Sys2Proof.Machine.execVandn sw d b c fmt q z s
  | .vshl sw d b c fmt q z => Sys2Proof.Machine.execVshl sw d b c fmt q z s
  | .vshr sw d b c fmt q z => Sys2Proof.Machine.execVshr sw d b c fmt q z s
  | .vsra sw d b c fmt q z => Sys2Proof.Machine.execVsra sw d b c fmt q z s
  | .vcmp sw d b c fmt q k => Sys2Proof.Machine.execVcmp sw d b c fmt q k s
  | .vsel sw d b c fmt q => Sys2Proof.Machine.execVsel sw d b c fmt q s
  | .vred sw d b fmt q rnd sat op => Sys2Proof.Machine.execVred sw d b fmt q rnd sat op s
  | .vscan sw d b fmt q rnd sat z op => Sys2Proof.Machine.execVscan sw d b fmt q rnd sat z op s
  | .vld sw d b imm => Sys2Proof.Machine.execVld sw d b imm s
  | .vst sw a b imm => Sys2Proof.Machine.execVst sw a b imm s
  | .vldf sw d b imm => Sys2Proof.Machine.execVldf sw d b imm s
  | .vstf sw a b imm => Sys2Proof.Machine.execVstf sw a b imm s
  | .vgath sw d b c fmt q z => Sys2Proof.Machine.execVgath sw d b c fmt q z s
  | .vscat sw a b c fmt q => Sys2Proof.Machine.execVscat sw a b c fmt q s
  | .vbcast sw d b fmt q z => Sys2Proof.Machine.execVbcast sw d b fmt q z s
  | .vextr sw d b c fmt => Sys2Proof.Machine.execVextr sw d b c fmt s
  | .vperm sw d b c fmt q z => Sys2Proof.Machine.execVperm sw d b c fmt q z s
  | .vcvt sw d b dst q rnd sat src z part => Sys2Proof.Machine.execVcvt sw d b dst q rnd sat src z part s
  | .vscale sw d b c fmt q rnd sat z => Sys2Proof.Machine.execVscale sw d b c fmt q rnd sat z s
  | .vqnt sw d b e efmt rnd blog src => Sys2Proof.Machine.execVqnt sw d b e efmt rnd blog src s
  | .vdqnt sw d b e efmt q rnd sat blog dst z => Sys2Proof.Machine.execVdqnt sw d b e efmt q rnd sat blog dst z s
  | .vcbdec sw d b q rnd sat w ofmt z => Sys2Proof.Machine.execVcbdec sw d b q rnd sat w ofmt z s
  | .vcbdecLoad sw b => Sys2Proof.Machine.execVcbdecLoad sw b s
  | .vclass sw d b fmt q nfs set => Sys2Proof.Machine.execVclass sw d b fmt q nfs set s
  | .qand sw d b c => Sys2Proof.Machine.execQand sw d b c s
  | .qor sw d b c => Sys2Proof.Machine.execQor sw d b c s
  | .qxor sw d b c => Sys2Proof.Machine.execQxor sw d b c s
  | .qnot sw d b => Sys2Proof.Machine.execQnot sw d b s
  | .qmov sw d b => Sys2Proof.Machine.execQmov sw d b s
  | .qcnt sw d b => Sys2Proof.Machine.execQcnt sw d b s
  | .mma sw m ga gb fmt steps zf => Sys2Proof.Machine.execMma sw m ga gb fmt steps zf s
  | .mmag sw m ga gb fmt steps zf wc => Sys2Proof.Machine.execMmag sw m ga gb fmt steps zf wc s
  | .dmma sw m ga gb steps zf => Sys2Proof.Machine.execDmma sw m ga gb steps zf s
  | .ringcfg sw g b => Sys2Proof.Machine.execRingcfg sw g b s
  | .rpub sw g b => Sys2Proof.Machine.execRpub sw g b s
  | .rstat sw d g => Sys2Proof.Machine.execRstat sw d g s
  | .rreset sw g => Sys2Proof.Machine.execRreset sw g s
  | .sclcfg sw g link h => Sys2Proof.Machine.execSclcfg sw g link h s
  | .accz sw m => Sys2Proof.Machine.execAccz sw m s
  | .accrd sw d m row => Sys2Proof.Machine.execAccrd sw d m row s
  | .accwr sw a m row => Sys2Proof.Machine.execAccwr sw a m row s
  | .accscl sw m b => Sys2Proof.Machine.execAccscl sw m b s
  | .mgate sw k b => Sys2Proof.Machine.execMgate sw k b s
  | .mwake sw k => Sys2Proof.Machine.execMwake sw k s
  | .mwait sw d => Sys2Proof.Machine.execMwait sw d s
  | .send sw a b n h => Sys2Proof.Machine.execSend sw a b n h s
  | .bqfetch sw a b c d dc sc => Sys2Proof.Machine.execBqfetch sw a b c d dc sc s
  | .bqstore sw a b c d dc sc => Sys2Proof.Machine.execBqstore sw a b c d dc sc s
  | .bqtile sw a b c d dc sc => Sys2Proof.Machine.execBqtile sw a b c d dc sc s
  | .bqgath sw a b c d dc sc => Sys2Proof.Machine.execBqgath sw a b c d dc sc s
  | .bqamo sw a b c dc sc op => Sys2Proof.Machine.execBqamo sw a b c dc sc op s
  | .bqcas sw a b c d dc sc => Sys2Proof.Machine.execBqcas sw a b c d dc sc s
  | .lscopy sw b c d dc sc => Sys2Proof.Machine.execLscopy sw b c d dc sc s
  | .xcopy sw b c d dc sc stream => Sys2Proof.Machine.execXcopy sw b c d dc sc stream s
  | .fence sw scope order r => Sys2Proof.Machine.execFence sw scope order r s
  | .tagalloc sw d n => Sys2Proof.Machine.execTagalloc sw d n s
  | .tagfree sw t n => Sys2Proof.Machine.execTagfree sw t n s
  | .tagbind sw t r => Sys2Proof.Machine.execTagbind sw t r s
  | .meet sw t b n => Sys2Proof.Machine.execMeet sw t b n s
  | .exroute sw a b c d => Sys2Proof.Machine.execExroute sw a b c d s
  | .exrepl0 sw a b c => Sys2Proof.Machine.execExrepl0 sw a b c s
  | .exrepl1 sw a b c d => Sys2Proof.Machine.execExrepl1 sw a b c d s
  | .exretire0 sw a b c => Sys2Proof.Machine.execExretire0 sw a b c s
  | .exretire1 sw a b c => Sys2Proof.Machine.execExretire1 sw a b c s
  | .exstep0 sw a b => Sys2Proof.Machine.execExstep0 sw a b s
  | .exstep1 sw a b c => Sys2Proof.Machine.execExstep1 sw a b c s
  | .exstat sw a b c => Sys2Proof.Machine.execExstat sw a b c s
  | .exlook sw a b c => Sys2Proof.Machine.execExlook sw a b c s
  | .gfork sw a b c => Sys2Proof.Machine.execGfork sw a b c s
  | .greward sw b c => Sys2Proof.Machine.execGreward sw b c s
  | .gcancel sw b c => Sys2Proof.Machine.execGcancel sw b c s
  | .gcfgConfigure sw a b => Sys2Proof.Machine.execGcfgConfigure sw a b s
  | .gcfgRelease sw a c => Sys2Proof.Machine.execGcfgRelease sw a c s
  | .gstat sw a b c => Sys2Proof.Machine.execGstat sw a b c s
  | .tspawn sw a b => Sys2Proof.Machine.execTspawn sw a b s
  | .tspawnat sw a b c => Sys2Proof.Machine.execTspawnat sw a b c s
  | .qpush sw a qn => Sys2Proof.Machine.execQpush sw a qn s
  | .qpop sw a b qn => Sys2Proof.Machine.execQpop sw a b qn s
  | .wlpush sw a => Sys2Proof.Machine.execWlpush sw a s
  | .wlpop sw a b => Sys2Proof.Machine.execWlpop sw a b s
  | .sysr sw d num => Sys2Proof.Machine.execSysr sw d num s
  | .sysw sw a num => Sys2Proof.Machine.execSysw sw a num s
  | .seedWrite sw a => Sys2Proof.Machine.execSeedWrite sw a s
  | .hdecideResume sw a => Sys2Proof.Machine.execHdecideResume sw a s
  | .hdecideEndContinuation sw a => Sys2Proof.Machine.execHdecideEndContinuation sw a s
  | .hdecideEndLaunch sw a => Sys2Proof.Machine.execHdecideEndLaunch sw a s
  | .capr sw d num => Sys2Proof.Machine.execCapr sw d num s
  | .rfcfg sw b op ty w => Sys2Proof.Machine.execRfcfg sw b op ty w s
  | .tlbinv sw a b => Sys2Proof.Machine.execTlbinv sw a b s
  | .ctxsave sw k b c => Sys2Proof.Machine.execCtxsave sw k b c s
  | .ctxload sw k b c => Sys2Proof.Machine.execCtxload sw k b c s
  | .lpmap sw d b c => Sys2Proof.Machine.execLpmap sw d b c s
  | .vfcfgConfigure sw d b c => Sys2Proof.Machine.execVfcfgConfigure sw d b c s
  | .vfcfgActivate sw d b c => Sys2Proof.Machine.execVfcfgActivate sw d b c s
  | .vfcfgDeactivate sw d b c => Sys2Proof.Machine.execVfcfgDeactivate sw d b c s
  | .winset sw k b c d rights => Sys2Proof.Machine.execWinset sw k b c d rights s
  | .winclr sw k => Sys2Proof.Machine.execWinclr sw k s
  | .parkPoint c k => Sys2Proof.Machine.execParkPoint c k s
  | .deferredResultLanding f => Sys2Proof.Machine.execDeferredResultLanding f s
  | .fullWaitSatisfied c k => Sys2Proof.Machine.execFullWaitSatisfied c k s
  | .implicitBoundary c k => Sys2Proof.Machine.execImplicitBoundary c k s
  | .commitGrant c k => Sys2Proof.Machine.execCommitGrant c k s
  | .budgetExceeded c k => Sys2Proof.Machine.execBudgetExceeded c k s
  | .conflictAbort c k => Sys2Proof.Machine.execConflictAbort c k s
  | .seatTransferTake c k => Sys2Proof.Machine.execSeatTransferTake c k s
  | .seatTransferReturn f => Sys2Proof.Machine.execSeatTransferReturn f s
  | .seatTakeWork c k => Sys2Proof.Machine.execSeatTakeWork c k s
  | .priorityPullReturn f => Sys2Proof.Machine.execPriorityPullReturn f s
  | .recordReady f => Sys2Proof.Machine.execRecordReady f s
  | .loadLevelling lid => Sys2Proof.Machine.execLoadLevelling lid s
  | .levelledRecordArrival f => Sys2Proof.Machine.execLevelledRecordArrival f s
  | .counterUpdateAtOwner f => Sys2Proof.Machine.execCounterUpdateAtOwner f s
  | .waitcArmAtOwner f => Sys2Proof.Machine.execWaitcArmAtOwner f s
  | .triggerArmAtOwner f => Sys2Proof.Machine.execTriggerArmAtOwner f s
  | .lsamoExecute f => Sys2Proof.Machine.execLsamoExecute f s
  | .mailboxOperation f => Sys2Proof.Machine.execMailboxOperation f s
  | .messageArrival f => Sys2Proof.Machine.execMessageArrival f s
  | .messageQueueRetry f => Sys2Proof.Machine.execMessageQueueRetry f s
  | .bqEntry f => Sys2Proof.Machine.execBqEntry f s
  | .bqPacketComplete c e p => Sys2Proof.Machine.execBqPacketComplete c e p s
  | .bqEntryComplete c e => Sys2Proof.Machine.execBqEntryComplete c e s
  | .sourceEndAdd c e => Sys2Proof.Machine.execSourceEndAdd c e s
  | .region3Delivery f => Sys2Proof.Machine.execRegion3Delivery f s
  | .streamerAtomic c e => Sys2Proof.Machine.execStreamerAtomic c e s
  | .translationWalk w => Sys2Proof.Machine.execTranslationWalk w s
  | .lineFetch c k => Sys2Proof.Machine.execLineFetch c k s
  | .raftersResult r => Sys2Proof.Machine.execRaftersResult r s
  | .horizonReduction lid => Sys2Proof.Machine.execHorizonReduction lid s
  | .horizonResult lid => Sys2Proof.Machine.execHorizonResult lid s
  | .taskCommit c k => Sys2Proof.Machine.execTaskCommit c k s
  | .taskRerun c k => Sys2Proof.Machine.execTaskRerun c k s
  | .tagfreeAtLarder f => Sys2Proof.Machine.execTagfreeAtLarder f s
  | .tagPurge f => Sys2Proof.Machine.execTagPurge f s
  | .bindArrival f => Sys2Proof.Machine.execBindArrival f s
  | .meetOperandArrival f => Sys2Proof.Machine.execMeetOperandArrival f s
  | .meetCreationCheck c e => Sys2Proof.Machine.execMeetCreationCheck c e s
  | .meetNakRetry c e => Sys2Proof.Machine.execMeetNakRetry c e s
  | .meetExpiry c e => Sys2Proof.Machine.execMeetExpiry c e s
  | .routeStart c r => Sys2Proof.Machine.execRouteStart c r s
  | .entryCacheFill f => Sys2Proof.Machine.execEntryCacheFill f s
  | .expertClaim f => Sys2Proof.Machine.execExpertClaim f s
  | .claimReply f => Sys2Proof.Machine.execClaimReply f s
  | .metadataLanding f => Sys2Proof.Machine.execMetadataLanding f s
  | .directoryOperation f => Sys2Proof.Machine.execDirectoryOperation f s
  | .setBound f => Sys2Proof.Machine.execSetBound f s
  | .directoryCountAdd f => Sys2Proof.Machine.execDirectoryCountAdd f s
  | .gforkTaken f => Sys2Proof.Machine.execGforkTaken f s
  | .grewardTaken f => Sys2Proof.Machine.execGrewardTaken f s
  | .gcancelTaken f => Sys2Proof.Machine.execGcancelTaken f s
  | .gcfgTaken f => Sys2Proof.Machine.execGcfgTaken f s
  | .gstatTaken f => Sys2Proof.Machine.execGstatTaken f s
  | .groupDeadline c g => Sys2Proof.Machine.execGroupDeadline c g s
  | .groupResultWrite f => Sys2Proof.Machine.execGroupResultWrite f s
  | .initialRecordSend lid => Sys2Proof.Machine.execInitialRecordSend lid s
  | .larderPush f => Sys2Proof.Machine.execLarderPush f s
  | .larderPop f => Sys2Proof.Machine.execLarderPop f s
  | .priorityPull f => Sys2Proof.Machine.execPriorityPull f s
  | .queueExtension f => Sys2Proof.Machine.execQueueExtension f s
  | .energyBudgetReached lid => Sys2Proof.Machine.execEnergyBudgetReached lid s
  | .droopEvent c => Sys2Proof.Machine.execDroopEvent c s
  | .sliceEnd c k => Sys2Proof.Machine.execSliceEnd c k s
  | .hallServiceEntry c k => Sys2Proof.Machine.execHallServiceEntry c k s
  | .trapRecordPost f => Sys2Proof.Machine.execTrapRecordPost f s
  | .deferredTrapArrival f => Sys2Proof.Machine.execDeferredTrapArrival f s
  | .stopArrival f => Sys2Proof.Machine.execStopArrival f s
  | .coreSave c => Sys2Proof.Machine.execCoreSave c s
  | .saveFailed c off => Sys2Proof.Machine.execSaveFailed c off s
  | .contextRestore f => Sys2Proof.Machine.execContextRestore f s
  | .xcopyStreamEntry f => Sys2Proof.Machine.execXcopyStreamEntry f s
  | .xcopyPacketArrival f => Sys2Proof.Machine.execXcopyPacketArrival f s
  | .xcopyAck f => Sys2Proof.Machine.execXcopyAck f s
  | .portDown p => Sys2Proof.Machine.execPortDown p s
  | .portUp p => Sys2Proof.Machine.execPortUp p s
  | .createContext tag vf prio save => Sys2Proof.Machine.execCreateContext tag vf prio save s
  | .destroyContext tag ctx => Sys2Proof.Machine.execDestroyContext tag ctx s
  | .map tag ctx kind idx e => Sys2Proof.Machine.execMap tag ctx kind idx e s
  | .loadImage tag ctx core addr data => Sys2Proof.Machine.execLoadImage tag ctx core addr data s
  | .launch tag ctx va => Sys2Proof.Machine.execLaunch tag ctx va s
  | .wait tag ctx c ctr thr tmo => Sys2Proof.Machine.execWait tag ctx c ctr thr tmo s
  | .waitTimeout tag => Sys2Proof.Machine.execWaitTimeout tag s
  | .readCounters tag ctx pairs => Sys2Proof.Machine.execReadCounters tag ctx pairs s
  | .telemetry tag ctx k => Sys2Proof.Machine.execTelemetry tag ctx k s
  | .debugAttach tag ctx level cred => Sys2Proof.Machine.execDebugAttach tag ctx level cred s
  | .quickHalt tag ses rect => Sys2Proof.Machine.execQuickHalt tag ses rect s
  | .settledHalt tag ses rect => Sys2Proof.Machine.execSettledHalt tag ses rect s
  | .debugRead tag ses c addr len => Sys2Proof.Machine.execDebugRead tag ses c addr len s
  | .debugWrite tag ses c addr data => Sys2Proof.Machine.execDebugWrite tag ses c addr data s
  | .debugResume tag ses rect => Sys2Proof.Machine.execDebugResume tag ses rect s
  | .debugDetach tag ses => Sys2Proof.Machine.execDebugDetach tag ses s
  | .debugTrace tag ses k => Sys2Proof.Machine.execDebugTrace tag ses k s
  | .parityUpdate f => Sys2Proof.Machine.execParityUpdate f s
  | .patrolScrub line => Sys2Proof.Machine.execPatrolScrub line s
  | .sramScrub c word => Sys2Proof.Machine.execSramScrub c word s
  | .coreRetirement p => Sys2Proof.Machine.execCoreRetirement p s
  | .subarrayGate c n => Sys2Proof.Machine.execSubarrayGate c n s
  | .subarrayWake c n => Sys2Proof.Machine.execSubarrayWake c n s
  | .matrixStepStart c m => Sys2Proof.Machine.execMatrixStepStart c m s
  | .matrixStepEnd c => Sys2Proof.Machine.execMatrixStepEnd c s
  | .gangForm c => Sys2Proof.Machine.execGangForm c s
  | .codebookLoadStart c => Sys2Proof.Machine.execCodebookLoadStart c s
  | .codebookLoadDone c => Sys2Proof.Machine.execCodebookLoadDone c s
  | .corePark c => Sys2Proof.Machine.execCorePark c s
  | .coreUnpark c => Sys2Proof.Machine.execCoreUnpark c s
  | .corePowerOff c => Sys2Proof.Machine.execCorePowerOff c s
  | .packageIdle => Sys2Proof.Machine.execPackageIdle s
  | .packageWake => Sys2Proof.Machine.execPackageWake s
  | .powerOnReset => Sys2Proof.Machine.execPowerOnReset s
  | .lifecycleMove cred => Sys2Proof.Machine.execLifecycleMove cred s
  | .packageIdWrite v => Sys2Proof.Machine.execPackageIdWrite v s
  | .powerCap v => Sys2Proof.Machine.execPowerCap v s
  | .attestation nonce => Sys2Proof.Machine.execAttestation nonce s
  | .accumulatorInstructionDone c m => Sys2Proof.Machine.execAccumulatorInstructionDone c m s
  | .pathEffectAcknowledgement f => Sys2Proof.Machine.execPathEffectAcknowledgement f s
  | .interfaceRetry f => Sys2Proof.Machine.execInterfaceRetry f s
  | .mirrorGranuleCopy g => Sys2Proof.Machine.execMirrorGranuleCopy g s

end Sys2Proof.Machine
end

