-- ==== Sys2Proof/Machine/Policy.lean ====
section
/-!
DEFINITION. The fixed policy that orders agents when the schedule is empty (DESIGN CHOICE log 4): what is due first, then the issue slots of the
cores (R193, R194), then the next cc.
-/
namespace Sys2Proof.Machine

/-- What an agent may do now. -/
abbrev Happening := State → Host.Outcome State Fault Refusal

/-- The events that an item in flight can be taken by. -/
def Flight.events (f : Flight) : List Happening :=
  match f.body with
  | .effect (.trigArm ..) => [execTriggerArmAtOwner f.id]
  | .effect (.trigDis ..) => [execTriggerArmAtOwner f.id]
  | .effect (.lsamo ..) => [execLsamoExecute f.id]
  | .effect (.mailboxConfig ..) => [execMailboxOperation f.id]
  | .effect (.mailboxPost ..) => [execMailboxOperation f.id]
  | .effect (.group ..) =>
    [execGforkTaken f.id, execGrewardTaken f.id, execGcancelTaken f.id, execGcfgTaken f.id, execGstatTaken f.id]
  | .effect (.expert ..) => [execDirectoryOperation f.id]
  | .effect _ => [execCounterUpdateAtOwner f.id]
  | .engineAdd .. => [execCounterUpdateAtOwner f.id]
  | .hallFire _ => [execTriggerArmAtOwner f.id]
  | .cread .. => [execCounterUpdateAtOwner f.id]
  | .load .. => [execCounterUpdateAtOwner f.id]
  | .mbtake _ => [execMailboxOperation f.id]
  | .waitc .. => [execWaitcArmAtOwner f.id]
  | .message _ => [execMessageArrival f.id, execMessageQueueRetry f.id]
  | .deferred .. => [execDeferredResultLanding f.id]
  | .record _ => [execRecordReady f.id]
  | .spawned _ => [execRecordReady f.id]
  | .initial .. => [execRecordReady f.id]
  | .levelled _ => [execLevelledRecordArrival f.id]
  | .transfer _ => []
  | .transferBack _ => [execSeatTransferReturn f.id]
  | .pull _ => [execPriorityPull f.id]
  | .pulled _ => [execPriorityPullReturn f.id]
  | .nack _ => [execDeferredTrapArrival f.id]
  | .ack => [execPathEffectAcknowledgement f.id]
  | .bqEntry .. => [execBqEntry f.id]
  | .region3 .. => [execRegion3Delivery f.id]
  | .tagFree .. => [execTagfreeAtLarder f.id]
  | .purge _ => [execTagPurge f.id]
  | .bind .. => [execBindArrival f.id]
  | .operand _ => [execMeetOperandArrival f.id]
  | .fill _ => [execEntryCacheFill f.id]
  | .claim .. => [execExpertClaim f.id]
  | .claimReply .. => [execClaimReply f.id]
  | .metadata .. => [execMetadataLanding f.id]
  | .setBound .. => [execSetBound f.id]
  | .countAdd .. => [execDirectoryCountAdd f.id]
  | .groupWrite .. => [execGroupResultWrite f.id]
  | .push .. => [execLarderPush f.id]
  | .pop .. => [execLarderPop f.id]
  | .extend .. => [execQueueExtension f.id]
  | .trap _ => [execTrapRecordPost f.id]
  | .stop _ => [execStopArrival f.id]
  | .restore _ => [execContextRestore f.id]
  | .stream .. => [execXcopyStreamEntry f.id]
  | .packet _ => [execXcopyPacketArrival f.id]
  | .xack .. => [execXcopyAck f.id]

/-- The events of one seat. -/
def seatEvents (c n : Nat) : List Happening :=
  [execConflictAbort c n, execBudgetExceeded c n, execParkPoint c n, execFullWaitSatisfied c n, execTaskCommit c n, execCommitGrant c n,
   execTaskRerun c n, execSliceEnd c n, execHallServiceEntry c n, execLineFetch c n, execSeatTransferTake c n, execSeatTakeWork c n]

/-- The events of one core. -/
def coreEvents (c : CoreId) (k : Core) : List Happening :=
  (if k.power = .parked then [execCoreUnpark c] else []) ++
    k.bq.flatMap (fun e => e.packets.map (fun p => execBqPacketComplete c e.id p.key) ++
      [execStreamerAtomic c e.id, execSourceEndAdd c e.id, execBqEntryComplete c e.id]) ++
    [execMatrixStepEnd c, execGangForm c, execCodebookLoadDone c, execCodebookLoadStart c] ++
    k.matrix.flatMap (fun e => [execMatrixStepStart c e.id, execAccumulatorInstructionDone c e.id]) ++
    (List.range 4).flatMap (fun n => [execSubarrayWake c n, execSubarrayGate c n, execGroupDeadline c n]) ++
    (List.range k.meets.length).flatMap (fun e => [execMeetCreationCheck c e, execMeetExpiry c e]) ++
    k.iface.map (fun o => execMeetNakRetry c o.op) ++ k.routes.map (fun r => execRouteStart c r.id) ++
    (if k.hold = .stopping then execCoreSave c :: saveOffsets.map (fun o => execSaveFailed c o) else []) ++
    (List.range 4).flatMap (fun n => seatEvents c n)

/-- Every event that the machine makes by itself, in the order in which the policy tries them. -/
def State.candidates (s : State) : List Happening :=
  (s.flights.filter (fun f => f.due ≤ s.cycle)).flatMap (fun f => f.events ++ [execInterfaceRetry f.id]) ++
    (s.edgeOut.filter (fun e => !e.out)).map (fun e => execXcopyStreamEntry e.id) ++
    s.walks.map (fun w => execTranslationWalk w.id) ++
    s.launches.flatMap (fun l => [execInitialRecordSend l.lid, execHorizonResult l.lid, execHorizonReduction l.lid,
      execLoadLevelling l.lid]) ++
    s.cores.flatMap (fun p => coreEvents p.1 p.2) ++ s.rounds.map (fun r => execRaftersResult r.id) ++
    s.waits.map (fun w => execWaitTimeout w.tag) ++ s.sessions.map (fun x => (fun s => .next (s.sessionTurn x.id))) ++
      s.parityDue.map (fun u => execParityUpdate u.id) ++
    s.saveJobs.flatMap (fun j => j.storing.map (fun x => execCoreSave x.1)) ++ s.retireDue.map (fun r => execCoreRetirement r.core)

/-- What a happening makes of the state where it changes it. -/
def State.tryOne (s : State) (e : Happening) : Option State :=
  match e s with
  | .next t => if t = s then none else some t
  | _ => none

/-- The first issue slot that a core has left in this cc. -/
def State.slot (s : State) : Option (CoreId × Nat) :=
  s.cores.findSome? (fun p =>
    ((List.range 4).find? (fun n => canIssue p.2 (p.2.seat n) s.cycle && p.2.slotFor s.cycle n)).map (fun n => (p.1, n)))

/-- What the policy does: the first event that changes the state, else the first issue slot, else nothing in this cc. -/
def State.policy (s : State) (issue : Happening) : Host.Outcome State Fault Refusal :=
  match s.candidates.findSome? s.tryOne with
  | some t => .next t
  | none =>
    match s.slot with
    | some p => issue { s with curCore := p.1, curSeat := p.2 }
    | none => .next { s with cycle := s.cycle + 1 }

end Sys2Proof.Machine
end

