-- ==== Sys2Proof/Machine/Step.lean ====
section
/-!
DEFINITION. One step of the machine: the next turn of the schedule, which is an event of the table or one seat's issue;
and the placing of one instruction where the next step fetches.
-/
namespace Sys2Proof.Machine
open Sys2Proof

/-- Run an instruction whose words have been fetched and decoded; a stall in place counts against the budget, at a chunk's first
instruction too (R199). -/
def issueInstr (s : State) (w : Words) (i : Instr) : Host.Outcome State Fault Refusal :=
  match gate s.me w i with
  | .go => exec (resolve s i) s.marked
  | .parkFirst => .next (s.setMe { s.me with st := .parked })
  | .boundary => exec (.implicitBoundary s.curCore s.curSeat) s
  | .stall => settle false s.marked (.error .stall)

/-- The argument of misaligned-target where control has reached a byte with no head (R22, R189, R426). -/
def headlessTarget (k : Core) (pc : BitVec 48) : Word :=
  if k.line pc.toNat = some [] then BitVec.ofNat 64 (pc.toNat / 64 * 64) else pc.setWidth 64

/-- The issue of the seat that curCore and curSeat name (R31, R87, R193 to R195, R276); a chunk past its budget issues nothing more
(R197).  A PC with no head, or whose line is not there yet, issues nothing: it takes no slot, and starts no chunk (R189, R194, R197,
R201). -/
def issueSeat (s : State) : Host.Outcome State Fault Refusal :=
  if !(canIssue s.here s.me s.cycle && s.here.slotFor s.cycle s.curSeat) then .next s
  else if s.me.conflict then exec (.conflictAbort s.curCore s.curSeat) s
  else if s.me.overBudget s.cycle then exec (.budgetExceeded s.curCore s.curSeat) s
  else if s.me.count = 512 then exec (.implicitBoundary s.curCore s.curSeat) s
  else
    match fetchAt s.here s.me.regs.pc with
    | .missing => settle false s (.error (.line s.me.regs.pc.toNat))
    | .noHead => .next (s.fault s.curCore s.curSeat 0x04 (headlessTarget s.here s.me.regs.pc) s.me.regs.pc)
    | .done =>
      .next (s.setMe { s.me with regs := { s.me.regs with pc := BitVec.ofNat 48 (s.me.regs.pc.toNat / 64 * 64 + 64) } })
    | .malformed h => settle false s.marked (.error (.trap 0x01 (BitVec.ofNat 64 h)))
    | .words w =>
      match decode w.head w.tail with
      | .error _ =>
        settle false s.marked (.error (.trap 0x01 (BitVec.ofNat 64 w.head)))
      | .ok i => issueInstr s w i

/-- One turn: time passes, then the agent acts. -/
def perform (t : Turn) (s : State) : Host.Outcome State Fault Refusal :=
  match t with
  | .issue gap c k =>
    if coreExists c && seatExists k then
      issueSeat { s with cycle := s.cycle + gap, curCore := c, curSeat := k }
    else .fault .noSuchSeat
  | .event gap e =>
    if e.isEvent then exec e { s with cycle := s.cycle + gap } else .next { s with cycle := s.cycle + gap }
  | .request gap requester header length e =>
    let t : State := { s with cycle := s.cycle + gap }
    if headerOk header length requester e then exec e t
    else .next (t.awaken.reply (requester * 2 ^ 32 + bytesToNat ((header.drop 4).take 4)) 0x0502)
  | .packet gap p =>
    .next (({ s with cycle := s.cycle + gap } : State).send 0 0 0 0 0 0 0 0 0 (.packet { p with port := some (p.port.getD 0) }))
  | .word gap c e p m w =>
    let t : State := { s with cycle := s.cycle + gap }
    .next ((t.wordAhead c e p m w).getD t)
  | .edgeWord gap f w =>
    let t : State := { s with cycle := s.cycle + gap }
    .next ((t.edgeWord f w).getD t)
  | .session gap ses => .next (({ s with cycle := s.cycle + gap } : State).sessionTurn ses)
  | .ack gap xid index refused =>
    .next (({ s with cycle := s.cycle + gap } : State).send 0 0 0 0 0 0 0 0 0 (.xack xid index refused))
  | .dramError gap line hard => .next (({ s with cycle := s.cycle + gap } : State).failLine (lineOf line) hard)
  | .sramError gap c word => .next (({ s with cycle := s.cycle + gap } : State).failWord c (word / 8 * 8))
  | .guard gap region on => .next (({ s with cycle := s.cycle + gap } : State).setGuard region on)
  | .mirror gap granule cellar => .next (({ s with cycle := s.cycle + gap } : State).setMirror granule cellar)

/-- One step: the schedule's next turn, or the fixed policy's where the schedule is empty (DESIGN CHOICE log 4). -/
def step (s : State) : Host.Outcome State Fault Refusal :=
  match s.agenda with
  | [] => s.policy issueSeat
  | t :: r => perform t { s with agenda := r }

/-- The state with one instruction's words placed as the line that seat 0 of core c fetches next, its seat running a
continuation of launch 1 at home, and that issue put first on the schedule (DESIGN CHOICE log 7). -/
def State.placeOn (s : State) (c : CoreId) (bs : List Byte) : State :=
  let k := s.core c
  let t := k.seat0
  let ready : Seat := { t with st := .running, stop := false, haltedAt := none, conflict := false, count := 0, resumeAt := 0, lastIssue := 0,
                               record := { t.record with w1 := BitVec.ofNat 64 (if isHall c then 0 else c + 2 ^ 11) } }
  let line := t.regs.pc.toNat / 64 * 64
  { s.setCore c { k with seat0 := { ready with regs := { ready.regs with pc := BitVec.ofNat 48 line } },
                         lines := assocSet k.lines line bs, power := .active } with
    agenda := .issue 1 c 0 :: s.agenda }

/-- The state with the instruction of an opcode-table word placed where the very next step runs it (DESIGN CHOICE log 7).  Words of the
SYS extension go to hall 0.0, others to compute core 7, which has F64 (R4, R5). -/
def State.withFetchWord (s : State) (nbits w : Nat) : State :=
  let ws := tableWords nbits w
  let maj := ws.head / 64 % 128
  s.placeOn (if maj = 0x0E || maj = 0x7E then 2048 else 7) (packLine [ws])

end Sys2Proof.Machine
end

