-- ==== Sys2Proof/Certificates/Slice0/Obligations.lean ====
section
/-!
DEFINITION. The statements for the provers: what the spec's rules say of instructions, events, the decoder and the machine, in
terms of `exec`, `step`, `decode` and `encode`.
-/
namespace Sys2Proof.Spec
open Sys2Proof.Machine

/-- The state after an instruction that completes: the issuing seat is x, at next(a), with one more instruction counted, and
parked when the head has S = 1 (R22, R31, R44). -/
def done (s : State) (sw : Bool) (x : Seat) : State :=
  s.setMe { x with
    regs := { x.regs with pc := nextAddr s.here s.me.regs.pc }, lastIssue := s.cycle + 1, count := x.count + 1,
    arriveAt := none, st := if sw then .parked else x.st }

/-- The state after a taken transfer to address a: the target issues no earlier than 2 cc later (R100). -/
def jumped (s : State) (sw : Bool) (x : Seat) (a : Int) : State :=
  s.setMe { x with
    regs := { x.regs with pc := BitVec.ofInt 48 a }, lastIssue := s.cycle + 1, count := x.count + 1,
    arriveAt := none, st := if sw then .parked else x.st, resumeAt := s.cycle + 2 }

/-- The state after an instruction that takes an exception: it has issued (R194), and its seat has taken the exception with
this cause and argument (R209, R210, R398). -/
def traps (s : State) (cause : Nat) (arg : Word) : Host.Outcome State Fault Refusal :=
  .next (s.issued.fault s.curCore s.curSeat cause arg s.me.regs.pc)

/-- The seat with an immediate result in x[d]: x0 keeps nothing (R39), the old value stays readable until the park point
(R14), and an earlier group result for the register is dead (R33). -/
def put (x : Seat) (d : BitVec 6) (v : Word) : Seat :=
  { x with
    regs := if d = 0 then x.regs else { x.regs with x := x.regs.x.set d.toFin v },
    past := { reg := .x d, val := (x.regs.x[d.toFin]).setWidth 1024 } :: x.past,
    results := x.results.map (fun g => if g.reg = some (.x d) then { g with live := false } else g) }

/-- The seat with one more group result in its buffer, ready at cc t (R32, R35); one for x0 or q0 is kept for no register. -/
def add (x : Seat) (r : Reg) (v : Vec) (t : Nat) (nf : BitVec 6 := 0) : Seat :=
  { x with results := x.results ++ [{ reg := if r.discards then none else some r, val := v, readyAt := t, waits := 0,
                                      live := true, nf := nf }] }

/-- The same for an x register. -/
def addX (x : Seat) (d : BitVec 6) (v : Word) (t : Nat) (nf : BitVec 6 := 0) : Seat := add x (.x d) (v.setWidth 1024) t nf

/-- The seat with one more held effect (R196). -/
def holds (x : Seat) (h : Held) (tag : Nat := 0) : Seat :=
  { x with held := x.held ++ [{ ia := x.regs.pc, tag := tag, body := h }] }

/-- The seat that waits for one more deferred result from a unit (R37), whose register no earlier group result writes any more
(R33); none is awaited for x0 (R39). -/
def awaits (x : Seat) (d : BitVec 6) (unit : IssuingUnit) (tag : Nat) : Seat :=
  if d = 0 then x
  else { x with
    deferred := x.deferred ++ [{ reg := .x d, unit := unit, tag := tag, old := false }],
    results := x.results.map (fun g => if g.reg = some (.x d) then { g with live := false } else g) }

/-- The seat with SEED after the steps an instruction took (R67). -/
def reseed (x : Seat) (seed : Word) : Seat := { x with regs := { x.regs with seed := seed } }

/-- Address a is a head in the issuing core's line cache (R23, R101). -/
abbrev headAt (s : State) (a : Int) : Prop := 0 ≤ a ∧ a < 2 ^ 48 ∧ s.here.isHead a.toNat = true

/-- Address a is no head: it leaves the 48-bit range, or its cached line has no head there (R101). -/
abbrev noHeadAt (s : State) (a : Int) : Prop :=
  a < 0 ∨ 2 ^ 48 ≤ a ∨ ((s.here.line a.toNat).isSome = true ∧ s.here.isHead a.toNat = false)

/-- Every memory of the state is in its canonical form: device memory, and the store of every core and of every saved core. -/
abbrev memoriesWf (s : State) : Prop :=
  s.dram.wf = true ∧ (∀ p ∈ s.cores, p.2.store.wf = true) ∧ ∀ x ∈ s.contexts, ∀ p ∈ x.saved, p.2.store.wf = true

/-- The address of the issuing seat's instruction. -/
def pcOf (s : State) : Int := (s.me.regs.pc.toNat : Int)

/-- The link of JAL: a BYTES pointer into space 2 at next(a) (R104). -/
def link (s : State) : Word := (0x0020000000000000 : Word) ||| (nextAddr s.here s.me.regs.pc).setWidth 64

end Sys2Proof.Spec

open Sys2Proof Sys2Proof.Machine Sys2Proof.Spec

/-! ### Control -/

/-- R102: every NOP, whatever its tail holds, changes nothing but that control goes on at next(a). R103 to R105: J, JAL and JR go on
at a head that the line cache holds; JAL's link is written first, JR ignores bits 63:48 of its register, and nothing else
changes. R106 to R109: a compare-and-branch or LOOP whose condition holds goes on at its target, otherwise at next(a); LOOP
first takes 1 from its count, which x0 does not keep. R101, R426: a taken transfer whose target is no head takes the
misaligned-target exception with the target as its argument, or the line's address where the line has no heads because its fetch
failed; one whose target line is not cached stalls in place and asks for that line. What the model chose in it: a taken transfer
costs 2 cc (DEDUCED log 75); next(a) wraps to 0 past 2^48 (DESIGN CHOICE log 89). -/
def Obligations.TransfersGoToTheirTarget : Prop :=
  (∀ (sw : Bool) (s : State) (t1 : BitVec 16) (t2 : BitVec 32) (t3 : BitVec 64),
    exec (.nop sw) s = .next (done s sw s.me) ∧
    exec (.nopT1 sw t1) s = .next (done s sw s.me) ∧
    exec (.nopT2 sw t2) s = .next (done s sw s.me) ∧
    exec (.nopT3 sw t3) s = .next (done s sw s.me)) ∧
  (∀ (sw : Bool) (s : State) (l t : BitVec 6) (off : BitVec 32),
    (headAt s (pcOf s + off.toInt) →
      exec (.j sw off) s = .next (jumped s sw s.me (pcOf s + off.toInt)) ∧
      exec (.jal sw l off) s = .next (jumped s sw (put s.me l (link s)) (pcOf s + off.toInt))) ∧
    (headAt s ((s.x t).toNat % 2 ^ 48 : Nat) →
      exec (.jr sw t) s = .next (jumped s sw s.me ((s.x t).toNat % 2 ^ 48 : Nat)))) ∧
  (∀ (sw : Bool) (s : State) (a b c : BitVec 6) (off : BitVec 25) (o : BitVec 16),
    let u := s.x a
    let v := s.x b
    let target := pcOf s + 2 * off.toInt
    let back := pcOf s - (o.toNat : Int)
    let count := s.x c - 1
    ((u = v → headAt s target → exec (.beq sw a b off) s = .next (jumped s sw s.me target)) ∧
      (u ≠ v → exec (.beq sw a b off) s = .next (done s sw s.me))) ∧
    ((u ≠ v → headAt s target → exec (.bne sw a b off) s = .next (jumped s sw s.me target)) ∧
      (u = v → exec (.bne sw a b off) s = .next (done s sw s.me))) ∧
    ((u.toInt < v.toInt → headAt s target → exec (.blt sw a b off) s = .next (jumped s sw s.me target)) ∧
      (v.toInt ≤ u.toInt → exec (.blt sw a b off) s = .next (done s sw s.me))) ∧
    ((v.toInt ≤ u.toInt → headAt s target → exec (.bge sw a b off) s = .next (jumped s sw s.me target)) ∧
      (u.toInt < v.toInt → exec (.bge sw a b off) s = .next (done s sw s.me))) ∧
    ((u.toNat < v.toNat → headAt s target → exec (.bltn sw a b off) s = .next (jumped s sw s.me target)) ∧
      (v.toNat ≤ u.toNat → exec (.bltn sw a b off) s = .next (done s sw s.me))) ∧
    ((v.toNat ≤ u.toNat → headAt s target → exec (.bgen sw a b off) s = .next (jumped s sw s.me target)) ∧
      (u.toNat < v.toNat → exec (.bgen sw a b off) s = .next (done s sw s.me))) ∧
    ((count ≠ 0 → headAt s back → exec (.loop sw c o) s = .next (jumped s sw (put s.me c count) back)) ∧
      (count = 0 → exec (.loop sw c o) s = .next (done s sw (put s.me c count))))) ∧
  (∀ (sw : Bool) (s : State) (off : BitVec 32),
    (noHeadAt s (pcOf s + off.toInt) →
      exec (.j sw off) s = traps s 0x04
        (if 0 ≤ pcOf s + off.toInt ∧ pcOf s + off.toInt < 2 ^ 48 ∧ s.here.line (pcOf s + off.toInt).toNat = some [] then
          BitVec.ofNat 64 ((pcOf s + off.toInt).toNat / 64 * 64)
         else BitVec.ofInt 64 (pcOf s + off.toInt))) ∧
    (0 ≤ pcOf s + off.toInt → pcOf s + off.toInt < 2 ^ 48 → s.here.line (pcOf s + off.toInt).toNat = none →
      ∃ t, exec (.j sw off) s = .next t ∧ t.me.st = .stalled ∧ t.me.regs = s.me.regs ∧
        ∃ w ∈ t.here.lineWaits, w.seat = s.curSeat ∧ w.head = (pcOf s + off.toInt).toNat))

/-- R36, R111, R112: CHUNK and HEND park the seat with their boundary pending; WAITC with a valid counter operand does so with
its counter and threshold (R252), and FENCE with its scope, order and rectangle (R267, R268). -/
def Obligations.BoundariesParkTheSeat : Prop :=
  ∀ (sw : Bool) (s : State) (c t r : BitVec 6) (scope : BitVec 3) (order : BitVec 2) (core : CoreId) (idx : BitVec 8),
    exec (.chunk sw) s = .next (done s true { s.me with boundary := some .chunk }) ∧
    exec (.hend sw) s = .next (done s true { s.me with boundary := some .hend }) ∧
    (counterOperand s (s.x c) = .ok (core, idx) →
      exec (.waitc sw c t) s = .next (done s true { s.me with boundary := some (.waitc (s.x c) core idx (s.x t) s.me.regs.pc) })) ∧
    ((scope = 2 → checkRect s (s.x r) = .ok ()) →
      exec (.fence sw scope order r) s = .next (done s true { s.me with
        boundary := some (.fence { scope := scope.toNat, order := order.toNat,
                                   rect := if scope = 2 then s.x r else s.myRect.getD 0 }) }))

/-- R113, R209, R210, R398, R401: TRAP takes an exception with cause 0x19 and the argument code × 2^16 + argument, whatever its
operands. On a compute core its seat is trapped at its chunk start, with nothing buffered or held, under a ticket that no other
undecided record has, and the trap record with those words is on its way to the hall; on a hall core that is not in its service
the seat goes on at HVEC, with HEPC the chunk-start PC and HCAUSE 0x19. What the model chose in it: undefined start registers
and new ids are free values of Config.pick over State.fresh (DESIGN CHOICE log 3); hall cores have numbers 2,048 + 4d + k and
stand in the south row of their dies (DESIGN CHOICE log 16). -/
def Obligations.TrapTakesTheException : Prop :=
  ∀ (sw : Bool) (s : State) (code : BitVec 6) (arg : BitVec 16),
    let x := s.me
    let enters (i : Instr) (a : Nat) : Prop :=
      exec i s = traps s 0x19 (BitVec.ofNat 64 a) ∧
      (s.curCore < 2048 → s.curSeat < 4 → s.tickets.length < 65535 → ∃ t, exec i s = .next t ∧ t.me.st = .trapped ∧
        t.me.regs = x.snap ∧ t.me.wbuf = [] ∧ t.me.held = [] ∧ t.me.ticket ≠ 0 ∧ (∀ k ∈ s.tickets, k.id ≠ t.me.ticket) ∧
        ∃ g ctx more, t.flights.getLast? = some g ∧ g.dst = 2048 ∧ g.body = .trap ⟨ctx, trapWords ctx x.lid t.me.ticket more 0x19
          false x.origin.isSome s.curSeat x.regs.pc s.curCore x.snap.pc (BitVec.ofNat 64 a) x.record.w0 x.record.w1 x.record.x7⟩) ∧
      (2048 ≤ s.curCore → s.curSeat < 4 → x.hallSnap.service = false → ∃ t, exec i s = .next t ∧ t.me.st = .running ∧
        t.me.regs = { x.snap with pc := x.hallSnap.hvec } ∧ t.me.hall.hepc = x.snap.pc ∧ t.me.hall.hcause = 0x19 ∧
        t.me.hall.service = true)
    enters (.trap sw code) (code.toNat * 65536) ∧ enters (.trapArg sw code arg) (code.toNat * 65536 + arg.toNat)

/-- R209, R210, R401: an exception on a compute core: every register of the seat goes back to the chunk start, its buffered writes
and held effects are gone, it is trapped under a ticket that no other undecided record has, and a trap record with the words of
R401 is on its way to the context's ring. What the model chose in it: undefined start registers and new ids are free values of
Config.pick over State.fresh (DESIGN CHOICE log 3); hall cores have numbers 2,048 + 4d + k and stand in the south row of their
dies (DESIGN CHOICE log 16). -/
def Obligations.AnExceptionTrapsTheSeat : Prop :=
  ∀ (s : State) (c : CoreId) (n cause : Nat) (arg : Word) (ia : BitVec 48),
    c < 2048 → n < 4 → s.tickets.length < 65535 →
    let x := s.seat c n
    let t := s.fault c n cause arg ia
    (t.seat c n).st = .trapped ∧ (t.seat c n).regs = x.snap ∧ (t.seat c n).wbuf = [] ∧ (t.seat c n).held = [] ∧
      (t.seat c n).results = [] ∧ (t.seat c n).count = 0 ∧
      (t.seat c n).ticket ≠ 0 ∧ (∀ k ∈ s.tickets, k.id ≠ (t.seat c n).ticket) ∧
      ∃ (ctx more : Nat) (id : Nat),
        t.flights.getLast? = some ⟨id, s.cycle, s.curCore, 2048, 0, 0, 0, 0, 0, 0, 64, false, .trap ⟨ctx, trapWords ctx x.lid
          (t.seat c n).ticket more cause false x.origin.isSome n ia c x.snap.pc arg x.record.w0 x.record.w1 x.record.x7⟩⟩

/-- R398: an exception on a hall seat that is not in its service goes on at HVEC, with HEPC the chunk-start PC and HCAUSE the cause;
the seat runs on. R114, R398: SYSRET on a hall core goes on at HEPC, and only the PC and the service state change. -/
def Obligations.TheServiceIsEnteredAndLeft : Prop :=
  (∀ (s : State) (c : CoreId) (n cause : Nat) (arg : Word) (ia : BitVec 48),
    2048 ≤ c → n < 4 → (s.seat c n).hallSnap.service = false →
    let x := s.seat c n
    let y := (s.fault c n cause arg ia).seat c n
    y.st = .running ∧ y.regs.pc = x.hallSnap.hvec ∧ y.regs.x = x.snap.x ∧ y.hall.hepc = x.snap.pc ∧
      y.hall.hcause = BitVec.ofNat 8 cause ∧ y.hall.service = true) ∧
  (∀ (sw : Bool) (s : State), isHall s.curCore = true → headAt s (s.me.hall.hepc.toNat : Int) →
    exec (.sysret sw) s =
      .next (jumped s sw { s.me with hall := { s.me.hall with service := false } } (s.me.hall.hepc.toNat : Int)))

/-! ### Integer arithmetic and pointers -/

namespace Sys2Proof.Spec
open Sys2Proof.Machine

/-- The operations of R115 and R116 on W-bit patterns; n says that the operands are unsigned. -/
def alu (op : AluOp) (n : Bool) {w : Nat} (p y : BitVec w) : BitVec w :=
  match op with
  | .add => p + y
  | .sub => p - y
  | .mul => p * y
  | .mulh => if n then (p.zeroExtend (2 * w) * y.zeroExtend (2 * w)).extractLsb' w w
             else (p.signExtend (2 * w) * y.signExtend (2 * w)).extractLsb' w w
  | .div => if y = 0 then BitVec.allOnes w else if n then p / y else p.sdiv y
  | .rem => if y = 0 then p else if n then p % y else p.srem y
  | .and => p &&& y
  | .or => p ||| y
  | .xor => p ^^^ y
  | .andn => p &&& ~~~y
  | .shl => p <<< (y.toNat % w)
  | .shr => p >>> (y.toNat % w)
  | .sra => p.sshiftRight (y.toNat % w)
  | .min => if (if n then p.ule y else p.sle y) then p else y
  | .max => if (if n then p.ule y else p.sle y) then y else p

/-- What an integer instruction writes (R115): the 64-bit result, or for .32 the 32-bit result of the low halves,
sign-extended. -/
def aluWord (op : AluOp) (w n : Bool) (p y : Word) : Word :=
  if w then (alu op n (p.setWidth 32) (y.setWidth 32)).signExtend 64 else alu op n p y

/-- The state after an instruction with an immediate result (R32). -/
def writes (s : State) (sw : Bool) (d : BitVec 6) (v : Word) : Host.Outcome State Fault Refusal :=
  .next (done s sw (put s.me d v))

/-- The state after an instruction with one group result in x[d], ready after a latency (R32). -/
def collects (s : State) (sw : Bool) (d : BitVec 6) (v : Word) (latency : Nat) : Host.Outcome State Fault Refusal :=
  .next (done s sw (addX s.me d v (s.cycle + latency)))

/-- The bits that f gives, as a word. -/
def wordOf (f : Nat → Bool) : Word := BitVec.ofNat 64 ((List.range 64).foldl (fun a k => if f k then a + 2 ^ k else a) 0)

end Sys2Proof.Spec

/-- R32, R115: the integer instructions whose result is immediate, with both operand forms: x[d] takes the operation's value, and
every other register, flag, special register and byte is as before; a destination x0 keeps nothing. R32, R115, R116: multiplies
and divisions give one group result, a multiply after 3 cc, a division after 20 to 40; division by zero gives all ones and the
remainder p, with no trap. -/
def Obligations.IntegerArithmetic : Prop :=
  (∀ (sw w n : Bool) (d b c : BitVec 6) (imm : BitVec 22) (s : State),
    let p := s.x b
    let y := s.x c
    let i : Word := imm.signExtend 64
    exec (.addR sw d b c w) s = writes s sw d (aluWord .add w false p y) ∧
    exec (.addI sw d b w imm) s = writes s sw d (aluWord .add w false p i) ∧
    exec (.subR sw d b c w) s = writes s sw d (aluWord .sub w false p y) ∧
    exec (.subI sw d b w imm) s = writes s sw d (aluWord .sub w false p i) ∧
    exec (.andR sw d b c w) s = writes s sw d (aluWord .and w false p y) ∧
    exec (.andI sw d b w imm) s = writes s sw d (aluWord .and w false p i) ∧
    exec (.orR sw d b c w) s = writes s sw d (aluWord .or w false p y) ∧
    exec (.orI sw d b w imm) s = writes s sw d (aluWord .or w false p i) ∧
    exec (.xorR sw d b c w) s = writes s sw d (aluWord .xor w false p y) ∧
    exec (.xorI sw d b w imm) s = writes s sw d (aluWord .xor w false p i) ∧
    exec (.andnR sw d b c w) s = writes s sw d (aluWord .andn w false p y) ∧
    exec (.andnI sw d b w imm) s = writes s sw d (aluWord .andn w false p i) ∧
    exec (.shlR sw d b c w) s = writes s sw d (aluWord .shl w false p y) ∧
    exec (.shlI sw d b w imm) s = writes s sw d (aluWord .shl w false p i) ∧
    exec (.shrR sw d b c w) s = writes s sw d (aluWord .shr w false p y) ∧
    exec (.shrI sw d b w imm) s = writes s sw d (aluWord .shr w false p i) ∧
    exec (.sraR sw d b c w) s = writes s sw d (aluWord .sra w false p y) ∧
    exec (.sraI sw d b w imm) s = writes s sw d (aluWord .sra w false p i) ∧
    exec (.minR sw d b c w n) s = writes s sw d (aluWord .min w n p y) ∧
    exec (.minI sw d b w n imm) s = writes s sw d (aluWord .min w n p i) ∧
    exec (.maxR sw d b c w n) s = writes s sw d (aluWord .max w n p y) ∧
    exec (.maxI sw d b w n imm) s = writes s sw d (aluWord .max w n p i)) ∧
  (∀ (sw w n : Bool) (d b c : BitVec 6) (imm : BitVec 22) (s : State),
    let p := s.x b
    let y := s.x c
    let i : Word := imm.signExtend 64
    exec (.mulR sw d b c w) s = collects s sw d (aluWord .mul w false p y) 3 ∧
    exec (.mulI sw d b w imm) s = collects s sw d (aluWord .mul w false p i) 3 ∧
    exec (.mulhR sw d b c w n) s = collects s sw d (aluWord .mulh w n p y) 3 ∧
    exec (.mulhI sw d b w n imm) s = collects s sw d (aluWord .mulh w n p i) 3 ∧
    (∃ k, 20 ≤ k ∧ k ≤ 40 ∧ exec (.divR sw d b c w n) s = collects s sw d (aluWord .div w n p y) k ∧
      exec (.remR sw d b c w n) s = collects s sw d (aluWord .rem w n p y) k) ∧
    (∃ k, 20 ≤ k ∧ k ≤ 40 ∧ exec (.divI sw d b w n imm) s = collects s sw d (aluWord .div w n p i) k ∧
      exec (.remI sw d b w n imm) s = collects s sw d (aluWord .rem w n p i) k))

/-- R118 to R122: SEL, LI, LIH and CMP, and the bit instructions bit by bit. R121, R122: counts, extensions and bit fields, whose
values are given bit by bit: w selects a width of 8, 16, 32 or 64, a length field of 0 means 64. -/
def Obligations.SelectionsCountsAndFields : Prop :=
  (∀ (sw : Bool) (d b c k : BitVec 6) (cond : BitVec 3) (imm : BitVec 22) (i16 : BitVec 16) (i32 : BitVec 32) (i64 : BitVec 64)
      (s : State),
    let holds (p y : Word) : Bool :=
      match cond.toNat with
      | 0 => p == y
      | 1 => p != y
      | 2 => decide (p.toInt < y.toInt)
      | 3 => decide (y.toInt ≤ p.toInt)
      | 4 => decide (p.toNat < y.toNat)
      | _ => decide (y.toNat ≤ p.toNat)
    exec (.sel sw d b c k) s = writes s sw d (if s.x k = 0 then s.x c else s.x b) ∧
    exec (.li16 sw d i16) s = writes s sw d (i16.signExtend 64) ∧
    exec (.li32 sw d i32) s = writes s sw d (i32.signExtend 64) ∧
    exec (.li64 sw d i64) s = writes s sw d i64 ∧
    exec (.lih sw d i32) s = writes s sw d (wordOf (fun j => if j < 32 then (s.x d).getLsbD j else i32.getLsbD (j - 32))) ∧
    exec (.cmpR sw d b c cond) s = writes s sw d (if holds (s.x b) (s.x c) then 1 else 0) ∧
    exec (.cmpI sw d b cond imm) s = writes s sw d (if holds (s.x b) (imm.signExtend 64) then 1 else 0)) ∧
  (∀ (sw sg : Bool) (d b pos len : BitVec 6) (w : BitVec 2) (s : State),
    let x := s.x b
    let n := 8 * 2 ^ w.toNat
    let l := if len = 0 then 64 else len.toNat
    let p := pos.toNat
    let ones := ((List.range n).filter (fun j => x.getLsbD j)).length
    exec (.popc sw d b w) s = writes s sw d (BitVec.ofNat 64 ones) ∧
    (∃ k ≤ n, exec (.ctz sw d b w) s = writes s sw d (BitVec.ofNat 64 k) ∧ (∀ j < k, x.getLsbD j = false) ∧
      (k < n → x.getLsbD k = true)) ∧
    (∃ k ≤ n, exec (.clz sw d b w) s = writes s sw d (BitVec.ofNat 64 k) ∧ (∀ j < k, x.getLsbD (n - 1 - j) = false) ∧
      (k < n → x.getLsbD (n - 1 - k) = true)) ∧
    exec (.sext sw d b w) s = writes s sw d (wordOf (fun j => x.getLsbD (min j (n - 1)))) ∧
    exec (.zext sw d b w) s = writes s sw d (wordOf (fun j => j < n && x.getLsbD j)) ∧
    exec (.bfx sw d b pos len sg) s =
      writes s sw d (wordOf (fun j => if j < l then x.getLsbD (p + j) else sg && x.getLsbD (p + l - 1))) ∧
    exec (.bfi sw d b pos len) s =
      writes s sw d (wordOf (fun j => if p ≤ j ∧ j < p + l then x.getLsbD (j - p) else (s.x d).getLsbD j)))

/-- R50, R123: PADD and PSUB change the address of a pointer exactly and keep its high twelve bits; a sum outside 0 to 2^52 − 1
takes the pointer-overflow exception with argument 0. R124, R125: PTAG puts any format code and block exponent over a pointer's
space and address; PGET takes a pointer apart. -/
def Obligations.PointersAddAndKeepTheirTags : Prop :=
  (∀ (sw : Bool) (d b c : BitVec 6) (imm : BitVec 22) (s : State),
    let p := (s.x b).toNat
    let sum (off : Int) (i : Instr) : Prop :=
      let a := ((p % 2 ^ 52 : Nat) : Int) + off
      (0 ≤ a → a < 2 ^ 52 → exec i s = writes s sw d (BitVec.ofNat 64 (p / 2 ^ 52 * 2 ^ 52 + a.toNat))) ∧
      ((a < 0 ∨ 2 ^ 52 ≤ a) → exec i s = traps s 0x08 0)
    sum (s.x c).toInt (.paddR sw d b c) ∧ sum imm.toInt (.paddI sw d b imm) ∧
      sum (-(s.x c).toInt) (.psubR sw d b c) ∧ sum (-imm.toInt) (.psubI sw d b imm)) ∧
  (∀ (sw : Bool) (d b fmt : BitVec 6) (blog : BitVec 4) (k : BitVec 2) (s : State),
    let p := s.x b
    exec (.ptag sw d b fmt blog) s =
      writes s sw d (wordOf (fun j => if j < 54 then p.getLsbD j else if j < 58 then blog.getLsbD (j - 54) else fmt.getLsbD (j - 58))) ∧
    exec (.pget sw d b k) s = writes s sw d (match k.toNat with
      | 0 => p >>> 58
      | 1 => (p >>> 54) &&& 15
      | 2 => (p >>> 52) &&& 3
      | _ => p &&& (0x000FFFFFFFFFFFFF : Word)))

/-! ### Scalar floating point -/

namespace Sys2Proof.Spec
open Sys2Proof.Machine

/-- The executing core has what a precision asks for: F64 for the 64-bit one (R5, R88). -/
abbrev precisionOk (s : State) (p : Bool) : Prop := p = true → hasF64 s.curCore = true

/-- The executing core has what a vector format asks for: F64 for format 7 (R88, R133). -/
abbrev formatOk (s : State) (fmt : BitVec 4) : Prop := fmt = 7 → hasF64 s.curCore = true

/-- The format of a precision (R126). -/
def fpFmt (p : Bool) : FpFormat := if p then f64 else f32

/-- A scalar operand's value (R126). -/
def fpv (s : State) (p : Bool) (r : BitVec 6) : Val :=
  decodeFp (fpFmt p) (if p then (s.x r).toNat else (s.x r).toNat % 2 ^ 32)

/-- The state after a rounded scalar operation: one group result with its flags, and SEED after its step (R67, R71, R127). -/
def rounded (s : State) (sw : Bool) (d : BitVec 6) (latency : Nat) (o : FpOut) : Host.Outcome State Fault Refusal :=
  .next (done s sw (addX (reseed s.me o.seed) d (BitVec.ofNat 64 o.bits) (s.cycle + latency) o.flags))

end Sys2Proof.Spec

/-- R127, R128: FADD, FSUB, FMUL, FFMA, FDIV and FSQRT round the exact result once in the instruction's mode and give it as a group
result, after 4 cc, or after 12 or 24 cc for a division or a root of 32 or 64 bits. R72, R128 to R131: FMIN, FMAX, FCMP and
FCLASS take no SEED step; a comparison with a NaN is false, UN apart, and LT and LE raise invalid on any NaN, EQ and UN on a
signalling one. R131: FCVT to a float rounds its source once; to an integer it rounds once and clamps to the destination's
range. What the model chose in it: how many bits stochastic rounding sees below the last place (DEDUCED log 8); signs of exact
zeros (PRESUMED log 22). -/
def Obligations.ScalarResultsRoundOnce : Prop :=
  (∀ (sw p sat : Bool) (d b c e : BitVec 6) (rnd : BitVec 3) (s : State), precisionOk s p →
    let env : RoundEnv := { mode := roundMode rnd s.me.regs.rmode, sat := sat, seed := s.me.regs.seed }
    let u := fpv s p b
    let v := fpv s p c
    let round (r : Raw) : FpOut := settleFp (fpFmt p) env r
    let long := if p then 24 else 12
    exec (.fadd sw d b c p rnd sat) s = rounded s sw d 4 (round (fpAdd env.mode u v)) ∧
    exec (.fsub sw d b c p rnd sat) s = rounded s sw d 4 (round (fpAdd env.mode u v.negate)) ∧
    exec (.fmul sw d b c p rnd sat) s = rounded s sw d 4 (round (fpMul u v)) ∧
    exec (.ffma sw d b c e p rnd sat) s = rounded s sw d 4 (round (fpFma env.mode u v (fpv s p e))) ∧
    exec (.fdiv sw d b c p rnd sat) s = rounded s sw d long (round (fpDiv u v)) ∧
    exec (.fsqrt sw d b p rnd sat) s = rounded s sw d long (round (fpSqrt u))) ∧
  (∀ (sw p : Bool) (d b c : BitVec 6) (k : BitVec 2) (s : State), precisionOk s p →
    let bits (r : BitVec 6) : Nat := if p then (s.x r).toNat else (s.x r).toNat % 2 ^ 32
    let u := fpv s p b
    let v := fpv s p c
    let lo := fpMinMax (fpFmt p) false (bits b) (bits c)
    let hi := fpMinMax (fpFmt p) true (bits b) (bits c)
    let holds : Bool :=
      match k.toNat, fpCompare u v with
      | 0, .equal => true
      | 1, .less => true
      | 2, .less => true
      | 2, .equal => true
      | 3, .unordered => true
      | _, _ => false
    let invalid : Bool := if k = 1 ∨ k = 2 then u.isNan || v.isNan else u.isSignalling || v.isSignalling
    exec (.fmin sw d b c p) s = .next (done s sw (addX s.me d (BitVec.ofNat 64 lo.1) (s.cycle + 4) lo.2)) ∧
    exec (.fmax sw d b c p) s = .next (done s sw (addX s.me d (BitVec.ofNat 64 hi.1) (s.cycle + 4) hi.2)) ∧
    exec (.fcmp sw d b c k p) s =
      .next (done s sw (addX s.me d (if holds then 1 else 0) (s.cycle + 4) (if invalid then invalidFlag else 0))) ∧
    exec (.fclass sw d b p) s =
      .next (done s sw (addX s.me d (BitVec.ofNat 64 (classOf (fpFmt p) (bits b))) (s.cycle + 4)))) ∧
  (∀ (sw sat : Bool) (d b : BitVec 6) (dst src : BitVec 4) (rnd : BitVec 3) (s : State),
    scalarConvertOk dst src = true → formatOk s dst → formatOk s src →
    let env : RoundEnv := { mode := roundMode rnd s.me.regs.rmode, sat := sat, seed := s.me.regs.seed }
    let low := (s.x b).toNat % 2 ^ fmtBits src.toNat
    (7 ≤ dst.toNat →
      exec (.fcvt sw d b dst rnd sat src) s = rounded s sw d 4 (settleFp (fpOf dst.toNat) env
        (if 7 ≤ src.toNat then (decodeFp (fpOf src.toNat) low).asInput
         else intInput (if isSigned src.toNat then signed low (fmtBits src.toNat) else (low : Nat))))) ∧
    (dst.toNat < 7 →
      let r := intRange dst.toNat
      let o := toInt env r.1 r.2 (decodeFp (fpOf src.toNat) low)
      r.1 ≤ o.1 ∧ o.1 ≤ r.2 ∧
      exec (.fcvt sw d b dst rnd sat src) s =
        .next (done s sw (addX (reseed s.me o.2.2) d (BitVec.ofInt 64 o.1) (s.cycle + 4) o.2.1))))

/-- R88, R204: an instruction that names a 64-bit floating-point operand on a compute core without F64, whose launch lets its
chunks migrate and has a core with F64, leaves the seat lent, its chunk undone and its state on its way to that core, the matrix status apart, which stays with the seat
(R187). -/
def Obligations.F64ChunksMigrate : Prop :=
  ∀ (sw sat : Bool) (d b c : BitVec 6) (rnd : BitVec 3) (s : State) (l : Launch) (target : CoreId),
    isHall s.curCore = false → hasF64 s.curCore = false → s.curSeat < 4 →
    s.launch s.me.lid = some l → l.noMig = false → s.me.record.w0.bit 51 = false →
    nearestF64 s.curCore (rectCores l.rect) = some target →
    ∃ t, exec (.fadd sw d b c true rnd sat) s = .next t ∧ t.me.st = .lent ∧ t.me.lentTo = some target ∧ t.me.regs = s.me.snap ∧
      ∃ f x, t.flights.getLast? = some f ∧ f.dst = target ∧ f.body = .transfer x ∧ x.regs = { s.me.snap with fin := 0, woke := false, wrap := false } ∧ x.cid = s.me.cid ∧
        x.core = s.curCore ∧ x.seat = s.curSeat

/-! ### Vectors -/

namespace Sys2Proof.Spec
open Sys2Proof.Machine

/-- The lanes of a lane-by-lane instruction, with the flags of the active ones and SEED after their steps: an active lane takes
what f gives, an inactive one keeps its value or, under .Z, becomes 0 (R40, R135, R136). -/
def lanes (s : State) (d : BitVec 5) (fmt : Nat) (q : BitVec 3) (z : Bool) (f : Nat → Word → FpOut) :
    List Nat × BitVec 6 × Word :=
  runLanes f (activeLane (s.q q) fmt) (fun n => if z then 0 else lane (s.v d) fmt n) (List.range (elems fmt)) s.me.regs.seed

/-- The state after a vector result made of lanes (R136). -/
def vector (s : State) (sw : Bool) (d : BitVec 5) (fmt latency : Nat) (out : List Nat × BitVec 6 × Word) :
    Host.Outcome State Fault Refusal :=
  .next (done s sw (add (reseed s.me out.2.2) (.v d) (ofLanes (fmtBits fmt) out.1) (s.cycle + latency) out.2.1))

/-- The environment an instruction rounds in, from a lane's SEED (R40, R67). -/
def envAt (s : State) (rnd : BitVec 3) (sat : Bool) (seed : Word) : RoundEnv :=
  { mode := roundMode rnd s.me.regs.rmode, sat := sat, seed := seed }

/-- A lane of two-source arithmetic: a float format rounds the exact result once, an integer format wraps, or clamps under
.SAT (R138, R139). -/
def arith (s : State) (fmt : Nat) (rnd : BitVec 3) (sat : Bool) (fl : Nat → Val → Val → Raw) (int : Int → Int → Int)
    (x y : Nat) (seed : Word) : FpOut :=
  if 7 ≤ fmt then
    settleFp (fpOf fmt) (envAt s rnd sat seed) (fl (roundMode rnd s.me.regs.rmode) (decodeFp (fpOf fmt) x) (decodeFp (fpOf fmt) y))
  else ⟨intRes fmt sat (int (laneInt fmt x) (laneInt fmt y)), 0, seed⟩

end Sys2Proof.Spec

/-- R135 to R140: VADD, VSUB, VMUL and VFMA, lane by lane: 2 cc for an integer sum, otherwise 4. R135, R139: the value of one lane
of an integer VADD, VSUB or VMUL read out of the result: modulo 2^w, and an inactive lane as it was or 0. R72, R138, R141 to
R143: the remaining arithmetic of vectors, lane by lane, with its latency. What the model chose in it: how many bits stochastic
rounding sees below the last place (DEDUCED log 8); VEXP2 and VLOG2 are rounded from 320 and 192 fraction bits (DEDUCED log 9). -/
def Obligations.VectorArithmeticGoesByLanes : Prop :=
  (∀ (sw sat z : Bool) (d b c e : BitVec 5) (fmt : BitVec 4) (q rnd : BitVec 3) (s : State), formatOk s fmt →
    let f := fmt.toNat
    let x (n : Nat) := lane (s.v b) f n
    let y (n : Nat) := lane (s.v c) f n
    let quick := if 7 ≤ f then 4 else 2
    exec (.vadd sw d b c fmt q rnd sat z) s =
      vector s sw d f quick (lanes s d f q z (fun n => arith s f rnd sat fpAdd (fun i j => i + j) (x n) (y n))) ∧
    exec (.vsub sw d b c fmt q rnd sat z) s =
      vector s sw d f quick
        (lanes s d f q z (fun n => arith s f rnd sat (fun m u v => fpAdd m u v.negate) (fun i j => i - j) (x n) (y n))) ∧
    exec (.vmul sw d b c fmt q rnd sat z) s =
      vector s sw d f 4 (lanes s d f q z (fun n => arith s f rnd sat (fun _ u v => fpMul u v) (fun i j => i * j) (x n) (y n))) ∧
    exec (.vfma sw d b c e fmt q rnd sat z) s =
      vector s sw d f 4 (lanes s d f q z (fun n seed =>
        if 7 ≤ f then
          settleFp (fpOf f) (envAt s rnd sat seed) (fpFma (roundMode rnd s.me.regs.rmode) (decodeFp (fpOf f) (x n))
            (decodeFp (fpOf f) (y n)) (decodeFp (fpOf f) (lane (s.v e) f n)))
        else ⟨intRes f sat (laneInt f (x n) * laneInt f (y n) + laneInt f (lane (s.v e) f n)), 0, seed⟩))) ∧
  (∀ (sw z : Bool) (d b c : BitVec 5) (fmt : BitVec 4) (q rnd : BitVec 3) (s : State), fmt.toNat < 7 →
    let f := fmt.toNat
    let w := fmtBits f
    let reads (i : Instr) (latency : Nat) (val : Nat → Nat → Nat) : Prop :=
      ∃ r : Vec, exec i s = .next (done s sw (add s.me (.v d) r (s.cycle + latency))) ∧
        ∀ n < elems f, lane r f n =
          if (s.q q).getLsbD n then val (lane (s.v b) f n) (lane (s.v c) f n) % 2 ^ w
          else if z then 0 else lane (s.v d) f n
    reads (.vadd sw d b c fmt q rnd false z) 2 (fun x y => x + y) ∧
    reads (.vsub sw d b c fmt q rnd false z) 2 (fun x y => x + 2 ^ w - y) ∧
    reads (.vmul sw d b c fmt q rnd false z) 4 (fun x y => x * y)) ∧
  (∀ (sw sat z : Bool) (d b c : BitVec 5) (fmt : BitVec 4) (q rnd : BitVec 3) (s : State), formatOk s fmt →
    let f := fmt.toNat
    let x (n : Nat) := lane (s.v b) f n
    let y (n : Nat) := lane (s.v c) f n
    let quick := if 7 ≤ f then 4 else 2
    let env := envAt s rnd sat s.me.regs.seed
    exec (.vmin sw d b c fmt q z) s = vector s sw d f quick (lanes s d f q z (fun n => orderNode f false (x n) (y n))) ∧
    exec (.vmax sw d b c fmt q z) s = vector s sw d f quick (lanes s d f q z (fun n => orderNode f true (x n) (y n))) ∧
    exec (.vabs sw d b fmt q sat z) s = vector s sw d f quick (lanes s d f q z (fun n => signNode f sat false (x n))) ∧
    exec (.vneg sw d b fmt q sat z) s = vector s sw d f quick (lanes s d f q z (fun n => signNode f sat true (x n))) ∧
    exec (.vdiv sw d b c fmt q rnd sat z) s =
      vector s sw d f (if f = 7 then 24 else 12)
        (lanes s d f q z (fun n => arith s f rnd sat (fun _ u v => fpDiv u v) (fun i _ => i) (x n) (y n))) ∧
    exec (.vrcp sw d b fmt q rnd sat z) s = vector s sw d f 12 (lanes s d f q z (fun n => functionNode f env fpRcp (x n))) ∧
    exec (.vrsq sw d b fmt q rnd sat z) s = vector s sw d f 12 (lanes s d f q z (fun n => functionNode f env fpRsq (x n))) ∧
    exec (.vsqrt sw d b fmt q rnd sat z) s = vector s sw d f 12 (lanes s d f q z (fun n => functionNode f env fpSqrt (x n))) ∧
    exec (.vexp2 sw d b fmt q rnd sat z) s = vector s sw d f 12 (lanes s d f q z (fun n => functionNode f env fpExp2 (x n))) ∧
    exec (.vlog2 sw d b fmt q rnd sat z) s = vector s sw d f 12 (lanes s d f q z (fun n => functionNode f env fpLog2 (x n))))

/-- R146 to R149: VCMP, VSEL, VRED and VSCAN. R148: the value of an integer VRED with SUM whose lanes are all active is the sum of
the lanes modulo 2^w, sign-extended for a signed format. What the model chose in it: a reduction node with no present child
takes no SEED step (DEDUCED log 77). -/
def Obligations.ComparisonsReductionsAndSums : Prop :=
  (∀ (sw sat z : Bool) (dq : BitVec 3) (dx : BitVec 6) (d b c : BitVec 5) (fmt : BitVec 4) (q k rnd op : BitVec 3) (op2 : BitVec 2)
      (s : State), formatOk s fmt →
    let f := fmt.toNat
    let x (n : Nat) := lane (s.v b) f n
    let y (n : Nat) := lane (s.v c) f n
    let quick := if 7 ≤ f then 4 else 2
    let mask := runMask (fun n => laneCompare f k.toNat (x n) (y n)) (s.q q).bit (s.q dq).bit (List.range (elems f))
    let levels := Nat.log2 (elems f)
    let leaves := (List.range (elems f)).map (fun n => if activeLane (s.q q) f n then some (x n) else none)
    let node (o : Nat) := foldNode o f (envAt s rnd sat s.me.regs.seed)
    let root := tree (node op.toNat) levels leaves s.me.regs.seed
    exec (.vcmp sw dq b c fmt q k) s = .next (done s sw (add s.me (.q dq) (ofLanes 1 mask.1) (s.cycle + quick) mask.2)) ∧
    exec (.vsel sw d b c fmt q) s =
      .next (done s sw (add s.me (.v d) (ofLanes (fmtBits f) ((List.range (elems f)).map (fun n =>
        if activeLane (s.q q) f n then x n else y n))) (s.cycle + quick))) ∧
    exec (.vred sw dx b fmt q rnd sat op) s =
      .next (done s sw (addX (reseed s.me root.2.2) dx (placeLane f (root.1.getD (foldIdentity op.toNat f)))
        (s.cycle + quick * levels) root.2.1)) ∧
    exec (.vscan sw d b fmt q rnd sat z op2) s =
      vector s sw d f ((if 7 ≤ f then 4 else 1) * elems f)
        (scanLanes (node op2.toNat) (scanFirst f) (activeLane (s.q q) f) (fun n => if z then 0 else lane (s.v d) f n) x
          (List.range (elems f)) none s.me.regs.seed)) ∧
  (∀ (sw : Bool) (d : BitVec 6) (b : BitVec 5) (fmt : BitVec 4) (rnd : BitVec 3) (s : State), fmt.toNat < 7 →
    let f := fmt.toNat
    let w := fmtBits f
    let total := ((List.range (elems f)).map (fun n => lane (s.v b) f n)).sum
    exec (.vred sw d b fmt 0 rnd false 0) s =
      .next (done s sw (addX s.me d (if isSigned f then sext total w else zext total w)
        (s.cycle + 2 * Nat.log2 (elems f)))))

/-- R157 to R161: broadcast, extract, permute, conversion and scaling. R162 to R165: VQNT gives elements and scales as two group
results; VDQNT multiplies each element by its block's scale; VCBDEC looks weights up in the home core's table, and its load form
is a held effect. What the model chose in it: a scale of a quantised block sets no flag (DEDUCED log 109). -/
def Obligations.VectorMovesAndQuantising : Prop :=
  (∀ (sw sat z : Bool) (dx bx cx : BitVec 6) (d b c : BitVec 5) (fmt src : BitVec 4) (q rnd : BitVec 3) (part : BitVec 4) (s : State),
    formatOk s fmt → formatOk s src →
    let f := fmt.toNat
    let g := if f = 13 then 1 else f
    let k := (s.x cx).toNat
    let source := convertFrom src.toNat f part.toNat
    exec (.vbcast sw d bx fmt q z) s =
      vector s sw d f 2 (lanes s d f q z (fun _ seed => ⟨(s.x bx).toNat % 2 ^ fmtBits f, 0, seed⟩)) ∧
    exec (.vextr sw dx b cx fmt) s =
      .next (done s sw (addX s.me dx (if elems f ≤ k then 0 else placeLane f (lane (s.v b) f k)) (s.cycle + 2))) ∧
    exec (.vperm sw d b c fmt q z) s =
      vector s sw d g 4 (lanes s d g q z (fun n seed => ⟨lane (s.v b) g (lane (s.v c) g n % elems g), 0, seed⟩)) ∧
    exec (.vcvt sw d b fmt q rnd sat src z part) s =
      vector s sw d f 4 (runLanes
        (fun n seed => convertLane src.toNat f (envAt s rnd sat s.me.regs.seed) (lane (s.v b) src.toNat ((source n).getD 0)) seed)
        (fun n => (source n).isSome && activeLane (s.q q) f n)
        (fun n => if z && (source n).isSome then 0 else lane (s.v d) f n) (List.range (elems f)) s.me.regs.seed) ∧
    exec (.vscale sw d b cx fmt q rnd sat z) s =
      vector s sw d f 4 (lanes s d f q z (fun n seed =>
        settleFp (fpOf f) (envAt s rnd sat seed) (scaleRaw (decodeFp (fpOf f) (lane (s.v b) f n)) (signed (s.x cx).toNat 32))))) ∧
  (∀ (sw sat z : Bool) (d b e : BitVec 5) (bx : BitVec 6) (efmt src dst : BitVec 4) (q rnd : BitVec 3) (blog : BitVec 4)
      (w : BitVec 6) (s : State),
    let f := src.toNat
    let g := dst.toNat
    let size := 2 ^ blog.toNat
    let vals := (List.range (elems f)).map (fun n => decodeFp (fpOf f) (lane (s.v b) f n))
    let blocks := (List.range (elems f / size)).map (fun j => (vals.drop (j * size)).take size)
    let o := quantiseBlocks efmt.toNat (envAt s rnd true s.me.regs.seed) blocks s.me.regs.seed
    exec (.vqnt sw d b e efmt rnd blog src) s =
      .next (done s sw (add (add (reseed s.me o.2.2.2) (.v d) (ofLanes (fmtBits efmt.toNat) o.1) (s.cycle + 8) o.2.2.1) (.v e)
        (ofLanes (if efmt = 0 then 32 else 8) o.2.1) (s.cycle + 8))) ∧
    exec (.vdqnt sw d b e efmt q rnd sat blog dst z) s =
      vector s sw d g 4 (lanes s d g q z (fun n seed =>
        let scale := if efmt.toNat = 0 then decodeFp f32 (lane (s.v e) 10 (n / size)) else se8Val (lane (s.v e) 1 (n / size))
        settleFp (fpOf g) (envAt s rnd sat seed) (productInput (elementVal efmt.toNat (lane (s.v b) efmt.toNat n)) scale))) ∧
    (isHall s.curCore = false → ∀ table, (s.core s.home).tableReady = .ok table →
      exec (.vcbdec sw d b q rnd sat w dst z) s =
        vector s sw d g (4 + homeLatency s) (lanes s d g q z (fun n seed =>
          settleFp (fpOf g) (envAt s rnd sat seed)
            (weightInput (weight table (lane (s.v b) 3 (w.toNat + n / 8)) (n % 8)))))) ∧
    (isHall s.curCore = false → (∃ a, checkLocal (s.x bx) 2064 16 = .ok a) → s.me.held.length < 32 →
      exec (.vcbdecLoad sw bx) s = .next (done s sw (holds s.me (.codebookLoad (s.x bx))))))

/-- R144, R145: the logic and shift instructions read a lane as bits; a shift counts by the low log2(w) bits of the other lane, and
a bit of an inactive lane is kept, or 0 under .Z. R39, R166, R167: the mask instructions: bit by bit in one cc, q0 reading all
ones and keeping nothing; QCNT counts the ones; VCLASS tests each active lane's class and keeps the bits of the inactive ones. -/
def Obligations.VectorAndMaskLogic : Prop :=
  (∀ (sw z : Bool) (d b c : BitVec 5) (fmt : BitVec 4) (q : BitVec 3) (s : State), formatOk s fmt →
    let f := fmt.toNat
    let w := fmtBits f
    let bits (i : Instr) (val : Nat → Nat → Nat → Bool) : Prop :=
      ∃ r : Vec, exec i s = .next (done s sw (add s.me (.v d) r (s.cycle + 2))) ∧
        ∀ n < elems f, ∀ j < w, (lane r f n).testBit j =
          if activeLane (s.q q) f n then val (lane (s.v b) f n) (lane (s.v c) f n) j
          else !z && (lane (s.v d) f n).testBit j
    bits (.vand sw d b c fmt q z) (fun x y j => x.testBit j && y.testBit j) ∧
    bits (.vor sw d b c fmt q z) (fun x y j => x.testBit j || y.testBit j) ∧
    bits (.vxor sw d b c fmt q z) (fun x y j => x.testBit j != y.testBit j) ∧
    bits (.vandn sw d b c fmt q z) (fun x y j => x.testBit j && !y.testBit j) ∧
    bits (.vshl sw d b c fmt q z) (fun x y j => decide (y % w ≤ j) && x.testBit (j - y % w)) ∧
    bits (.vshr sw d b c fmt q z) (fun x y j => x.testBit (j + y % w)) ∧
    bits (.vsra sw d b c fmt q z) (fun x y j => x.testBit (min (j + y % w) (w - 1)))) ∧
  (∀ (sw nfs : Bool) (d b c : BitVec 3) (dx : BitVec 6) (vb : BitVec 5) (fmt : BitVec 4) (set : BitVec 6) (s : State),
    let p := s.q b
    let r := s.q c
    let mask (m : Mask) := Host.Outcome.next (done s sw (add s.me (.q d) (m.setWidth 1024) (s.cycle + 1)))
    let f := fmt.toNat
    let v := s.v vb
    let out := runMask (fun n => ((lanesOfBit f n).any (fun l => inClassSet f (lane v f l) set),
        if nfs && (lanesOfBit f n).any (fun l => nonFiniteLane f (lane v f l)) then nonFiniteFlag else 0))
      (s.q c).bit (s.q d).bit (List.range (classBits f))
    s.q 0 = BitVec.allOnes 128 ∧
    exec (.qand sw d b c) s = mask (p &&& r) ∧ exec (.qor sw d b c) s = mask (p ||| r) ∧
    exec (.qxor sw d b c) s = mask (p ^^^ r) ∧ exec (.qnot sw d b) s = mask (~~~p) ∧ exec (.qmov sw d b) s = mask p ∧
    exec (.qcnt sw dx b) s =
      .next (done s sw (addX s.me dx (BitVec.ofNat 64 ((List.range 128).filter (fun j => p.getLsbD j)).length) (s.cycle + 1))) ∧
    (formatOk s fmt →
      exec (.vclass sw d vb fmt c nfs set) s = .next (done s sw (add s.me (.q d) (ofLanes 1 out.1) (s.cycle + 2) out.2))))

/-! ### Loads and stores -/

namespace Sys2Proof.Spec
open Sys2Proof.Machine

/-- A pointer that a load of n bytes of home space may use (R49, R51, R244): a known, unblocked code among those the access
takes, in space 0, and a range other than the counter file that holds every byte; no tile under it is still being made
(R43, R178), no word under it is poisoned (R463), and a read filter is to be had, which gives the state t (R275). -/
abbrev mayLoad (s : State) (p : Word) (n : Nat) (codes : Nat → Bool) (t : State) : Prop :=
  codeKnown (ptrFmt p) = true ∧ codes (ptrFmt p) = true ∧ ptrBlog p = 0 ∧ ptrSpace p = 0 ∧
    rangeOf (ptrAddr p) n ≠ none ∧ rangeOf (ptrAddr p) n ≠ some .counters ∧ tilesReady s (ptrAddr p) n true = .ok () ∧
    noteRead s (ptrAddr p) n = .ok t ∧ ∀ w ∈ (s.core s.home).poison, meets (ptrAddr p) n w (w + 8) = false

/-- A pointer that a store of n bytes of home space may use: as for a load, but neither the counter file nor the extraction
window (R244), no published slot of a ring (R175), and room in the chunk's buffer (R195). -/
abbrev mayStore (s : State) (p : Word) (n : Nat) (codes : Nat → Bool) : Prop :=
  codeKnown (ptrFmt p) = true ∧ codes (ptrFmt p) = true ∧ ptrBlog p = 0 ∧ ptrSpace p = 0 ∧
    rangeOf (ptrAddr p) n ≠ none ∧ rangeOf (ptrAddr p) n ≠ some .counters ∧ rangeOf (ptrAddr p) n ≠ some .extraction ∧
    (s.core s.home).guardedBy (ptrAddr p) n = none ∧ tilesReady s (ptrAddr p) n false = .ok () ∧ s.me.wtotal + n ≤ 16384

/-- A pointer to a word, or to words, of the local store that a full/empty access may use (R246, R247). -/
abbrev wordPointer (p : Word) (n : Nat) : Prop :=
  codeKnown (ptrFmt p) = true ∧ wordCode (ptrFmt p) = true ∧ ptrBlog p = 0 ∧ ptrSpace p = 0 ∧ ptrAddr p % 8 = 0 ∧
    ptrAddr p + n ≤ 0x80000

/-- A pointer to n bytes of the local store or of the extraction window at a multiple of 8, which a synchronising load may use
(R154, R246). -/
abbrev waitPointer (p : Word) (n : Nat) : Prop :=
  ptrAddr p % 8 = 0 ∧ (rangeOf (ptrAddr p) n = some .localStore ∨ rangeOf (ptrAddr p) n = some .extraction)

/-- The state in which a read is on its way to the core that gives its value, and a group result waits for it (R191, R251). -/
def asks (s : State) (r : Reg) (owner : CoreId) (b : Body) : State :=
  { s.setMe { s.me with results := s.me.results ++ [{ reg := if r.discards then none else some r, val := 0, readyAt := 0,
                                                      waits := s.fresh, live := true, nf := 0 }] } with
    fresh := s.fresh + 2,
    flights := s.flights ++ [{ id := s.fresh + 1, due := s.cycle + s.transit s.curCore owner, src := s.curCore, dst := owner,
                               lid := s.me.lid, cid := s.me.cid, seat := s.curSeat, tag := s.fresh, ia := s.me.regs.pc,
                               cpc := s.me.snap.pc, backoff := 64, mig := s.me.origin.isSome, body := b }] }

/-- The state in which a load of n bytes at each of some places is on its way to the home core, with the chunk's own stores to
them (R191, R196). -/
def loadsAway (s : State) (r : Reg) (places : List Nat) (n : Nat) (form : LoadForm) : State :=
  asks s r s.home (.load places n
    ((places.flatMap (fun a => run a n)).filterMap (fun i => (assocGet s.me.wbuf i).map (fun b => (i, b)))) form)

/-- A synchronising load may test its words now: no read that the chunk sent before is still to be taken (R293), and the access is
at home, or has travelled to a home core that takes it (R191, R407). -/
abbrev mayTest (s : State) : Prop :=
  readsTaken s = .ok () ∧ (s.home = s.curCore ∨ (s.me.arriveAt.isSome = true ∧ (s.core s.home).open' = true))

/-- The state after a store of bytes: buffered in the chunk, and signed for a task (R196, R388). -/
def stores (s : State) (a : Nat) (bs : List Byte) : State := (s.writeHome a bs).signHome true a bs.length

end Sys2Proof.Spec

/-- R50, R243, R244: LD reads 1, 2, 4 or 8 bytes as the chunk sees them, sign-extended for an even selector, as a group result after
4 cc; VLD reads 128 bytes after 6 (R151 to R153). Away from home the load travels to the home core with the chunk's own stores,
and the group waits for it (R191, R242). R213, R246, R154: LDF, LDFE and VLDF read words that test full, where no seat that
comes first in this cc is about to test them; LDFE takes its word, so that the chunk sees it empty at once; where a word does
not test full, the seat stalls until it does. Away from home the access first travels to the home core, where it tests (R191). -/
def Obligations.LoadsReadTheHomeStore : Prop :=
  (∀ (sw : Bool) (d b : BitVec 6) (v : BitVec 5) (w : BitVec 3) (imm : BitVec 22) (s t : State) (p : Word),
    memOperand s b imm = .ok p →
    let n := 2 ^ (w.toNat / 2)
    let bytes (k : Nat) := bytesToNat ((run (ptrAddr p) k).map (chunkByte (s.core s.home) s.me))
    (mayLoad s p n (widthCode (8 * n)) t →
      (s.home = s.curCore → exec (.ld sw d b w imm) s = .next (done t sw (addX t.me d
        (if w.toNat % 2 = 0 then sext (bytes n) (8 * n) else zext (bytes n) (8 * n)) (s.cycle + 4)))) ∧
      (s.home ≠ s.curCore →
        let u := loadsAway t (.x d) [ptrAddr p] n (.scalar w)
        exec (.ld sw d b w imm) s = .next (done u sw u.me))) ∧
    (mayLoad s p 128 (fun c => !codeBlocked c) t →
      (s.home = s.curCore → exec (.vld sw v b imm) s =
        .next (done t sw (add t.me (.v v) (BitVec.ofNat 1024 (bytes 128)) (s.cycle + 6)))) ∧
      (s.home ≠ s.curCore →
        let u := loadsAway t (.v v) [ptrAddr p] 128 .vector
        exec (.vld sw v b imm) s = .next (done u sw u.me)))) ∧
  (∀ (sw : Bool) (d b : BitVec 6) (v : BitVec 5) (imm : BitVec 22) (s t : State) (p : Word),
    memOperand s b imm = .ok p →
    let word := BitVec.ofNat 64 (bytesToNat ((run (ptrAddr p) 8).map (chunkByte (s.core s.home) s.me)))
    let words := (List.range 16).map (fun k => ptrAddr p + 8 * k)
    (waitPointer p 8 → mayLoad s p 8 wordCode t → mayTest s →
      (s.testsFull (ptrAddr p) = true →
        exec (.ldf sw d b imm) s = .next (done t sw (addX t.me d word (s.cycle + 4 + homeReturn s))) ∧
        ∃ u, exec (.ldfe sw d b imm) s = .next u ∧ u.seesFull (ptrAddr p) = false ∧
          u.me.results = s.me.results ++ [{ reg := if d = 0 then none else some (.x d), val := word.setWidth 1024, waits := 0,
                                            readyAt := s.cycle + 4 + homeReturn s, live := true, nf := 0 }]) ∧
      (s.testsFull (ptrAddr p) = false →
        exec (.ldf sw d b imm) s = .next (s.setMe { s.me with st := .stalled, waitFull := some ([ptrAddr p], true) }) ∧
        exec (.ldfe sw d b imm) s = .next (s.setMe { s.me with st := .stalled, waitFull := some ([ptrAddr p], true) }))) ∧
    (waitPointer p 8 → mayLoad s p 8 wordCode t → readsTaken s = .ok () → s.home ≠ s.curCore → s.me.arriveAt = none →
      exec (.ldf sw d b imm) s = .next (s.setMe { s.me with
        arriveAt := some (s.cycle + s.transit s.curCore s.home), resumeAt := s.cycle + s.transit s.curCore s.home })) ∧
    (waitPointer p 128 → mayLoad s p 128 (fun c => !codeBlocked c) t → mayTest s →
      (words.all s.testsFull = true →
        exec (.vldf sw v b imm) s = .next (done t sw (add t.me (.v v)
          (BitVec.ofNat 1024 (bytesToNat ((run (ptrAddr p) 128).map (chunkByte (s.core s.home) s.me))))
          (s.cycle + 6 + homeReturn s)))) ∧
      (words.all s.testsFull = false →
        exec (.vldf sw v b imm) s = .next (s.setMe { s.me with st := .stalled, waitFull := some (words, true) }))))

/-- R196, R243 to R246, R152 to R155: ST, VST, STF and VSTF buffer their bytes in the chunk, lowest address first; STF and VSTF mark
their words full, and VSTF waits while one of them is full. R196: what a store changes, read byte by byte: within the stored
bytes the chunk sees the new value, everywhere else what it saw; no byte of any core's committed store, no counter, no register
and no flag changes. What the model chose in it: a reserved word counts as empty for a store that wants it empty (DEDUCED log
78). -/
def Obligations.StoresGoToTheirBytes : Prop :=
  (∀ (sw : Bool) (a b : BitVec 6) (v : BitVec 5) (w : BitVec 2) (imm : BitVec 22) (s : State) (p : Word),
    memOperand s b imm = .ok p →
    let at' := ptrAddr p
    let words := (List.range 16).map (fun k => at' + 8 * k)
    let full (t : State) (n : Nat) : State :=
      t.setMe { t.me with fe := { lo := at', words := n, full := true } :: t.me.fe }
    (mayStore s p (2 ^ w.toNat) (widthCode (8 * 2 ^ w.toNat)) →
      let t := stores s at' (natToBytes (2 ^ w.toNat) (s.x a).toNat)
      exec (.st sw a b w imm) s = .next (done t sw t.me)) ∧
    (mayStore s p 128 (fun c => !codeBlocked c) →
      let t := stores s at' (natToBytes 128 (s.v v).toNat)
      exec (.vst sw v b imm) s = .next (done t sw t.me)) ∧
    (mayStore s p 8 wordCode → wordPointer p 8 →
      let t := full (stores s at' (natToBytes 8 (s.x a).toNat)) 1
      exec (.stf sw a b imm) s = .next (done t sw t.me)) ∧
    (mayStore s p 128 (fun c => !codeBlocked c) → at' % 8 = 0 → at' + 128 ≤ 0x80000 →
      (words.any s.seesFull = false →
        let t := full (stores s at' (natToBytes 128 (s.v v).toNat)) 16
        exec (.vstf sw v b imm) s = .next (done t sw t.me)) ∧
      (words.any s.seesFull = true →
        exec (.vstf sw v b imm) s = .next (s.setMe { s.me with st := .stalled, waitFull := some (words, false) })))) ∧
  (∀ (sw : Bool) (a b : BitVec 6) (w : BitVec 2) (imm : BitVec 22) (s t : State) (p : Word),
    memOperand s b imm = .ok p → mayStore s p (2 ^ w.toNat) (widthCode (8 * 2 ^ w.toNat)) →
    exec (.st sw a b w imm) s = .next t →
    (∀ x, chunkByte (t.core t.home) t.me x =
      if ptrAddr p ≤ x ∧ x < ptrAddr p + 2 ^ w.toNat then BitVec.ofNat 8 ((s.x a).toNat / 256 ^ (x - ptrAddr p))
      else chunkByte (s.core s.home) s.me x) ∧
    (∀ c x, (t.core c).store.get x = (s.core c).store.get x) ∧ (∀ c, (t.core c).counters = (s.core c).counters) ∧
    t.dram = s.dram ∧ t.me.regs = { s.me.regs with pc := nextAddr s.here s.me.regs.pc } ∧ t.me.held = s.me.held)

/-- R247: SETE and SETF record one change of the bits of the named words, seen at once by the chunk's own accesses; a length of 0
changes nothing. R156: VGATH loads and VSCAT stores one element for each active lane below 32 at the checked addresses; the
others are kept, and of two lanes that store to one address the higher one's element stays. What the model chose in it: gathers
check their pointer with no active lane (DEDUCED log 48). -/
def Obligations.BitRangesGathersAndScatters : Prop :=
  (∀ (sw : Bool) (a l : BitVec 6) (s : State),
    let p := s.x a
    let n := (s.x l).toNat
    wordPointer p n → ptrAddr p < 0x80000 → n % 8 = 0 →
    let set (full : Bool) : State :=
      if n = 0 then s
      else (s.setMe { s.me with fe := { lo := ptrAddr p, words := n / 8, full := full } :: s.me.fe }).signHome true (ptrAddr p) n
    exec (.sete sw a l) s = .next (done (set false) sw (set false).me) ∧
    exec (.setf sw a l) s = .next (done (set true) sw (set true).me)) ∧
  (∀ (sw z : Bool) (d c : BitVec 5) (b : BitVec 6) (fmt : BitVec 4) (q : BitVec 3) (s t : State) (l : List (Nat × Nat)),
    formatOk s fmt →
    let f := fmt.toNat
    let n := fmtBits f / 8
    (laneAddresses s b c f q false = .ok l → (∀ e ∈ l, tilesReady s e.2 n true = .ok ()) →
      l.foldlM (fun t e => noteRead t e.2 n) s = .ok t → (∀ e ∈ l, checkPoison s e.2 n = .ok ()) →
      (s.home ≠ s.curCore →
        let u := loadsAway t (.v d) (l.map (·.2)) n (.gather f (l.map (·.1)) (if z then 0 else s.v d))
        exec (.vgath sw d b c fmt q z) s = .next (done u sw u.me)) ∧
      (s.home = s.curCore → ∃ r : Vec, exec (.vgath sw d b c fmt q z) s =
          .next (done t sw (add t.me (.v d) r (s.cycle + 8))) ∧
        ∀ k < elems f, lane r f k = match assocGet l k with
          | some a => bytesToNat ((run a n).map (chunkByte (s.core s.home) s.me)) % 2 ^ fmtBits f
          | none => if z then 0 else lane (s.v d) f k)) ∧
    (laneAddresses s b c f q true = .ok l → (∀ e ∈ l, tilesReady s e.2 n false = .ok ()) →
      (∀ e ∈ l, (s.core s.home).guardedBy e.2 n = none) → s.me.wtotal + n * l.length ≤ 16384 →
      let u := l.foldl (fun t e => stores t e.2 (natToBytes n (lane (s.v d) f e.1))) s
      exec (.vscat sw d b c fmt q) s = .next (done u sw u.me)))

/-! ### Counters, triggers, the mailbox and owner atomics -/

namespace Sys2Proof.Spec
open Sys2Proof.Machine

/-- The seat with an access of a task's signatures: nothing where no task runs (R388). -/
def signs (x : Seat) (write : Bool) (bits : List Nat) : Seat :=
  { x with task := x.task.map (fun k =>
      if write then { k with writeSig := setBits k.writeSig bits } else { k with readSig := setBits k.readSig bits }) }

/-- The chunk can hold one more effect (R196). -/
abbrev canHold (s : State) : Prop := s.me.held.length < 32

/-- One more deferred result can start: always for x0, otherwise fewer than 24 are pending (R205). -/
abbrev canAwait (s : State) (d : BitVec 6) : Prop := d = 0 ∨ s.me.deferred.length < 24

/-- A counter operand in space 0: BYTES or N64, unblocked, in the counter file at a multiple of 16 (R248). -/
abbrev localCounter (p : Word) : Prop :=
  codeKnown (ptrFmt p) = true ∧ (ptrFmt p = 0 ∨ ptrFmt p = 8) ∧ ptrBlog p = 0 ∧ ptrSpace p = 0 ∧ 0x80000 ≤ ptrAddr p ∧
    ptrAddr p < 0x81000 ∧ ptrAddr p % 16 = 0

/-- The index of a local counter. -/
def localIndex (p : Word) : BitVec 8 := BitVec.ofNat 8 ((ptrAddr p - 0x80000) / 16)

/-- The state after an instruction that holds an effect with a fresh tag and awaits its result in x[d] (R32, R37, R196). -/
def holdsFor (s : State) (sw : Bool) (d : BitVec 6) (h : Held) : Host.Outcome State Fault Refusal :=
  .next (done s.tick sw (awaits (holds s.me h s.fresh) d h.unit s.fresh))

/-- The state after an instruction that holds an effect with a fresh tag and has no result. -/
def holdsOnly (s : State) (sw : Bool) (h : Held) : Host.Outcome State Fault Refusal :=
  .next (done s.tick sw (holds s.me h s.fresh))

/-- The state in which a known result for x[d] is on its way from a unit to the issuing seat for some cc (R32); none is for x0
(R39). -/
def delivers (s : State) (unit : IssuingUnit) (d : BitVec 6) (v : Word) (delay : Nat) : State :=
  if d = 0 then s
  else
    { s.setMe (awaits s.me d unit s.fresh) with
      fresh := s.fresh + 2,
      flights := s.flights ++ [{ id := s.fresh + 1, due := s.cycle + delay, src := s.curCore, dst := s.curCore, lid := s.me.lid,
                                 cid := s.me.cid, seat := s.curSeat, tag := s.fresh, ia := s.me.regs.pc, cpc := s.me.snap.pc,
                                 backoff := 64, body := .deferred s.fresh v }] }

end Sys2Proof.Spec

/-- R196, R248 to R250: a counter update with a valid operand is one held effect that names the counter's owner and index; the
counter itself does not change before the commit. R248: a counter operand in space 0 names the home core's counter at its
address; an address below the counter file raises format-fault 4 for the instruction that uses it, and a pointer of another
space than 0 and 1 too; one in space 1 whose region does not exist raises format-fault 5 (R49, R52). What the model chose in it:
arguments of pointers into ranges and spaces that an operand does not accept (DEDUCED log 107). -/
def Obligations.CounterUpdatesAreHeldOrRefused : Prop :=
  (∀ (sw : Bool) (c b : BitVec 6) (imm : BitVec 21) (s : State) (owner : CoreId) (idx : BitVec 8),
    counterOperand s (s.x c) = .ok (owner, idx) → canHold s →
    let v := s.x b
    let k : Word := imm.setWidth 64
    let held (op : CounterOp) : Host.Outcome State Fault Refusal :=
      .next (done s sw (signs (holds s.me (.counter (s.x c) owner idx op)) true
        (signatureBits 1 (chipAddr owner 1 (16 * idx.toNat)) 16)))
    exec (.caddR sw c b) s = held (.add v) ∧ exec (.caddI sw c imm) s = held (.add k) ∧
    exec (.cexpectR sw c b) s = held (.expect v) ∧ exec (.cexpectI sw c imm) s = held (.expect k) ∧
    exec (.bainitR sw c b) s = held (.bainit v) ∧ exec (.bainitI sw c imm) s = held (.bainit k) ∧
    exec (.barrive sw c b) s = held (.arrive v) ∧ exec (.badrop sw c b) s = held (.drop v)) ∧
  (∀ (sw : Bool) (c b : BitVec 6) (s : State),
    (localCounter (s.x c) → counterOperand s (s.x c) = .ok (s.home, localIndex (s.x c))) ∧
    (ptrFmt (s.x c) = 0 ∨ ptrFmt (s.x c) = 8 → ptrBlog (s.x c) = 0 →
      (ptrSpace (s.x c) = 0 ∧ ptrAddr (s.x c) < 0x80000 ∨ 2 ≤ ptrSpace (s.x c)) →
      exec (.caddR sw c b) s = traps s 0x09 4) ∧
    (ptrFmt (s.x c) = 0 ∨ ptrFmt (s.x c) = 8 → ptrBlog (s.x c) = 0 → ptrSpace (s.x c) = 1 →
      regionSize (chipRegion (ptrAddr (s.x c))) = none → exec (.caddR sw c b) s = traps s 0x09 5))

/-! ### Messages, engines, fences and windows -/

/-- R251, R229: CREAD of a counter of the executing core gives its value 4 cc later, and a refused window does not bar it; one of
another core sends the read to the owner, the hops away, and the group waits for what the owner gives; so does one of an own
counter that a granted commit holds or that an earlier arrival at the core's message unit precedes. R253, R254: TRIGARM,
TRIGDIS, MBCFG and MBPOST are held effects on the home core's trigger table and mailbox, or on the mailbox of the core that the
pointer names; MBCFG's depth is clamped to 1 to 32. R254, R229: MBTAKE gives the entry of a rank in the home core's mailbox, all
ones where none stands, as a deferred result 8 cc later, where nothing that came to the mailbox before is still to be taken;
otherwise, or away from home, it is on its way to the mailbox, and its result is awaited. R255, R256: LSAMO on an eligible word
or counter is a held effect whose result, the old value, is awaited in x[d]; a local target inside a published ring slot faults
with ring-guard at issue. R258: SEND to a core of the launch rectangle is a held effect that carries the values of n registers
from x[b] on; a pointer of another space raises format-fault 4, and a core outside the rectangle scope fault. What the model
chose in it: arguments of pointers into ranges and spaces that an operand does not accept (DEDUCED log 107). -/
def Obligations.ReadsTriggersMailboxAtomicsAndSends : Prop :=
  (∀ (sw : Bool) (d c : BitVec 6) (s : State) (owner : CoreId) (idx : BitVec 8),
    counterOperand s (s.x c) = .ok (owner, idx) → readsTaken s = .ok () →
    let x := signs s.me false (signatureBits 1 (chipAddr owner 1 (16 * idx.toNat)) 16)
    let now := owner = s.curCore ∧ s.ownTurn owner 1 = true ∧ (s.core owner).counterHeld owner idx = false
    (now → exec (.cread sw d c) s = .next (done s sw (addX x d ((s.core owner).counters[idx.toFin]).value (s.cycle + 4)))) ∧
    (¬now →
      let u := asks (s.setMe x) (.x d) owner (.cread (s.x c) idx)
      exec (.cread sw d c) s = .next (done u sw u.me))) ∧
  (∀ (sw : Bool) (e b c d : BitVec 6) (s : State), canHold s →
    (localCounter (s.x b) → codeKnown (ptrFmt (s.x d)) = true → codeBlocked (ptrFmt (s.x d)) = false → ptrBlog (s.x d) = 0 →
      ptrSpace (s.x d) = 0 → ptrAddr (s.x d) + 64 ≤ 0x80000 → ptrAddr (s.x d) % 64 = 0 →
      exec (.trigarm sw e b c d) s =
        .next (done s sw (holds s.me (.trigArm s.home e (localIndex (s.x b)) (s.x c) (ptrAddr (s.x d)))))) ∧
    exec (.trigdis sw e) s = .next (done s sw (holds s.me (.trigDis s.home e))) ∧
    (localCounter (s.x c) →
      exec (.mbcfg sw b c d) s = .next (done s sw (holds s.me (.mailboxConfig s.home (max 1 (min 32 (s.x b).toNat))
        (localIndex (s.x c)) (min (2 ^ 32 - 1) (s.x d).toNat))))) ∧
    (codeKnown (ptrFmt (s.x b)) = true → codeBlocked (ptrFmt (s.x b)) = false → ptrBlog (s.x b) = 0 → ptrSpace (s.x b) = 1 →
      chipRegion (ptrAddr (s.x b)) = 5 → chipOffset (ptrAddr (s.x b)) = 0 →
      let owner := chipCore (ptrAddr (s.x b))
      exec (.mbpost sw b c) s = .next (done s sw (signs (holds s.me (.mailboxPost owner (s.x c))) true
        (signatureBits 1 (chipAddr owner 5 0) 8))))) ∧
  (∀ (sw : Bool) (d b : BitVec 6) (s : State), canAwait s d →
    let m := (s.core s.home).mailbox
    let rank := (s.x b).toNat
    let v : Word := if rank < m.k ∧ rank < m.entries.length then m.entries.getD rank 0 else BitVec.allOnes 64
    let x := s.setMe (signs s.me false (signatureBits 1 (chipAddr s.home 5 0) 8))
    let now := s.home = s.curCore ∧ s.ownTurn s.curCore 1 = true
    (now →
      let t := delivers x .mailbox d v 8
      exec (.mbtake sw d b) s = .next (done t sw t.me)) ∧
    (¬now → d ≠ 0 → ∃ t, exec (.mbtake sw d b) s = .next t ∧ t.me.regs = { s.me.regs with pc := nextAddr s.here s.me.regs.pc } ∧
      t.me.deferred = s.me.deferred ++ [{ reg := .x d, unit := .mailbox, tag := s.fresh, old := false }] ∧
      ∃ f, t.flights = s.flights ++ [f] ∧ f.due = s.cycle + s.transit s.curCore s.home ∧ f.src = s.curCore ∧ f.dst = s.home ∧
        f.seat = s.curSeat ∧ f.tag = s.fresh ∧ f.body = .mbtake rank) ∧
    (d = 0 → exec (.mbtake sw d b) s = .next (done x sw x.me))) ∧
  (∀ (sw : Bool) (d b c e : BitVec 6) (op : BitVec 4) (s : State) (owner : CoreId) (counter : Bool) (off : Nat),
    amoTarget s (s.x b) op.toNat = .ok (owner, counter, off) →
    let n := if op = 1 ∨ op = 8 ∨ op = 9 then 4 else 8
    let mine := owner = s.curCore ∧ counter = false
    (canHold s → canAwait s d → (mine → (s.core owner).guardedBy off n = none) →
      exec (.lsamo sw d b c e op) s = .next (done s.tick sw (signs
        (awaits (holds s.me (.lsamo (s.x b) owner counter off op.toNat (s.x c) (s.x e)) s.fresh) d .counterOwner s.fresh) true
        (if counter then signatureBits 1 (chipAddr owner 1 (16 * off)) 16 else signatureBits 1 (chipAddr owner 0 off) 8)))) ∧
    (mine → ∀ g, (s.core owner).guardedBy off n = some g →
      exec (.lsamo sw d b c e op) s = traps s 0x11 (BitVec.ofNat 64 g))) ∧
  (∀ (sw : Bool) (a b : BitVec 6) (n : BitVec 4) (h : BitVec 6) (s : State),
    let p := s.x a
    let words := (List.range n.toNat).map (fun k => s.x (b + BitVec.ofNat 6 k))
    (ptrSpace p = 1 → s.inLaunch (chipCore (ptrAddr p)) = true → canHold s →
      exec (.send sw a b n h) s = .next (done s sw (holds s.me (.send (chipCore (ptrAddr p)) h.toNat words)))) ∧
    (ptrSpace p ≠ 1 → exec (.send sw a b n h) s = traps s 0x09 4) ∧
    (ptrSpace p = 1 → s.inLaunch (chipCore (ptrAddr p)) = false →
      exec (.send sw a b n h) s = traps s 0x0A p))

/-- R261 to R265: every engine instruction is one held effect that carries its operand values, counters and home; a block-queue form
awaits its status in x[a], a copy has none. R214, R270, R271: WINSET and WINCLR change a window with the chunk's commit and hold
no effect; RFCFG holds the configuration of a rafters circuit; a rectangle outside the launch raises scope fault with the
register's value. -/
def Obligations.EnginesAndWindows : Prop :=
  (∀ (sw : Bool) (a b c d : BitVec 6) (dc sc : BitVec 8) (op : BitVec 4) (stream : BitVec 12) (s : State), canHold s →
    let cmd (kind : EngineKind) (d : BitVec 6) : EngineCmd :=
      { kind := kind, b := s.x b, c := s.x c, d := s.x d, dc := dc.toNat, sc := sc.toNat, home := s.home }
    let span (k : EngineCmd) : List Nat := if s.me.task.isSome then engineSpan s k else []
    let queued (k : EngineCmd) : Host.Outcome State Fault Refusal :=
      .next (done s.tick sw (signs (awaits (holds s.me (.engine k) s.fresh) a .blockQueue s.fresh) true (span k)))
    let copied (k : EngineCmd) : Host.Outcome State Fault Refusal :=
      .next (done s.tick sw (signs (holds s.me (.engine k) s.fresh) true (span k)))
    (canAwait s a →
      exec (.bqfetch sw a b c d dc sc) s = queued (cmd .fetch d) ∧ exec (.bqstore sw a b c d dc sc) s = queued (cmd .store d) ∧
      exec (.bqtile sw a b c d dc sc) s = queued (cmd .tile d) ∧ exec (.bqgath sw a b c d dc sc) s = queued (cmd .gath d) ∧
      exec (.bqamo sw a b c dc sc op) s = queued (cmd (.amo op.toNat) 0) ∧
      exec (.bqcas sw a b c d dc sc) s = queued (cmd .cas d)) ∧
    exec (.lscopy sw b c d dc sc) s = copied (cmd .lscopy d) ∧
    exec (.xcopy sw b c d dc sc stream) s = copied (cmd (.xcopy stream.toNat) d)) ∧
  (∀ (sw : Bool) (k : BitVec 3) (b c d : BitVec 6) (rights : BitVec 4) (op : BitVec 3) (ty : BitVec 2) (w : BitVec 5) (s : State)
      (region base : Nat),
    let later (w0 w1 : Word) : Host.Outcome State Fault Refusal :=
      .next (done s sw { s.me with commitOps := s.me.commitOps ++ [.window k w0 w1] })
    let len := (s.x c).toNat
    exec (.winclr sw k) s = later 0 0 ∧
    (windowBase s (s.x b) = .ok (region, base) → (∃ z, regionSize region = some z ∧ base + len ≤ z) →
      checkRect s (s.x d) = .ok () →
      exec (.winset sw k b c d rights) s = later (BitVec.ofNat 64 (region * 2 ^ 37 + base))
        (BitVec.ofNat 64 ((s.x d).toNat % 2 ^ 27 * 2 ^ 32 + rights.toNat * 2 ^ 28 + len % 2 ^ 20))) ∧
    (checkRect s (s.x b) = .ok () → canHold s →
      exec (.rfcfg sw b op ty w) s = .next (done s sw (holds s.me (.raftersConfig op.toNat ty.toNat w.toNat (s.x b))))) ∧
    (checkRect s (s.x b) ≠ .ok () →
      exec (.rfcfg sw b op ty w) s = traps s 0x0A (s.x b)))

/-! ### The matrix array -/

namespace Sys2Proof.Spec
open Sys2Proof.Machine

/-- The state with one more instruction in the executing core's matrix queue (R176). -/
def queues (s : State) (op : MatrixOp) (duration : Nat) : State :=
  (s.setHere { s.here with matrix := s.here.matrix ++ [{ id := s.fresh, seat := s.curSeat, ia := s.me.regs.pc, op := op, done := 0,
                                                         gang := 0, readyAt := s.cycle + duration }] }).tick

/-- The executing core can run a matrix instruction and its queue has room (R88, R176): a compute core with fewer than eight
queued. -/
abbrev matrixRoom (s : State) : Prop := isHall s.curCore = false ∧ s.here.matrix.length < 8

/-- A CB16 step finds a table, or a load of one to wait for (R165). -/
abbrev tableFor (s : State) (fmt : BitVec 4) : Prop := fmt = 14 → s.here.cbValid = true ∨ s.here.cbPending ≠ []

end Sys2Proof.Spec

/-- R176, R180 to R182, R185: each matrix instruction joins the queue of the core that executes it; a ninth stalls in place; DMMA
needs F64, and MMAG a segment inside the launch rectangle; ACCRD's result waits for its instruction. R88, R176: with eight
instructions queued, the ninth stalls in place and changes nothing else; on a hall core every matrix and ring instruction takes
extension-missing, with the MAT bit as its argument. R186, R187: MGATE sets idle counts and MWAKE asks for wakes 96 cc away,
both at issue; MWAIT stalls while the seat has an instruction queued, then gives and clears the seat's status. What the model
chose in it: format 14 checks its codebook table at issue and at the step (DEDUCED log 23); which of two missing extensions a
hall core names (DESIGN CHOICE log 91). -/
def Obligations.TheMatrixQueueAndItsStatus : Prop :=
  (∀ (sw zf : Bool) (m : BitVec 4) (ga gb m3 : BitVec 3) (fmt : BitVec 4) (steps : BitVec 6) (wc : BitVec 3) (b : BitVec 6)
      (v : BitVec 5) (row : BitVec 5) (s : State), matrixRoom s →
    let n := if steps = 0 then 64 else steps.toNat
    let after (op : MatrixOp) (k : Nat) : Host.Outcome State Fault Refusal :=
      .next (done (queues s op k) sw (queues s op k).me)
    let rowBits := signatureBits 1 (chipAddr s.curCore 2 (0x1000 * m.toNat + 128 * row.toNat)) 128
    (tableFor s fmt → exec (.mma sw m ga gb fmt steps zf) s = after (.mma m ga gb fmt n zf 0) 0) ∧
    (tableFor s fmt → (wc ≠ 0 → ∃ r, s.myRect = some r ∧ rectInside (gangRect s.curCore wc.toNat) r = true) →
      exec (.mmag sw m ga gb fmt steps zf wc) s = after (.mma m ga gb fmt n zf wc.toNat) 0) ∧
    (wc ≠ 0 → (∀ r, s.myRect = some r → rectInside (gangRect s.curCore wc.toNat) r = false) →
      exec (.mmag sw m ga gb fmt steps zf wc) s =
        traps s 0x0A (gangRect s.curCore wc.toNat)) ∧
    (hasF64 s.curCore = true →
      exec (.dmma sw m3 ga gb steps zf) s = after (.mma (BitVec.ofNat 4 (2 * m3.toNat)) ga gb 7 n zf 0) 0) ∧
    exec (.accz sw m) s = after (.accz m) 8 ∧
    exec (.accscl sw m b) s = after (.accscl m ((s.x b).setWidth 32)) 32 ∧
    exec (.accwr sw v m row) s =
      .next (done (queues s (.accwr m row (s.v v)) 2) sw (signs (queues s (.accwr m row (s.v v)) 2).me true rowBits)) ∧
    exec (.accrd sw v m row) s =
      (let x := signs (queues s (.accrd m row) 0).me false rowBits
       .next (done (queues s (.accrd m row) 0) sw { x with
         results := x.results ++ [{ reg := some (.v v), val := 0, readyAt := 0, waits := s.fresh, live := true, nf := 0 }] }))) ∧
  (∀ (sw zf link : Bool) (m mask : BitVec 4) (ga gb h : BitVec 3) (fmt : BitVec 4) (steps b d : BitVec 6) (v row : BitVec 5) (s : State),
    (isHall s.curCore = false → s.here.matrix.length = 8 →
      exec (.accz sw m) s = .next (s.setMe { s.me with st := .stalled })) ∧
    (isHall s.curCore = true →
      exec (.mma sw m ga gb fmt steps zf) s = traps s 3 2 ∧ exec (.mmag sw m ga gb fmt steps zf 0) s = traps s 3 2 ∧
      exec (.accz sw m) s = traps s 3 2 ∧ exec (.accrd sw v m row) s = traps s 3 2 ∧ exec (.accwr sw v m row) s = traps s 3 2 ∧
      exec (.accscl sw m b) s = traps s 3 2 ∧ exec (.mgate sw mask b) s = traps s 3 2 ∧ exec (.mwake sw mask) s = traps s 3 2 ∧
      exec (.mwait sw d) s = traps s 3 2 ∧ exec (.ringcfg sw ga b) s = traps s 3 2 ∧ exec (.rpub sw ga b) s = traps s 3 2 ∧
      exec (.rstat sw d ga) s = traps s 3 2 ∧ exec (.rreset sw ga) s = traps s 3 2 ∧
      exec (.sclcfg sw ga link h) s = traps s 3 2)) ∧
  (∀ (sw : Bool) (mask : BitVec 4) (b d : BitVec 6) (s : State), isHall s.curCore = false →
    let idle := if s.x b = 0 then 2048 else min (2 ^ 32 - 1) (s.x b).toNat
    let status : Word := BitVec.ofNat 64
      (s.me.regs.fin.toNat * 2 ^ 32 + s.me.regs.woke.toNat * 2 + s.me.regs.wrap.toNat)
    let runs := s.here.mstep.isSome
    (∃ t, exec (.mgate sw mask b) s = .next t ∧ t.me.regs.x = s.me.regs.x ∧
      ∀ n : Fin 4, (t.here.subs[n]).idle = (if mask.getLsbD n then idle else (s.here.subs[n]).idle) ∧
        (t.here.subs[n]).awakeAt s.cycle runs = ((s.here.subs[n]).awakeAt s.cycle runs &&
          (!mask.getLsbD n || runs || decide (s.cycle < (s.here.subs[n]).idleSince + idle)))) ∧
    (∃ t, exec (.mwake sw mask) s = .next t ∧ t.me.regs.x = s.me.regs.x ∧
      ∀ n : Fin 4, (t.here.subs[n]).wakeAt =
        (if mask.getLsbD n ∧ (s.here.subs[n]).awakeAt s.cycle runs = false ∧ (s.here.subs[n]).wakeAt = none then some (s.cycle + 96)
         else (s.here.subs[n]).wakeAt)) ∧
    ((∀ e ∈ s.here.matrix, e.seat ≠ s.curSeat) →
      exec (.mwait sw d) s =
        (let x := addX s.me d status (s.cycle + 2)
         .next (done s sw { x with regs := { x.regs with fin := 0, woke := false, wrap := false } }))) ∧
    ((∃ e ∈ s.here.matrix, e.seat = s.curSeat) → exec (.mwait sw d) s = .next (s.setMe { s.me with st := .stalled })))

/-- R171, R172, R184: RINGCFG reads and checks its descriptor at issue and is held, as are RPUB, RRESET and SCLCFG; RSTAT gives the
state word of the executing core's ring. What the model chose in it: a ring base that is no multiple of 32 is argument 5 (DESIGN
CHOICE log 92). -/
def Obligations.RingInstructions : Prop :=
  ∀ (sw link : Bool) (g h : BitVec 3) (b d : BitVec 6) (s : State), isHall s.curCore = false →
    (canHold s → ∀ a, checkLocal (s.x b) 16 16 = .ok a → checkPoison s a 16 = .ok () →
      checkRing (s.readHomeWord a) (s.readHomeWord (a + 8)) = .ok () →
      exec (.ringcfg sw g b) s = .next (done s sw (holds s.me (.ringConfig g (s.readHomeWord a) (s.readHomeWord (a + 8)))))) ∧
    (canHold s → exec (.rpub sw g b) s = .next (done s sw (holds s.me (.ringPublish g (s.x b)))) ∧
      exec (.rreset sw g) s = .next (done s sw (holds s.me (.ringReset g))) ∧
      exec (.sclcfg sw g link h) s = .next (done s sw (holds s.me (.scaleLink g h link)))) ∧
    (let r := s.here.rings[g.toFin]
     let seq : BitVec 16 := if r.ready = 0 then r.hseq else (assocGet r.tags r.head).getD r.hseq
     let flag (c : Bool) (n : Nat) : Nat := if c then 2 ^ n else 0
     exec (.rstat sw d g) s = .next (done s sw (addX s.me d (BitVec.ofNat 64
       (r.sring.toNat * 2 ^ 51 + flag r.lnk 50 + flag r.eng 49 + flag r.cfg 48 + r.held % 256 * 2 ^ 40 + r.ready % 256 * 2 ^ 32 +
        seq.toNat * 2 ^ 16 + r.tail % 256 * 2 ^ 8 + r.head % 256)) (s.cycle + 2))))

/-! ### Tags, meetings, experts, groups and tasks -/

namespace Sys2Proof.Spec
open Sys2Proof.Machine

/-- A pointer to n bytes of the local store at a multiple of n: known, unblocked, space 0 (R49). -/
abbrev localPointer (p : Word) (n : Nat) : Prop :=
  codeKnown (ptrFmt p) = true ∧ codeBlocked (ptrFmt p) = false ∧ ptrBlog p = 0 ∧ ptrSpace p = 0 ∧ ptrAddr p % n = 0 ∧
    ptrAddr p + n ≤ 0x80000

/-- A pointer to a record of n bytes that an instruction reads: no poisoned word lies under it (R463). -/
abbrev recordPointer (s : State) (p : Word) (n : Nat) : Prop :=
  localPointer p n ∧ ∀ w ∈ (s.core s.home).poison, meets (ptrAddr p) n w (w + 8) = false

/-- The record's words as the chunk sees them. -/
def recordWords (s : State) (p : Word) (n : Nat) : List Word := bytesToWords (n / 8) (s.readHome (ptrAddr p) n)

/-- A tag register's reserved bits are 0 (R311). -/
abbrev tagOk (t : Word) : Prop := t.toNat < 2 ^ 40

/-- The bits of a sample group's handle: it is valid, and its reserved bits are 0 (R348). -/
abbrev handleBits (h : Word) : Prop := h.getLsbD 34 = true ∧ h.field 29 5 = 0 ∧ h.field 41 23 = 0

/-- A handle of a sample group whose home lies in the launch rectangle (R348). -/
abbrev handleOk (s : State) (h : Word) : Prop := handleBits h ∧ s.inLaunch (h.field 0 11) = true

/-- A handle is refused: a bad bit is a format fault with argument 2, a home outside the launch rectangle a scope fault with the
handle (R348). -/
def handleRefused (s : State) (h : Word) (i : Instr) : Prop :=
  (¬ handleBits h → exec i s = traps s 0x09 2) ∧
  (handleBits h → s.inLaunch (h.field 0 11) = false → exec i s = traps s 0x0A h)

end Sys2Proof.Spec

/-- R312: TAGALLOC takes the lowest free block of the least power of two that holds its size, in the tag table as every committed
TAGFREE of the launch leaves it, and gives its tag about 600 cc later (DESIGN CHOICE log 10); it gives all ones where there is
no such block or the size is not 1 to 4,096. R312: the block that is found is aligned to its size and free, no aligned free
block is lower, and one is found whenever there is one. R313, R316 to R318: TAGFREE of an aligned block changes the tag table at
the commit; TAGBIND holds its record in absolute form, and MEET its operand vectors; a reserved bit of the tag, a party above
15, and a size that is no power of two up to 4,096 or does not divide the identifier are a format fault with argument 2. What
the model chose in it: latencies given as 'about' are earliest times (DESIGN CHOICE log 10); TAGALLOC takes its block when it
issues (DEDUCED log 11); MEET signs nothing (DEDUCED log 118). -/
def Obligations.TagsAndMeetings : Prop :=
  (∀ (sw : Bool) (d n : BitVec 6) (s : State), canAwait s d →
    let v := s.settleFrees s.me.lid
    let size := (s.x n).toNat
    let none' := delivers v .tagTable d (BitVec.allOnes 64) 600
    (∀ l b, v.launch s.me.lid = some l → 1 ≤ size → size ≤ 4096 → l.findBlock (pow2AtLeast size) = some b →
      let m := pow2AtLeast size
      let u := v.modLaunch l.lid (fun l => { l with tagBlocks := (b, m) :: l.tagBlocks })
      let u := u.setMe { v.me with allocated := (BitVec.ofNat 64 b, BitVec.ofNat 64 m) :: v.me.allocated }
      let t := delivers u .tagTable d (BitVec.ofNat 64 (l.gen b * 2 ^ 24 + b)) 600
      exec (.tagalloc sw d n) s = .next (done t sw t.me)) ∧
    (size = 0 ∨ 4096 < size ∨ (∀ l, v.launch s.me.lid = some l → l.findBlock (pow2AtLeast size) = none) →
      exec (.tagalloc sw d n) s = .next (done none' sw none'.me))) ∧
  (∀ (l : Launch) (k : Nat),
    (∀ b, l.findBlock (2 ^ k) = some b → b % 2 ^ k = 0 ∧ l.blockFree b (2 ^ k) = true ∧
      ∀ a, a % 2 ^ k = 0 → l.blockFree a (2 ^ k) = true → b ≤ a) ∧
    (l.findBlock (2 ^ k) = none → ∀ a, a % 2 ^ k = 0 → l.blockFree a (2 ^ k) = false)) ∧
  (∀ (sw : Bool) (t r : BitVec 6) (b : BitVec 5) (n : BitVec 4) (s : State),
    let tag := s.x t
    let size := (s.x r).toNat
    let block := (∃ k, k ≤ 12 ∧ size = 2 ^ k) ∧ tag.field 0 24 % size = 0
    let bad := traps s 0x09 2
    (tagOk tag → block →
      exec (.tagfree sw t r) s = .next (done s sw { s.me with commitOps := s.me.commitOps ++ [.tagFree tag (s.x r)] })) ∧
    (∀ dest stat ctr, tagOk tag → recordPointer s (s.x r) 32 →
      let w := recordWords s (s.x r) 32
      let control := wordAt w 3
      let n := 128 * (control.field 8 2 + 1)
      bindControl control = true → bindPointer s (wordAt w 0) n 128 = .ok dest → bindPointer s (wordAt w 1) 8 8 = .ok stat →
      bindCounter s (wordAt w 2) = .ok ctr → canHold s →
      exec (.tagbind sw t r) s = .next (done s.tick sw (signs (holds s.me (.tagBind tag [dest, stat, ctr, control]) s.fresh) true
        (signatureBits 1 (ptrAddr dest) n ++ signatureBits 1 (ptrAddr stat) 8 ++
          if ctr = 0 then [] else signatureBits 1 (ptrAddr ctr) 16)))) ∧
    (tagOk tag → tag.field 32 8 ≤ 15 → canHold s →
      exec (.meet sw t b n) s =
        holdsOnly s sw (.meet tag ((List.range n.toNat).flatMap (fun k => vecWords (s.v (b + BitVec.ofNat 5 k)))))) ∧
    (¬ (tagOk tag ∧ block) → exec (.tagfree sw t r) s = bad) ∧
    (2 ^ 40 ≤ tag.toNat → exec (.tagbind sw t r) s = bad) ∧
    (2 ^ 40 ≤ tag.toNat ∨ 15 < tag.field 32 8 → exec (.meet sw t b n) s = bad))

/-- R333, R335, R340 to R344: every expert instruction with a name of 20 bits is held with its operand values and its home core, and
its status is awaited in x[a]; a longer name is a format fault with argument 2. -/
def Obligations.ExpertInstructionsAreHeld : Prop :=
  ∀ (sw : Bool) (a b c d : BitVec 6) (s : State), canHold s → canAwait s a →
    let held (op : ExpertOp) : Host.Outcome State Fault Refusal := holdsFor s sw a (.expert s.home op)
    let p := s.x c
    ((s.x b).toNat < 2 ^ 20 →
      (codeKnown (ptrFmt p) = true → codeBlocked (ptrFmt p) = false → ptrBlog p = 0 →
        (ptrSpace p = 0 ∧ ptrAddr p < 0x80000 ∨ ptrSpace p = 2) →
        exec (.exroute sw a b c d) s = held (.route (s.x b) p (s.x d))) ∧
      (recordPointer s p 32 → exec (.exrepl0 sw a b c) s = held (.repl0 (s.x b) (recordWords s p 32))) ∧
      exec (.exrepl1 sw a b c d) s = held (.repl1 (s.x b) p (s.x d)) ∧
      exec (.exretire0 sw a b c) s = held (.retire0 (s.x b) p) ∧
      exec (.exretire1 sw a b c) s = held (.retire1 (s.x b) p) ∧
      exec (.exstep0 sw a b) s = held (.step0 (s.x b)) ∧
      exec (.exstep1 sw a b c) s = held (.step1 (s.x b) p) ∧
      exec (.exstat sw a b c) s = held (.stat (s.x b) p) ∧
      (localPointer p 128 →
        exec (.exlook sw a b c) s = .next (done s.tick sw (signs
          (awaits (holds s.me (.expert s.home (.look (s.x b) p)) s.fresh) a .expertUnit s.fresh) false
          (signatureBits 1 (chipAddr s.home 0 (ptrAddr p)) 128))))) ∧
    (2 ^ 20 ≤ (s.x b).toNat →
      let bad := traps s 0x09 2
      exec (.exroute sw a b c d) s = bad ∧ exec (.exrepl0 sw a b c) s = bad ∧ exec (.exrepl1 sw a b c d) s = bad ∧
      exec (.exretire0 sw a b c) s = bad ∧ exec (.exretire1 sw a b c) s = bad ∧ exec (.exstep0 sw a b) s = bad ∧
      exec (.exstep1 sw a b c) s = bad ∧ exec (.exstat sw a b c) s = bad ∧ exec (.exlook sw a b c) s = bad)

/-- R348 to R354: every sample-group instruction with a valid handle of the launch, and GCFG with a valid record, is held for its
home core; all but GREWARD and GCANCEL await a status. A handle with a bad bit, or whose home lies outside the launch rectangle,
is refused. R380 to R382: TSPAWN, TSPAWNAT, QPUSH and WLPUSH are held; QPOP goes to the nearest larder at issue and awaits its
status; WLPOP takes the head of the executing core's work list, writes its 64 bytes where no published slot stands, and gives
64, or the status of an empty list. A priority key of 2^63 or more is a format fault with argument 2, and a record's home or a
target core outside the launch rectangle a scope fault. What the model chose in it: which larder QPUSH and QPOP use (DEDUCED log
83); reading a QPOP result only stalls (DEDUCED log 105). -/
def Obligations.GroupsSpawnsAndQueues : Prop :=
  (∀ (sw : Bool) (a b c : BitVec 6) (s : State),
    let h := s.x b
    (canHold s → handleOk s h →
      exec (.greward sw b c) s = holdsOnly s sw (.group s.home (.reward h (s.x c))) ∧
      exec (.gcancel sw b c) s = holdsOnly s sw (.group s.home (.cancel h (s.x c))) ∧
      (canAwait s a →
        exec (.gstat sw a b c) s = holdsFor s sw a (.group s.home (.stat h (s.x c))) ∧
        (recordPointer s (s.x c) 64 →
          exec (.gfork sw a b c) s = holdsFor s sw a (.group s.home (.fork h (recordWords s (s.x c) 64) none))))) ∧
    (canHold s → canAwait s a → handleOk s (s.x c) →
      exec (.gcfgRelease sw a c) s = holdsFor s sw a (.group s.home (.release (s.x c)))) ∧
    (canHold s → canAwait s a → recordPointer s h 32 →
      let w := recordWords s h 32
      groupConfig w = true → ptrAddr (wordAt w 0) + 8 * (wordAt w 3).field 8 7 ≤ 0x80000 →
      exec (.gcfgConfigure sw a b) s = holdsFor s sw a (.group s.home (.configure w))) ∧
    handleRefused s h (.greward sw b c) ∧ handleRefused s h (.gcancel sw b c) ∧ handleRefused s h (.gstat sw a b c) ∧
    handleRefused s h (.gfork sw a b c) ∧ handleRefused s (s.x c) (.gcfgRelease sw a c)) ∧
  (∀ (sw : Bool) (a b c qn : BitVec 6) (s : State),
    let w := recordWords s (s.x a) 64
    let home := (wordAt w 1).field 0 11
    (recordPointer s (s.x a) 64 →
      (canHold s → exec (.wlpush sw a) s = holdsOnly s sw (.workPush w)) ∧
      ((s.x b).toNat < 2 ^ 63 → s.inLaunch home = true →
        (canHold s → exec (.tspawn sw a b) s = holdsOnly s sw (.spawn true w (s.x b) home)) ∧
        (canHold s → (s.x c).toNat < 2048 → s.inLaunch (s.x c).toNat = true →
          exec (.tspawnat sw a b c) s = holdsOnly s sw (.spawn false w (s.x b) (s.x c).toNat)) ∧
        (2048 ≤ (s.x c).toNat ∨ s.inLaunch (s.x c).toNat = false →
          exec (.tspawnat sw a b c) s = traps s 0x0A (s.x c))) ∧
      (2 ^ 63 ≤ (s.x b).toNat →
        exec (.tspawn sw a b) s = traps s 0x09 2 ∧ exec (.tspawnat sw a b c) s = traps s 0x09 2) ∧
      ((s.x b).toNat < 2 ^ 63 → s.inLaunch home = false →
        exec (.tspawn sw a b) s = traps s 0x0A (s.x a) ∧ exec (.tspawnat sw a b c) s = traps s 0x0A (s.x a))) ∧
    (localPointer (s.x a) 64 → canHold s →
      exec (.qpush sw a qn) s = holdsOnly s sw (.queuePush qn.toNat (ptrAddr (s.x a)))) ∧
    (localPointer (s.x b) 64 → canAwait s a →
      (let x := awaits s.me a .larder s.fresh
       let larder := nearestLarder s.curCore
       let u := s.setMe { x with popped := { tag := s.fresh, queue := some (larder, qn.toNat), record := none } :: x.popped }
       let t : State := { u with
         fresh := s.fresh + 2
         flights := s.flights ++ [{ id := s.fresh + 1, due := s.cycle + 600, src := s.curCore, dst := s.curCore, lid := s.me.lid,
                                    cid := s.me.cid, seat := s.curSeat, tag := s.fresh, ia := s.me.regs.pc, cpc := s.me.snap.pc,
                                    backoff := 64, mig := s.me.origin.isSome, body := .pop larder qn.toNat (s.x b) s.home }] }
       exec (.qpop sw a b qn) s = .next (done t sw t.me)) ∧
      (s.here.work = [] →
        let t := delivers s .workList a 0x0300000000000000 8
        exec (.wlpop sw a b) s = .next (done t sw t.me)) ∧
      (∀ r rest, s.here.work = r :: rest → memoriesWf s →
        (∃ t, exec (.wlpop sw a b) s = .next t ∧ t.here.work = rest ∧ t.me.regs.x = s.me.regs.x ∧
          ((s.core s.home).guardedBy (ptrAddr (s.x b)) 64 = none →
            (∀ k, k < 64 → (t.core s.home).store.get (ptrAddr (s.x b) + k) = r.bytes.getD k 0) ∧
            (∀ m, m < ptrAddr (s.x b) ∨ ptrAddr (s.x b) + 64 ≤ m →
              (t.core s.home).store.get m = (s.core s.home).store.get m) ∧
            (a ≠ 0 → ∃ f tag, t.flights = s.flights ++ [f] ∧ f.due = s.cycle + 8 ∧ f.body = .deferred tag 64)) ∧
          (∀ g, (s.core s.home).guardedBy (ptrAddr (s.x b)) 64 = some g →
            (t.core s.home).store = (s.core s.home).store ∧
            (a ≠ 0 → ∃ f ∈ t.flights, f.due = s.cycle + 8 ∧ ∃ tag, f.body = .deferred tag 0x0101000000000000) ∧
            ∃ f ∈ t.flights, ∃ d, f.body = .nack d ∧ d.cause = 0x11 ∧ d.arg = BitVec.ofNat 64 (0x100 + g))))))

/-! ### The system -/

/-- R44, R46, R399, R400: SYSR and CAPR give the values of the system and capability registers 2 cc later; a number that no row
names is an illegal instruction whose argument is the head, and a hall register read on a compute core a privileged one. R44,
R45, R399, R400: SYSW writes NF, RMODE, SEED (0 becomes 1), or on a hall core HVEC, HEPC and HCTX, and nothing else; on a
compute core a hall register is privileged, and 0 to 6 and 10 to 0x1FF are illegal. What the model chose in it: the ring of
contexts without HTRQ is at base 0 of hall 0.0 (DEDUCED log 30); LEVINT without a launch reads 4,096 (DESIGN CHOICE log 106). -/
def Obligations.SystemRegisters : Prop :=
  (∀ (sw : Bool) (d : BitVec 6) (num : BitVec 10) (s : State),
    let x := s.me
    let h := isHall s.curCore
    let n := num.toNat
    let launch := s.launch x.lid
    let k := s.core s.home
    let value : Word :=
      if n = 0 then (if h then 0 else BitVec.ofNat 64 s.home)
      else if n = 1 then BitVec.ofNat 64 (s.curSeat + (if h then 0x7FF else s.curCore) * 2 ^ 16)
      else if n = 2 then (if h then 0 else BitVec.ofNat 64 x.lid)
      else if n = 3 then (if h then 0 else (s.myRect).getD 0)
      else if n = 4 then (if h ∨ x.record.w0.getLsbD 49 = false then 0 else x.record.w2)
      else if n = 5 then BitVec.ofNat 64 x.count
      else if n = 6 then BitVec.ofNat 64 (x.budget - (s.cycle - x.startAt))
      else if n = 7 then x.regs.nf.setWidth 64
      else if n = 8 then x.regs.rmode.setWidth 64
      else if n = 9 then x.regs.seed
      else if n = 10 then BitVec.ofNat 64
        ((if k.cbValid then 1 else 0) + (if k.cbLoading then 2 else 0) + k.cbLoads % 65536 * 2 ^ 32)
      else s.here.droops
    let hall : Word :=
      if n = 0x200 then x.hall.hvec.setWidth 64 else if n = 0x201 then x.hall.hepc.setWidth 64
      else if n = 0x202 then x.hall.hcause.setWidth 64 else if n = 0x203 then x.hall.hctx.setWidth 64
      else BitVec.ofNat 64 s.cycle
    let cap : Nat :=
      if n = 0 then extensions s.curCore else if n = 1 then 96 else if n = 2 then 524288 else if n = 3 then 4
      else if n = 4 then 64 else if n = 5 then 32
      else if h then 4096 else (launch.map (fun l => l.levint)).getD 4096
    (n ≤ 11 → exec (.sysr sw d num) s =
      .next (done s sw (addX x d value (s.cycle + 2 + if n = 10 then homeLatency s else 0)))) ∧
    (h = true → n = 0x200 ∨ n = 0x201 ∨ n = 0x202 ∨ n = 0x203 ∨ n = 0x208 →
      exec (.sysr sw d num) s = .next (done s sw (addX x d hall (s.cycle + 2)))) ∧
    (12 ≤ n → n < 0x200 → exec (.sysr sw d num) s =
      traps s 0x01 (BitVec.ofNat 64 (headOfInstr (.sysr sw d num)))) ∧
    (h = false → 0x200 ≤ n → exec (.sysr sw d num) s =
      traps s 0x02 (BitVec.ofNat 64 (headOfInstr (.sysr sw d num)))) ∧
    (n ≤ 6 → exec (.capr sw d num) s = .next (done s sw (addX x d (BitVec.ofNat 64 cap) (s.cycle + 2)))) ∧
    (7 ≤ n → exec (.capr sw d num) s =
      traps s 0x01 (BitVec.ofNat 64 (headOfInstr (.capr sw d num))))) ∧
  (∀ (sw : Bool) (a : BitVec 6) (num : BitVec 10) (s : State),
    let w := s.x a
    let x := s.me
    let head := BitVec.ofNat 64 (headOfInstr (.sysw sw a num))
    exec (.sysw sw a 7) s = .next (done s sw { x with regs := { x.regs with nf := w.setWidth 6 } }) ∧
    exec (.sysw sw a 8) s = .next (done s sw { x with regs := { x.regs with rmode := w.setWidth 3 } }) ∧
    exec (.seedWrite sw a) s = .next (done s sw { x with regs := { x.regs with seed := if w = 0 then 1 else w } }) ∧
    (isHall s.curCore = true →
      exec (.sysw sw a 0x200) s = .next (done s sw { x with hall := { x.hall with hvec := w.setWidth 48 } }) ∧
      exec (.sysw sw a 0x201) s = .next (done s sw { x with hall := { x.hall with hepc := w.setWidth 48 } }) ∧
      exec (.sysw sw a 0x203) s = .next (done s sw { x with hall := { x.hall with hctx := w.setWidth 16 } })) ∧
    (isHall s.curCore = false → 0x200 ≤ num.toNat →
      exec (.sysw sw a num) s = traps s 0x02 head) ∧
    (num.toNat < 0x200 → num ≠ 7 → num ≠ 8 →
      exec (.sysw sw a num) s = traps s 0x01 head))

/-- R403: a write of HDECIDE on a hall core drops the ticket's record; a handle of no undecided record changes nothing. For a
trapped seat, on its core or in its context's saved state, resume makes it run again from its registers, end-continuation frees
it, and end-launch takes its launch away. For a suspended record, resume sends it to its home core, as a record without ts
(R385), and the other two discard it, or its whole launch. R399, R412 to R417: on a hall core TLBINV, CTXSAVE, CTXLOAD, LPMAP
and the three forms of VFCFG are held with their operand values, the last two kinds with a status in x[d]; on a compute core
each is privileged, and its argument is the head. What the model chose in it: VFCFG's operand bits and status codes (DEDUCED log
25). -/
def Obligations.HallDecisionsAndPrivilege : Prop :=
  (∀ (sw : Bool) (a : BitVec 6) (s : State), isHall s.curCore = true →
    let same := Host.Outcome.next (done s sw s.me)
    (s.tickets.find? (·.id == (s.x a).field 0 16) = none →
      exec (.hdecideResume sw a) s = same ∧ exec (.hdecideEndContinuation sw a) s = same ∧
        exec (.hdecideEndLaunch sw a) s = same) ∧
    (∀ k, s.tickets.find? (·.id == (s.x a).field 0 16) = some k →
      let rest := s.tickets.filter (·.id != k.id)
      (∀ r, k.record = some r →
        (let t : State := { s with
           tickets := rest, fresh := s.fresh + 1,
           flights := s.flights ++ [{ id := s.fresh, due := s.cycle + 40, src := k.core, dst := r.home, lid := r.lid, cid := 0,
                                      seat := 0, tag := 0, ia := 0, cpc := 0, backoff := 64, body := .record r.untimed }] }
         exec (.hdecideResume sw a) s = .next (done t sw t.me)) ∧
        exec (.hdecideEndContinuation sw a) s = .next (done { s with tickets := rest } sw s.me) ∧
        ∃ t, exec (.hdecideEndLaunch sw a) s = .next t ∧ (∀ j ∈ t.tickets, j.id ≠ k.id) ∧ ∀ l ∈ t.launches, l.lid ≠ r.lid) ∧
      (k.record = none → k.seat < 4 → s.curSeat < 4 → (k.core ≠ s.curCore ∨ k.seat ≠ s.curSeat) →
        (∀ c, s.context k.ctx = some c → assocGet c.saved k.core = none) →
        (∃ t, exec (.hdecideResume sw a) s = .next t ∧ t.tickets = rest ∧ (t.seat k.core k.seat).st = .running ∧
          (t.seat k.core k.seat).ticket = 0 ∧ (t.seat k.core k.seat).regs = (s.seat k.core k.seat).regs) ∧
        (∃ t, exec (.hdecideEndContinuation sw a) s = .next t ∧ t.tickets = rest ∧ (t.seat k.core k.seat).st = .free) ∧
        (∃ t, exec (.hdecideEndLaunch sw a) s = .next t ∧ (∀ j ∈ t.tickets, j.id ≠ k.id) ∧
          ∀ l ∈ t.launches, l.lid ≠ (s.seat k.core k.seat).lid)) ∧
      (∀ c j, k.record = none → s.context k.ctx = some c → assocGet c.saved k.core = some j →
        (∃ t y i, exec (.hdecideResume sw a) s = .next t ∧ t.tickets = rest ∧ t.context k.ctx = some y ∧
          assocGet y.saved k.core = some i ∧ (i.seat k.seat).st = .running ∧ (i.seat k.seat).ticket = 0 ∧
          (i.seat k.seat).regs = (j.seat k.seat).regs) ∧
        (∃ t y i, exec (.hdecideEndContinuation sw a) s = .next t ∧ t.tickets = rest ∧ t.context k.ctx = some y ∧
          assocGet y.saved k.core = some i ∧ (i.seat k.seat).st = .free) ∧
        (∃ t, exec (.hdecideEndLaunch sw a) s = .next t ∧ (∀ i ∈ t.tickets, i.id ≠ k.id) ∧
          ∀ l ∈ t.launches, l.lid ≠ (j.seat k.seat).lid)))) ∧
  (∀ (sw : Bool) (a b c d : BitVec 6) (s : State),
    let vf := (s.x b).field 0 7
    let rect := s.x c
    let ctx := (s.x b).toNat
    let trap (i : Instr) : Prop :=
      exec i s = traps s 0x02 (BitVec.ofNat 64 (headOfInstr i))
    (isHall s.curCore = true → canHold s →
      ((s.x b).field 0 7 ≤ 95 → (s.x b).field 9 3 ≤ 4 → (s.x b).toNat < 2 ^ 12 →
        ((s.x b).getLsbD 8 = true ∨ ptrSpace (s.x a) = 2) →
        exec (.tlbinv sw a b) s = holdsOnly s sw (.tlbInv (s.x a) (s.x b))) ∧
      (∀ idx, counterOperand s (s.x a) = .ok (s.curCore, idx) → 1 ≤ ctx → ctx ≤ 65535 → rectShape rect = true →
        (∀ c ∈ rectCores rect, s.inPartition ctx true c = true) →
        exec (.ctxsave sw a b c) s = holdsOnly s sw (.ctxSave (s.x a) (s.x b) rect) ∧
        exec (.ctxload sw a b c) s = holdsOnly s sw (.ctxLoad (s.x a) (s.x b) rect)) ∧
      (canAwait s d →
        exec (.lpmap sw d b c) s = holdsFor s sw d (.lpMap (s.x b) (s.x c)) ∧
        (vf ≤ 95 → (s.x b).getLsbD 7 = false → (s.x b).toNat < 2 ^ 10 →
          ((s.x b).field 8 2 ≠ 3 → recordPointer s (s.x c) 64 →
            exec (.vfcfgConfigure sw d b c) s = holdsFor s sw d (.vfcfg vf 0 (s.readHome (ptrAddr (s.x c)) 64))) ∧
          exec (.vfcfgActivate sw d b c) s = holdsFor s sw d (.vfcfg vf 1 []) ∧
          exec (.vfcfgDeactivate sw d b c) s = holdsFor s sw d (.vfcfg vf 2 [])))) ∧
    (isHall s.curCore = false →
      trap (.tlbinv sw a b) ∧ trap (.ctxsave sw a b c) ∧ trap (.ctxload sw a b c) ∧ trap (.lpmap sw d b c) ∧
      trap (.vfcfgConfigure sw d b c) ∧ trap (.vfcfgActivate sw d b c) ∧ trap (.vfcfgDeactivate sw d b c) ∧
      trap (.hdecideResume sw a) ∧ trap (.hdecideEndContinuation sw a) ∧ trap (.hdecideEndLaunch sw a) ∧ trap (.sysret sw)))

/-! ### Events of a seat -/

namespace Sys2Proof.Spec
open Sys2Proof.Machine

/-- The registers once a park point has written the group results in program order: flags always, values of those that are still
wanted (R33, R36, R71). -/
def landed (x : Seat) : Regs :=
  x.results.foldl (fun g r =>
    let g := { g with nf := g.nf ||| r.nf }
    match r.reg, r.live with
    | some d, true => g.write d r.val
    | _, _ => g) x.regs

/-- A flight that an event of its core can take now: its time has come, it is its turn in the order of arrival and of its path, no
commit holds what it changes, and its core takes it (R229, R249, R279, R407, R475, R483). -/
abbrev arrives (s : State) (f : Nat) (x : Flight) : Prop := s.arriving f = some x

end Sys2Proof.Spec

/-- R31, R33, R36, R198: at a park point the group results are written in program order; without a boundary the seat runs on, at one
it is committing and its place comes 4 cc later. R37, R38, R192, R195, R197, R213, R246, R389, R396, R398: the events that move
one seat on. A deferred result lands in its register, and in the chunk-start registers if an earlier chunk asked for it; a full
wait that is met lets the seat run when no seat that comes first waits for the same word, with the words that it is to take
reserved; the 513th instruction, or one that names a register whose result is still held, is preceded by a boundary; a chunk
past its budget takes exception 0x18, granted or not; an aborted task re-runs once the effects it waited for are complete; and
the end of a hall thread's slice enters the service at the next chunk boundary with HCAUSE 0xFF, where a thread of its class or
a higher one waits and no seat is free with its seat given up and the thread, in its service, at the tail of the run queue.
R209, R276, R277: a chunk in conflict aborts and runs again from its start at once, counting its aborts in a row; with the
eighth it takes its home core's priority, where nobody holds it and no other chunk's ring pops abort with it. What the model
chose in it: latencies given as 'about' are earliest times (DESIGN CHOICE log 10); the budget also strikes a chunk that waits at
step 5; what has drained or issued stays (DEDUCED log 34); which thread of the lowest class is displaced (DESIGN CHOICE log
116); when a thread gives up its seat (DEDUCED log 117). -/
def Obligations.SeatsMoveOn : Prop :=
  (∀ (c k : Nat) (s : State),
    let x := s.seat c k
    x.st = .parked → x.haltedAt = none → (∀ g ∈ x.results, g.waits = 0 ∧ g.readyAt ≤ s.cycle) →
    (x.boundary = none → ∃ t, exec (.parkPoint c k) s = .next t ∧ (t.seat c k).st = .running ∧ (t.seat c k).results = [] ∧
      (t.seat c k).regs = landed x ∧ (t.seat c k).snap = x.snap) ∧
    (x.boundary ≠ none → ∃ t, exec (.parkPoint c k) s = .next t ∧ (t.seat c k).st = .committing ∧ (t.seat c k).results = [] ∧
      (t.seat c k).grantAt = s.cycle + 4 ∧ (t.seat c k).regs = landed x ∧ (t.seat c k).snap = x.snap)) ∧
  (∀ (c k : Nat) (s : State),
    let x := s.seat c k
    let home := seatHome c x
    (∀ f y tag v d, arrives s f y → y.body = .deferred tag v → (s.dropFlight f).seatAwaiting tag = some (c, k, d) →
      ∃ t, exec (.deferredResultLanding f) s = .next t ∧
        (t.seat c k).regs = x.regs.write d.reg (v.setWidth 1024) ∧
        (t.seat c k).snap = (if d.old then x.snap.write d.reg (v.setWidth 1024) else x.snap) ∧
        (∀ e ∈ (t.seat c k).deferred, e ≠ d) ∧ (∀ g ∈ t.flights, g.id ≠ f)) ∧
    (∀ l b, x.st = .stalled → x.haltedAt = none → x.waitFull = some (l, b) → (∀ a ∈ l, wordFull (s.core home) c k x a = b) →
      s.testsAfter c k home (if b then l else []) = false →
      ∃ t, exec (.fullWaitSatisfied c k) s = .next t ∧ t.seat c k = { x with st := .running, waitFull := none } ∧
        (t.core home).reserved = (s.waitTakes c k).map (fun a => (a, c, k)) ++ (s.core home).reserved) ∧
    (x.st = .running →
      (x.count = 512 ∨ ∃ w i, fetchAt (s.core c) x.regs.pc = .words w ∧ decode w.head w.tail = .ok i ∧ gate x w i = .boundary) →
      exec (.implicitBoundary c k) s = .next (s.setSeat c k { x with st := .parked, boundary := some .implicit })) ∧
    ((x.st = .running ∨ x.st = .parked ∨ x.st = .stalled ∨ x.st = .committing) → x.started = true →
      x.haltedAt = none → x.budget ≤ s.cycle - x.startAt →
      exec (.budgetExceeded c k) s = .next (s.fault c k 0x18 (BitVec.ofNat 64 x.budget) x.regs.pc)) ∧
    (∀ l, x.st = .stalled → x.rerun = some l → s.effectsDone l = true →
      exec (.taskRerun c k) s = .next (s.setSeat c k { x with st := .running, rerun := none })) ∧
    (∀ h, s.threadOn c k = some h → x.hall.sliceEnd = false → h.since + 4000000 ≤ s.cycle →
      ∃ t, exec (.sliceEnd c k) s = .next t ∧ (t.seat c k).hall.sliceEnd = true ∧ (t.seat c k).regs = x.regs) ∧
    (2048 ≤ c → k < 4 → x.st = .running → x.started = false → x.hall.sliceEnd = true → x.hall.service = false →
      let inService (y : Seat) : Prop := y.regs = { x.regs with pc := x.hall.hvec } ∧ y.hall.hepc = x.regs.pc ∧
        y.hall.hcause = 0xFF ∧ y.hall.service = true
      let gives (h : HallThread) : Prop := s.hallFull = true ∧ ∃ r ∈ s.runQueue, r.ready = true ∧ r.prio ≤ h.prio
      ((∀ h, s.threadOn c k = some h → ¬gives h) →
        ∃ t, exec (.hallServiceEntry c k) s = .next t ∧ inService (t.seat c k)) ∧
      (∀ h, s.threadOn c k = some h → gives h →
        ∃ t g y, exec (.hallServiceEntry c k) s = .next t ∧ (t.seat c k).st = .free ∧ t.runQueue.getLast? = some g ∧
          g.cid = h.cid ∧ g.ready = true ∧ g.place = none ∧ g.kept = some y ∧ inService y))) ∧
  (∀ (c k : Nat) (s : State),
    let x := s.seat c k
    let home := seatHome c x
    x.conflict = true → x.granted = false → x.haltedAt = none → (x.st = .running ∨ x.st = .committing) → k < 4 →
      ∃ t, exec (.conflictAbort c k) s = .next t ∧ (t.seat c k).st = .running ∧ (t.seat c k).regs = x.snap ∧
        (t.seat c k).wbuf = [] ∧ (t.seat c k).held = [] ∧ (t.seat c k).conflict = false ∧
        (t.seat c k).conflictRow = x.conflictRow + 1 ∧
        ((∀ o ∈ (s.core c).popOrder, o.2 = k) →
          (7 ≤ x.conflictRow → (s.core home).priority = none → (s.core home).priorityQueue = [] →
            (t.core home).priority = some (c, k)) ∧
          (x.conflictRow < 7 → (t.core home).priority = (s.core home).priority)))

/-- R198, R272, R274: the grant of a place in the commit order, to the lowest ready seat of its core. The chunk drains with its
grant: every byte that a chunk of no task wrote is then in its home core's store, and every other byte of that store is as it
was; its effects' turn comes 4 cc later, and the round trip to its home later still where it configures a sample group (R350). A
chunk whose check waits takes no place, and one whose check fails takes its exception. A finished task's grant is the same.
R112, R195, R198, R200, R249, R252, R278, R279: the end of a commit, within its chunk's budget. A counter update on another core
leaves for its owner, and one on the executing core is done at once. With no effect left, the seat runs its next chunk from the
registers as they are at a chunk boundary or a fence, or, on a retired hall core, its thread moves to the run queue (R471); at
HEND it is free; at a WAITC it is free too, and its record, with the PC after the WAITC and x1 to x5, is on its way to the
counter's owner or parked there. What the model chose in it: which instruction a failing commit check names (DEDUCED log 57);
local effects execute where the effects issue, and an LSAMO on a published slot traps deferred (DEDUCED log 67); the place of a
commit (DEDUCED log 68). -/
def Obligations.ChunksDrainAndEnd : Prop :=
  (∀ (c k : Nat) (s : State),
    let x := s.seat c k
    let home := seatHome c x
    let either (m : Nat) : Bool := s.chunkReady c m && (s.taskMay (s.seat c m) || s.finishedMay (s.seat c m)) && s.checked c m
    c < 2064 → k < 4 → s.chunkReady c k = true → memoriesWf s →
    (s.taskMay x = true → s.grantTurn c k either = true →
      (s.commitCheck c k = .ok () →
        ∃ t, exec (.commitGrant c k) s = .next t ∧ (t.seat c k).granted = true ∧ (t.seat c k).wbuf = [] ∧
          t.place = (s.cycle, grantKey c) ∧ t.cycle = s.cycle ∧ s.cycle + 4 ≤ (t.seat c k).grantAt ∧
          (x.task = none → (t.seat c k).regs = x.regs ∧ (t.seat c k).held = x.held ∧
            (t.seat c k).grantAt = s.cycle + 4 + s.configureTrip c home x.held ∧
            ∀ a, (t.core home).store.get a = (assocGet x.wbuf a).getD ((s.core home).store.get a))) ∧
      (s.commitCheck c k = .error .wait → exec (.commitGrant c k) s = .next s) ∧
      (∀ ia cause arg, s.commitCheck c k = .error (.trap ia cause arg) →
        exec (.commitGrant c k) s = .next (s.fault c k cause arg ia))) ∧
    (s.finishedMay x = true → s.grantTurn c k either = true → s.commitCheck c k = .ok () →
      ∃ t, exec (.taskCommit c k) s = .next t ∧ (t.seat c k).granted = true ∧ s.cycle + 4 ≤ (t.seat c k).grantAt ∧
        (t.seat c k).wbuf = [] ∧ t.place = (s.cycle, grantKey c))) ∧
  (∀ (c k : Nat) (s : State),
    let x := s.seat c k
    let stays : Prop := s.hallRetired c = false ∨ s.threadOn c k = none
    let goesOn (t : State) : Prop := (t.seat c k).st = .running ∧ (t.seat c k).regs = x.regs ∧ (t.seat c k).snap = x.regs ∧
      (t.seat c k).count = 0 ∧ (t.seat c k).boundary = none ∧ (t.seat c k).started = false
    c < 2064 → k < 4 → x.st = .committing → x.granted = true → x.grantAt ≤ s.cycle → s.cycle - x.startAt < x.budget →
    x.origin = none → x.trap = none →
    (x.held = [] →
      (x.boundary = some .chunk ∨ x.boundary = some .implicit ∨ (∃ f, x.boundary = some (.fence f)) →
        (stays → ∃ t, exec (.commitGrant c k) s = .next t ∧ goesOn t) ∧
        (∀ h, s.hallRetired c = true → s.threadOn c k = some h → ∃ t g y, exec (.commitGrant c k) s = .next t ∧
          (t.seat c k).st = .free ∧ t.runQueue.getLast? = some g ∧ g.cid = h.cid ∧ g.ready = true ∧ g.place = none ∧
          g.kept = some y ∧ y.regs = x.regs)) ∧
      (x.boundary = some .hend → ∃ t, exec (.commitGrant c k) s = .next t ∧ (t.seat c k).st = .free ∧ t.flights = s.flights) ∧
      (∀ addr core idx thr ia, x.boundary = some (.waitc addr core idx thr ia) → s.pathHeld c x = false →
        let r : Record := { x.suspendRecord with last := some c }
        (core ≠ c → ∃ t g, exec (.commitGrant c k) s = .next t ∧ (t.seat c k).st = .free ∧ t.flights = s.flights ++ [g] ∧
          g.dst = core ∧ g.due = s.cycle + s.transit c core ∧ g.body = .waitc addr idx thr r) ∧
        (core = c → s.ownTurn c 1 = true → (s.core c).counterHeld c idx = false → ((s.core c).counters[idx.toFin]).value.toNat < thr.toNat →
          ∃ t w, exec (.commitGrant c k) s = .next t ∧ (t.seat c k).st = .free ∧
            (t.core c).waiters = (s.core c).waiters ++ [w] ∧ w.record = r ∧ w.idx = idx ∧ w.thr = thr))) ∧
    (∀ h addr core idx op, x.held = [h] → h.body = .counter addr core idx op → x.boundary = some .chunk → s.pathHeld c x = false →
      stays →
      (core ≠ c → ∃ t g, exec (.commitGrant c k) s = .next t ∧ goesOn t ∧ t.flights = s.flights ++ [g] ∧ g.dst = core ∧
        g.src = c ∧ g.due = s.cycle + s.transit c core ∧ g.body = .effect h.body) ∧
      (core = c → ∀ new, ((s.core c).counters[idx.toFin]).apply op = .ok new →
        ∃ t, exec (.commitGrant c k) s = .next t ∧ goesOn t ∧ (t.core c).counters = (s.core c).counters.set idx.toFin new)))

/-! ### Events that move records -/

namespace Sys2Proof.Spec
open Sys2Proof.Machine

/-- A flight whose time has come, where no core's state keeps it waiting. -/
abbrev due (s : State) (f : Nat) (x : Flight) : Prop := s.flight f = some x ∧ x.due ≤ s.cycle

/-- Seat k of core c has started a record: its registers x1 to x7 and its PC are the record's, and it issues 8 cc later (R189,
R190, R201). -/
def starts (s t : State) (c k : Nat) (r : Record) (pc : BitVec 48) : Prop :=
  let y := t.seat c k
  y.st = .running ∧ y.regs.pc = pc ∧ y.resumeAt = s.cycle + 8 ∧ y.snap = y.regs ∧ y.regs.x[1] = r.a1 ∧ y.regs.x[2] = r.a2 ∧
    y.regs.x[3] = r.a3 ∧ y.regs.x[4] = r.a4 ∧ y.regs.x[5] = r.a5 ∧ y.regs.x[6] = r.w1 ∧ y.regs.x[7] = r.x7

/-- A seat may take work, and no seat transfer waits for its core. -/
abbrev idleSeat (s : State) (c k : Nat) : Prop := c < 2064 ∧ k < 4 ∧ s.mayTake c k = true ∧ s.transferAt c = none

end Sys2Proof.Spec

/-- R200, R201, R207, R233, R362, R376, R380: records reach their lists. A released record, behind no negative acknowledgement of
its path, joins its core's work list when it may migrate, else the ready list, and so does an initial record, with its entry
line in the cache; a hall thread's joins the run queue (R396), and another one for a retired hall core a working one's list
(R471); a spawned one and a pulled one join the ready list, a levelled one the work list, or the larder's priority queue where
32 are there; a launch's initial records leave the larder 600 cc after its commit. R377, R381, R384: the larders' queues. A push
joins the tail of its queue, or waits for the hall's extension where the queue is full, which lets it in; a pop takes the head,
lands its 64 bytes in the home store that the QPOP named and gives 64, or finds nothing, or, where a published slot stands
there, lands nothing and is refused; a pull takes a record of the first launch in order that has one, and its answer comes back
300 cc later. R207: at a balancing point every core of the launch whose work list is at least two longer than its shortest
neighbour's ships records from the tail, on the lengths as they stood, and the next point comes one interval later. What the
model chose in it: latencies given as 'about' are earliest times (DESIGN CHOICE log 10); the order of a ready list (DEDUCED log
50); before the first horizon no task commits and the window counts from 0 (DEDUCED log 51). -/
def Obligations.RecordsAndTheLarder : Prop :=
  (∀ (f : Nat) (x : Flight) (s : State) (r : Record) (lid : Nat) (l : Launch),
    let k := s.core x.dst
    let joins (i : Instr) : Prop :=
      (r.w0.getLsbD 48 = true → isHall x.dst = false →
        (k.work.length < 32 → ∃ t, exec i s = .next t ∧ (t.core x.dst).work = k.work ++ [r] ∧ (t.core x.dst).ready = k.ready) ∧
        (32 ≤ k.work.length → ∃ t g, exec i s = .next t ∧ (t.core x.dst).work = k.work ∧ (t.core x.dst).ready = k.ready ∧
          t.flights = s.flights.filter (·.id != f) ++ [g] ∧ g.body = .push (nearestLarder x.dst) none r ∧ g.due = s.cycle + 600)) ∧
      (r.w0.getLsbD 48 = false ∨ isHall x.dst = true →
        ((isHall x.dst = true → s.thread r.cid = none ∧ s.hallRetired x.dst = false) →
          ∃ t, exec i s = .next t ∧ (t.core x.dst).ready = k.ready ++ [r] ∧ (t.core x.dst).work = k.work) ∧
        (∀ h, isHall x.dst = true → s.thread r.cid = some h → ∃ t, exec i s = .next t ∧
          t.runQueue = s.runQueue.filter (·.cid != h.cid) ++ [{ h with record := some r, ready := true, place := none }]) ∧
        (∀ d, isHall x.dst = true → s.thread r.cid = none → s.hallRetired x.dst = true → s.workingHalls.head? = some d →
          ∃ t, exec i s = .next t ∧ (t.core d).ready = (s.core d).ready ++ [r]))
    (arrives s f x → x.body = .record r → s.nackBefore x = false → joins (.recordReady f)) ∧
    (∀ line, arrives s f x → x.body = .initial r line → joins (.recordReady f)) ∧
    (∀ a bs, arrives s f x → x.body = .initial r (some (a, bs)) →
      ∃ t, exec (.recordReady f) s = .next t ∧ assocGet (t.core x.dst).lines a = some bs) ∧
    (arrives s f x → x.body = .spawned r → isHall x.dst = false →
      ∃ t, exec (.recordReady f) s = .next t ∧ (t.core x.dst).ready = k.ready ++ [r] ∧ (t.core x.dst).work = k.work) ∧
    (arrives s f x → x.body = .levelled r →
      (k.work.length < 32 → ∃ t, exec (.levelledRecordArrival f) s = .next t ∧ (t.core x.dst).work = k.work ++ [r]) ∧
      (32 ≤ k.work.length → ∃ t g, exec (.levelledRecordArrival f) s = .next t ∧ (t.core x.dst).work = k.work ∧
        t.flights = s.flights.filter (·.id != f) ++ [g] ∧ g.body = .push (nearestLarder x.dst) none r ∧ g.due = s.cycle + 600)) ∧
    (arrives s f x → isHall x.dst = false → ∀ o, x.body = .pulled o →
      ∃ t, exec (.priorityPullReturn f) s = .next t ∧ (t.core x.dst).pulling = false ∧
        (t.core x.dst).ready = k.ready ++ o.toList) ∧
    (s.launch lid = some l → l.pending ≠ [] → l.startAt + 600 ≤ s.cycle →
      ∃ t, exec (.initialRecordSend lid) s = .next t ∧ (∃ m, t.launch lid = some m ∧ m.pending = []) ∧
        (t.flights.take s.flights.length = s.flights) ∧ t.flights.length = s.flights.length + l.pending.length ∧
        ∀ i p, l.pending[i]? = some p → ∃ g line, t.flights[s.flights.length + i]? = some g ∧ g.dst = p.home ∧
          g.due = s.cycle + s.transit 2048 p.home ∧ g.body = .initial p line)) ∧
  (∀ (f : Nat) (x : Flight) (s : State) (l : Launch) (larder q : Nat) (r : Record),
    let rest := s.flights.filter (·.id != f)
    (due s f x → s.launch x.lid = some l → x.body = .push larder none r →
      (s.extending x.lid larder none x.id = false → l.queue larder none < l.capacity larder none →
        ∃ t m, exec (.larderPush f) s = .next t ∧ t.launch x.lid = some m ∧ t.flights = rest ∧
          (if r.w0.getLsbD 49 then m.prio1 = l.prio1 ++ [{ larder := larder, record := r }] ∧ m.prio0 = l.prio0
           else m.prio0 = l.prio0 ++ [{ larder := larder, record := r }] ∧ m.prio1 = l.prio1)) ∧
      (s.extending x.lid larder none x.id = true ∨ l.capacity larder none ≤ l.queue larder none →
        ∃ t g, exec (.larderPush f) s = .next t ∧ g ∈ t.flights ∧ g.id = f ∧
          g.body = .extend larder none r ∧ t.launches = s.launches)) ∧
    (due s f x → s.launch x.lid = some l → x.body = .push larder (some q) r → s.extending x.lid larder (some q) x.id = false →
      l.queue larder (some q) < l.capacity larder (some q) → ∃ t m, exec (.larderPush f) s = .next t ∧ t.launch x.lid = some m ∧
        assocGet m.fifos (larder, q) = some ((assocGet l.fifos (larder, q)).getD [] ++ [r])) ∧
    (s.flight f = some x → s.launch x.lid = some l → x.body = .extend larder (some q) r →
      s.extending x.lid larder (some q) x.id = false → ∃ t m, exec (.queueExtension f) s = .next t ∧ t.launch x.lid = some m ∧
        assocGet m.fifos (larder, q) = some ((assocGet l.fifos (larder, q)).getD [] ++ [r]) ∧
        m.capacity larder (some q) = l.capacity larder (some q) + 1) ∧
    (∀ dst home, due s f x → s.launch x.lid = some l → x.body = .pop larder q dst home → (s.core home).lands f = true →
      memoriesWf s →
      (∀ more, assocGet l.fifos (larder, q) = some (r :: more) →
        ∃ t m g, exec (.larderPop f) s = .next t ∧ t.launch x.lid = some m ∧ assocGet m.fifos (larder, q) = some more ∧
          ((s.core home).guardedBy (ptrAddr dst) 64 = none →
            t.flights = rest ++ [g] ∧ g.dst = x.src ∧ g.body = .deferred x.tag 64 ∧
            (∀ k, k < 64 → (t.core home).store.get (ptrAddr dst + k) = r.bytes.getD k 0) ∧
            ∀ k, k < ptrAddr dst ∨ ptrAddr dst + 64 ≤ k → (t.core home).store.get k = (s.core home).store.get k) ∧
          (∀ ring, (s.core home).guardedBy (ptrAddr dst) 64 = some ring →
            (t.core home).store = (s.core home).store ∧ g.dst = x.src ∧ g.body = .deferred x.tag 0x0101000000000000 ∧
            ∃ h d, t.flights = rest ++ [g, h] ∧ h.dst = x.src ∧ h.body = .nack d ∧ d.cause = 0x11 ∧
              d.arg = BitVec.ofNat 64 (0x100 + ring))) ∧
      ((assocGet l.fifos (larder, q)).getD [] = [] →
        ∃ t g, exec (.larderPop f) s = .next t ∧ t.flights = rest ++ [g] ∧ g.dst = x.src ∧
          g.body = .deferred x.tag 0x0300000000000000 ∧ (t.core home).store = (s.core home).store)) ∧
    (due s f x → x.body = .pull larder →
      (pullFirst larder (s.pullOrder x.src) = none → ∃ t g, exec (.priorityPull f) s = .next t ∧
        t.flights = rest ++ [g] ∧ g.dst = x.src ∧ g.due = s.cycle + 300 ∧ g.body = .pulled none) ∧
      (∀ m, pullFirst larder (s.pullOrder x.src) = some (r, m) → ∃ t g, exec (.priorityPull f) s = .next t ∧
        t.flights = rest ++ [g] ∧ g.dst = x.src ∧ g.due = s.cycle + 300 ∧ g.body = .pulled (some r)))) ∧
  (∀ (lid : Nat) (s : State) (l : Launch), s.launch lid = some l → l.levelAt ≤ s.cycle →
    ∃ t m, exec (.loadLevelling lid) s = .next t ∧ t.launch lid = some m ∧ m.levelAt = l.levelAt + l.levint ∧
      ∀ c, let len (d : CoreId) : Nat := (s.core d).work.length
        (t.core c).work =
          (if c ∈ rectCores l.rect then
            match levelPlan len l.rect c with
            | some (_, n) => (s.core c).work.take (len c - n)
            | none => (s.core c).work
           else (s.core c).work))

/-- R189, R201, R202, R204, R206, R396: a free seat takes the first thing there is: a message, a ready record, a record of the work
list, a hall thread, which goes before a ready record of a lower class and takes up again what it was taken off a seat with; of
messages and ready records, where both wait, the kind that its core did not take last. A record without an entry takes the
misaligned-target exception. With nothing there, its core sends one pull. A seat transfer runs again from its chunk start, and
comes back to the lent seat, which goes on, is free, or is trapped for a deferred trap that came meanwhile. What the model chose
in it: undefined start registers and new ids are free values of Config.pick over State.fresh (DESIGN CHOICE log 3); how a hall
thread starts (DEDUCED log 35); the order of a ready list (DEDUCED log 50); the message queue is first of the two lists (DESIGN
CHOICE log 99); a seat's own NF, RMODE and SEED come back when a migrated chunk has left (DEDUCED log 101). -/
def Obligations.SeatsTakeWork : Prop :=
  ∀ (c k : Nat) (s : State),
    let core := s.core c
    let thread := if isHall c then s.nextThread else none
    let next := (s.readyFor c k).filter (fun r => !thread.any (fun h => h.prio < s.recordClass r))
    (idleSeat s c k →
      let message (m : Message) (rest : List Message) : Prop :=
        let r := m.record c
        (∀ pc, s.entryPc r = some pc → ∃ t, exec (.seatTakeWork c k) s = .next t ∧ starts s t c k r pc ∧ (t.core c).msgq = rest) ∧
        (s.entryPc r = none → c < 2048 → ∃ t, exec (.seatTakeWork c k) s = .next t ∧ (t.seat c k).st = .trapped)
      let readied (r : Record) : Prop :=
        (∀ pc, s.entryPc r = some pc →
          ∃ t, exec (.seatTakeWork c k) s = .next t ∧ starts s t c k r pc ∧ (t.core c).ready = dropRecord r core.ready) ∧
        (s.entryPc r = none → c < 2048 → ∃ t, exec (.seatTakeWork c k) s = .next t ∧ (t.seat c k).st = .trapped)
      (∀ m rest, core.msgq = m :: rest →
        (next = none ∨ core.tookMsg = false → message m rest) ∧
        (∀ r, next = some r → core.tookMsg = true → readied r)) ∧
      (∀ r, core.msgq = [] → next = some r → readied r) ∧
      (∀ r pc, core.msgq = [] → next = none → s.workFor c k = some r → s.entryPc r = some pc →
        ∃ t, exec (.seatTakeWork c k) s = .next t ∧ starts s t c k r pc ∧ (t.core c).work = dropRecord r core.work)) ∧
    (idleSeat s c k → core.msgq = [] → next = none → s.workFor c k = none →
      (∀ h, thread = some h → h.kept = none →
        (h.record = none → (s.seat c k).hall.hvec ≠ 0 →
          ∃ t, exec (.seatTakeWork c k) s = .next t ∧ (t.seat c k).st = .running ∧
            (t.seat c k).regs.pc = (s.seat c k).hall.hvec ∧ (t.seat c k).hall.hctx = BitVec.ofNat 16 h.ctx ∧
            ((t.seat c k).regs.nf, (t.seat c k).regs.rmode, (t.seat c k).regs.seed) = s.hallFp c k h.ctx) ∧
        (∀ r pc, h.record = some r → s.entryPc r = some pc →
          ∃ t, exec (.seatTakeWork c k) s = .next t ∧ starts s t c k r pc)) ∧
      (∀ h y, thread = some h → h.kept = some y → y.trap = none → h.saved = [] →
        ∃ t, exec (.seatTakeWork c k) s = .next t ∧ (t.seat c k).st = y.st ∧ (t.seat c k).regs = y.regs ∧
          (t.seat c k).resumeAt = s.cycle + 8) ∧
      (isHall c = false → core.pulling = false → s.pullOrder c ≠ [] →
        ∃ t g, exec (.seatTakeWork c k) s = .next t ∧ (t.core c).pulling = true ∧ t.flights = s.flights ++ [g] ∧
          g.body = .pull (nearestLarder c) ∧ g.due = s.cycle + 300)) ∧
    (∀ x y, s.transferAt c = some (x, y) → k < 4 → s.mayTake c k = true →
      ∃ t, exec (.seatTransferTake c k) s = .next t ∧ (t.seat c k).st = .running ∧
        (t.seat c k).regs = y.regs.taken (s.seat c k).regs ∧
        (t.seat c k).snap = y.regs.taken (s.seat c k).regs ∧ (t.seat c k).origin = some (y.core, y.seat) ∧
        (t.seat c k).resumeAt = s.cycle + 8 ∧ t.flights = s.flights.filter (·.id != x.id)) ∧
    (∀ f x y, due s f x → x.body = .transferBack y → (s.core y.core).away = false → s.homeOpen y.core y.cid = false →
      (s.seat y.core y.seat).st = .lent →
      (s.seat y.core y.seat).cid = y.cid →
      let regs := y.regs.taken (s.seat y.core y.seat).regs
      (y.retired = true → ∃ t, exec (.seatTransferReturn f) s = .next t ∧ (t.seat y.core y.seat).st = .free) ∧
      (y.retired = false → y.trap = none → ∃ t, exec (.seatTransferReturn f) s = .next t ∧
        (t.seat y.core y.seat).st = .running ∧ (t.seat y.core y.seat).regs = regs ∧ (t.seat y.core y.seat).snap = regs) ∧
      (y.retired = false → y.trap ≠ none → ∃ t, exec (.seatTransferReturn f) s = .next t ∧
        (t.seat y.core y.seat).st = .trapped ∧ (t.seat y.core y.seat).regs = regs))

/-! ### Counters, triggers, messages and atomics at their owner -/

namespace Sys2Proof.Spec
open Sys2Proof.Machine

/-- The barrier fields of a counter (R228): mode, early, pending, next. -/
abbrev barrier (k : Counter) (mode early pending next : Nat) : Prop :=
  k.mode = mode ∧ k.early = early ∧ k.pending = pending ∧ k.next = next

/-- OVF of a counter (R228). -/
def pinned (k : Counter) : Bool := k.shadow.getLsbD 62

/-- A flight that carries a held effect, and that its owner may take now. -/
abbrev effectAt (s : State) (f : Nat) (x : Flight) (h : Held) : Prop := arrives s f x ∧ x.body = .effect h

/-- An item in flight with this destination and body. -/
def flying (s : State) (dst : CoreId) (b : Body) : Prop := ∃ g ∈ s.flights, g.dst = dst ∧ g.body = b

/-- A group result with the value of a read that its owner has given, so many cc later and the way back; any other as it was (R191,
R251). -/
def filledBy (s : State) (x : Flight) (v : Vec) (latency : Nat) (g : GroupResult) : GroupResult :=
  if g.waits = x.tag then { g with val := v, waits := 0, readyAt := s.cycle + latency + s.transit x.dst x.src } else g

/-- The negative acknowledgement of an effect with a cause and an argument (R405). -/
def nackOf (x : Flight) (cause : Nat) (arg : Word) : Body := .nack { cause := cause, arg := arg, ia := x.ia, cpc := x.cpc }

end Sys2Proof.Spec

/-- R228, R230, R231: the counter operations. An instruction's add is exact, or faults with counter-overflow; an engine's is pinned
at all ones and sets OVF. BAINIT opens a barrier with the value as it was, CEXPECT adds parties to an open one, and an arrival for
the phase v counts down; the last one adds 1 to the value and begins the next phase; an arrival for v + 1 is early; every other
phase faults. OVF is kept. -/
def Obligations.CounterOperations : Prop :=
  ∀ (k : Counter) (v : Word),
    (k.value.toNat + v.toNat < 2 ^ 64 → k.apply (.add v) = .ok { k with value := k.value + v }) ∧
    (2 ^ 64 ≤ k.value.toNat + v.toNat → k.apply (.add v) = .error 0x20 ∧ (k.engineAdd v.toNat).value = BitVec.allOnes 64 ∧
      pinned (k.engineAdd v.toNat) = true) ∧
    (k.value.toNat + v.toNat < 2 ^ 64 → k.engineAdd v.toNat = { k with value := k.value + v }) ∧
    (v.toNat < 2 ^ 20 → ∃ j, k.apply (.bainit v) = .ok j ∧ j.value = k.value ∧ barrier j 1 0 v.toNat v.toNat ∧
      pinned j = pinned k) ∧
    (2 ^ 20 ≤ v.toNat → k.apply (.bainit v) = .error 0x21) ∧
    (k.mode ≠ 1 ∨ k.next = 0 → k.apply (.expect v) = .error 0x22 ∧ k.apply (.arrive v) = .error 0x22 ∧
      k.apply (.drop v) = .error 0x22) ∧
    (k.mode = 1 → k.next ≠ 0 →
      (k.next + v.toNat < 2 ^ 20 → k.pending + v.toNat < 2 ^ 20 → ∃ j, k.apply (.expect v) = .ok j ∧ j.value = k.value ∧
        barrier j 1 k.early (k.pending + v.toNat) (k.next + v.toNat) ∧ pinned j = pinned k) ∧
      (v.toNat < k.value.toNat → k.apply (.arrive v) = .error 0x22) ∧
      (k.value.toNat + 1 < v.toNat → k.apply (.arrive v) = .error 0x23) ∧
      (v = k.value → 2 ≤ k.pending → ∃ j, k.apply (.arrive v) = .ok j ∧ j.value = k.value ∧
        barrier j 1 k.early (k.pending - 1) k.next ∧ pinned j = pinned k) ∧
      (v = k.value → k.pending = 1 → k.early < k.next → k.value ≠ BitVec.allOnes 64 → ∃ j, k.apply (.arrive v) = .ok j ∧
        j.value = k.value + 1 ∧ barrier j 1 0 (k.next - k.early) k.next ∧ pinned j = pinned k) ∧
      (v.toNat = k.value.toNat + 1 → 1 ≤ k.pending → k.early < k.next → ∃ j, k.apply (.arrive v) = .ok j ∧ j.value = k.value ∧
        barrier j 1 (k.early + 1) k.pending k.next ∧ pinned j = pinned k) ∧
      (v = k.value → 2 ≤ k.pending → ∃ j, k.apply (.drop v) = .ok j ∧ j.value = k.value ∧
        barrier j 1 k.early (k.pending - 1) (k.next - 1) ∧ pinned j = pinned k))

/-- R229 to R231, R233, R234, R249, R251, R253: a counter update at its owner. An admitted one leaves the counter as the operation
makes it, releases every waiter whose threshold the value has reached and disarms the triggers that fire; one that faults, or
that no window admits, changes no counter and sends a negative acknowledgement back; a fired add is pinned instead of refused. A
remote read gives its group the value at the owner, a migrated chunk's load the bytes of its home store under the chunk's own
stores (R191, R242), and a WAITC's arm parks its record there, releases it at once, or gives it to the hall. R236, R237, R254 to
R257, R259, R279, R280, R475: atomics, mailbox operations and messages at their owner, their acknowledgement, and the retries of
what a full queue or a settled halt turned away. What the model chose in it: no VF check where a hall core takes part (DEDUCED
log 61); arms that pass to the hall, and their record (DEDUCED log 74); arrivals of one cc go by their source's rank; which
input a hall core or an engine comes by (DEDUCED log 76); reserved bits of operation records (DEDUCED log 80). -/
def Obligations.EffectsReachTheirOwner : Prop :=
  (∀ (f : Nat) (x : Flight) (s : State) (addr : Word) (core : CoreId) (idx : BitVec 8) (op : CounterOp),
    let k := s.core core
    let old := k.counters[idx.toFin]
    let admitted := core = x.src ∨ ptrSpace addr = 0 ∨ s.admits core 1 (16 * idx.toNat) 16 30 x.src (s.flightVf x) = true
    (effectAt s f x (.counter addr core idx op) → admitted → ∀ new, old.apply op = .ok new →
      ∃ t, exec (.counterUpdateAtOwner f) s = .next t ∧ (t.core core).counters = k.counters.set idx.toFin new ∧
        (t.core core).waiters = k.waiters.filter (fun w => !(w.idx == idx && decide (w.thr.toNat ≤ new.value.toNat))) ∧
        ∀ e : Fin 64, (t.core core).triggers[e].armed =
          (k.triggers[e].armed && !(k.triggers[e].idx == idx && decide (k.triggers[e].thr.toNat ≤ new.value.toNat)))) ∧
    (effectAt s f x (.counter addr core idx op) → admitted → ∀ cause, old.apply op = .error cause →
      ∃ t, exec (.counterUpdateAtOwner f) s = .next t ∧ (t.core core).counters = k.counters ∧
        flying t x.src (nackOf x cause addr)) ∧
    (effectAt s f x (.counter addr core idx op) → ¬ admitted →
      ∃ t, exec (.counterUpdateAtOwner f) s = .next t ∧ (t.core core).counters = k.counters ∧ flying t x.src (nackOf x 0x28 addr)) ∧
    (arrives s f x → x.body = .cread addr idx → core = x.dst →
      let given (v : Word) : GroupResult → GroupResult := filledBy s x (v.setWidth 1024) 4
      let results := (s.seat x.src x.seat).results
      (core = x.src ∨ ptrSpace addr = 0 ∨ s.admits core 1 (16 * idx.toNat) 16 28 x.src (s.flightVf x) = true →
        ∃ t, exec (.counterUpdateAtOwner f) s = .next t ∧ (t.core core).counters = k.counters ∧
          (t.seat x.src x.seat).results = results.map (given old.value)) ∧
      (core ≠ x.src → ptrSpace addr ≠ 0 → s.admits core 1 (16 * idx.toNat) 16 28 x.src (s.flightVf x) = false →
        ∃ t, exec (.counterUpdateAtOwner f) s = .next t ∧ (t.core core).counters = k.counters ∧
          (t.seat x.src x.seat).results = results.map (given (BitVec.allOnes 64)) ∧ flying t x.src (nackOf x 0x28 addr))) ∧
    (∀ places n own form, arrives s f x → x.body = .load places n own form →
      (∀ a ∈ places, (s.core x.dst).poisonIn a n = none) →
      let bytes (a : Nat) : List Byte := (run a n).map (fun i => (assocGet own i).getD ((s.core x.dst).store.get i))
      let gives (v : Vec) (latency : Nat) : Prop := ∃ t, exec (.counterUpdateAtOwner f) s = .next t ∧
        (t.seat x.src x.seat).results = (s.seat x.src x.seat).results.map (filledBy s x v latency)
      (∀ w a, form = .scalar w → places = [a] →
        gives ((if w.toNat % 2 = 0 then sext (bytesToNat (bytes a)) (8 * 2 ^ (w.toNat / 2))
          else zext (bytesToNat (bytes a)) (8 * 2 ^ (w.toNat / 2))).setWidth 1024) 4) ∧
      (∀ a, form = .vector → places = [a] → gives (BitVec.ofNat 1024 (bytesToNat (bytes a))) 6) ∧
      (∀ fmt lanes kept, form = .gather fmt lanes kept → fmt ≤ 10 → n = fmtBits fmt / 8 → lanes.length = places.length → lanes.Nodup →
        ∃ v, gives v 8 ∧
          (∀ (j i a : Nat), lanes[j]? = some i → places[j]? = some a → i < elems fmt → lane v fmt i = bytesToNat (bytes a) % 2 ^ fmtBits fmt) ∧
          ∀ i, i < elems fmt → i ∉ lanes → lane v fmt i = lane kept fmt i)) ∧
    (∀ v, arrives s f x → x.body = .engineAdd addr idx v → core = x.dst → admitted →
      ∃ t, exec (.counterUpdateAtOwner f) s = .next t ∧
        (t.core core).counters = k.counters.set idx.toFin (old.engineAdd v.toNat)) ∧
    (∀ thr r, arrives s f x → x.body = .waitc addr idx thr r → core = x.dst →
      let readable := core = x.src ∨ ptrSpace addr = 0 ∨ s.admits core 1 (16 * idx.toNat) 16 28 x.src (s.flightVf x) = true
      (¬ readable → ∃ t j, exec (.waitcArmAtOwner f) s = .next t ∧ (t.core core).waiters = k.waiters ∧
        t.tickets = s.tickets ++ [j] ∧ j.record = some r) ∧
      (readable → old.value.toNat < thr.toNat →
        ∃ t w, exec (.waitcArmAtOwner f) s = .next t ∧ (t.core core).waiters = k.waiters ++ [w] ∧ w.idx = idx ∧ w.thr = thr ∧
          w.record = r ∧ w.spilled = decide (128 ≤ (k.waiters.filter (fun y => !y.spilled)).length)) ∧
      (readable → thr.toNat ≤ old.value.toNat →
        ∃ t g, exec (.waitcArmAtOwner f) s = .next t ∧ (t.core core).waiters = k.waiters ∧ g ∈ t.flights ∧
          ∃ r', g.body = .record r' ∧ r'.x7 = old.value ∧ r'.cid = r.cid)) ∧
    (∀ e thr rec, effectAt s f x (.trigArm core e idx thr rec) →
      let new : Trigger := { armed := true, idx := idx, thr := thr, record := rec, lid := x.lid }
      ((k.triggers[e.toFin]).armed = false → old.value.toNat < thr.toNat →
        ∃ t, exec (.triggerArmAtOwner f) s = .next t ∧ (t.core core).triggers[e.toFin] = new) ∧
      ((k.triggers[e.toFin]).armed = false → thr.toNat ≤ old.value.toNat →
        ∃ t, exec (.triggerArmAtOwner f) s = .next t ∧ (t.core core).triggers[e.toFin] = { new with armed := false }) ∧
      ((k.triggers[e.toFin]).armed = true → old.value.toNat < thr.toNat →
        ∃ t, exec (.triggerArmAtOwner f) s = .next t ∧ new ∈ (t.core core).hallArms ∧
          (t.core core).triggers[e.toFin].record = (k.triggers[e.toFin]).record)) ∧
    (∀ e, effectAt s f x (.trigDis core e) →
      ∃ t, exec (.triggerArmAtOwner f) s = .next t ∧
        (t.core core).triggers = k.triggers.set e.toFin { k.triggers[e.toFin] with armed := false })) ∧
  (∀ (f : Nat) (x : Flight) (s : State) (core : CoreId),
    let k := s.core core
    (∀ ptr off op v w, effectAt s f x (.lsamo ptr core false off op v w) → op ≤ 7 → op ≠ 1 →
      (core = x.src ∨ ptrSpace ptr = 0 ∨ s.admits core 0 off 8 30 x.src (s.flightVf x) = true) → k.guardedBy off 8 = none →
      (∀ p ∈ k.poison, meets off 8 p (p + 8) = false) → memoriesWf s →
      let old := k.store.word off
      let new : Word :=
        if op = 0 then old + v
        else if op = 2 then (if v.toInt < old.toInt then v else old)
        else if op = 3 then (if old.toInt < v.toInt then v else old)
        else if op = 4 then v
        else if op = 5 then (if old = w then v else old)
        else if op = 6 then old ||| v
        else old &&& v
      ∃ t, exec (.lsamoExecute f) s = .next t ∧ (t.core core).store.word off = new ∧
        (∀ a, a < off ∨ off + 8 ≤ a → (t.core core).store.get a = k.store.get a) ∧ flying t x.src (.deferred x.tag old)) ∧
    (∀ ptr off op v w, effectAt s f x (.lsamo ptr core false off op v w) → op = 1 ∨ op = 8 ∨ op = 9 →
      (core = x.src ∨ ptrSpace ptr = 0 ∨ s.admits core 0 off 4 30 x.src (s.flightVf x) = true) →
      (∀ g, k.guardedBy off 4 = some g → ∃ t, exec (.lsamoExecute f) s = .next t ∧ (t.core core).store = k.store ∧
        flying t x.src (.deferred x.tag (BitVec.allOnes 64)) ∧ flying t x.src (nackOf x 0x11 (BitVec.ofNat 64 g))) ∧
      (k.guardedBy off 4 = none → (∀ p ∈ k.poison, meets off 4 p (p + 8) = false) → memoriesWf s →
        let old := bytesToNat (k.store.bytes off 4)
        let a := v.toNat % 2 ^ 32
        let new := if op = 1 then addF32 old a else (fpMinMax f32 (op == 9) old a).1
        ∃ t, exec (.lsamoExecute f) s = .next t ∧ (t.core core).store.bytes off 4 = natToBytes 4 new ∧
          (∀ a, a < off ∨ off + 4 ≤ a → (t.core core).store.get a = k.store.get a) ∧
          flying t x.src (.deferred x.tag (BitVec.ofNat 64 old)))) ∧
    (∀ ptr off v w, effectAt s f x (.lsamo ptr core true off 10 v w) →
      (core = x.src ∨ ptrSpace ptr = 0 ∨ s.admits core 1 (16 * off) 16 30 x.src (s.flightVf x) = true) →
      let i := (BitVec.ofNat 8 off).toFin
      ∃ t, exec (.lsamoExecute f) s = .next t ∧ (t.core core).counters = k.counters.set i (k.counters[i]).claim.1 ∧
        flying t x.src (.deferred x.tag (k.counters[i]).claim.2)) ∧
    (∀ depth idx expected, effectAt s f x (.mailboxConfig core depth idx expected) →
      ∃ t, exec (.mailboxOperation f) s = .next t ∧
        (t.core core).mailbox = { k := depth, idx := idx, expected := expected, posts := 0, entries := [] }) ∧
    (∀ rank, arrives s f x → x.body = .mbtake rank → core = x.dst →
      ∃ t, exec (.mailboxOperation f) s = .next t ∧ t.cores = s.cores ∧ flying t x.src (.deferred x.tag
        (if rank < k.mailbox.k ∧ rank < k.mailbox.entries.length then k.mailbox.entries.getD rank 0 else BitVec.allOnes 64))) ∧
    (∀ v, effectAt s f x (.mailboxPost core v) → (core = x.src ∨ s.admits core 5 0 8 29 x.src (s.flightVf x) = true) →
      let m := k.mailbox
      ∃ t, exec (.mailboxOperation f) s = .next t ∧
        (t.core core).mailbox = { m with
          posts := min (2 ^ 32 - 1) (m.posts + 1),
          entries := (m.entries.takeWhile (fun e => mailboxAbove e v) ++ v :: m.entries.dropWhile (fun e => mailboxAbove e v)).take
            m.k } ∧
        (m.posts + 1 = m.expected → m.expected < 2 ^ 32 → k.counterHeld core m.idx = false →
          (t.core core).counters = k.counters.set m.idx.toFin ((k.counters[m.idx.toFin]).engineAdd 1))) ∧
    (∀ m, arrives s f x → x.body = .message m → core = x.dst →
      (k.msgq.length < 64 → ∃ t, exec (.messageArrival f) s = .next t ∧ (t.core core).msgq = k.msgq ++ [m] ∧
        ∀ g ∈ t.flights, g.body = .message m → g.id ≠ f) ∧
      (64 ≤ k.msgq.length → ∃ t g, exec (.messageQueueRetry f) s = .next t ∧ (t.core core).msgq = k.msgq ∧
        t.flight f = some g ∧ g.body = .message m ∧ g.due = s.cycle + 2 * s.transit x.src x.dst + 1)) ∧
    (due s f x → x.body = .ack →
      ∃ t, exec (.pathEffectAcknowledgement f) s = .next t ∧ t.openOps = s.openOps.filter (fun o => o.tag != x.tag) ∧
        t.cores = s.cores) ∧
    (due s f x → s.changedCore x = some core → k.lands f = false →
      ∃ t g, exec (.interfaceRetry f) s = .next t ∧ t.cores = s.cores ∧ t.flight f = some g ∧ g.body = x.body ∧
        g.due = s.cycle + x.backoff ∧ g.backoff = min 8192 (2 * x.backoff)))

/-! ### Engines, translation, the rafters and the horizon -/

namespace Sys2Proof.Spec
open Sys2Proof.Machine

/-- An engine's atomic kinds (R263). -/
def isAtomic : EngineKind → Bool
  | .amo _ => true
  | .cas => true
  | _ => false

/-- Counter n of core c has had an engine's add of 1 in t: none is made for number 255 and above, and one that a commit holds back is
on its way to the counter (R218, R230, R249). -/
def countedOnce (s t : State) (c : CoreId) (n : Nat) : Prop :=
  if 255 ≤ n then (t.core c).counters = (s.core c).counters
  else if (s.core c).counterHeld c (BitVec.ofNat 8 n) then
    (t.core c).counters = (s.core c).counters ∧ ∃ g ∈ t.flights, g.dst = c ∧ g.body = .engineAdd 0 (BitVec.ofNat 8 n) 1
  else (t.core c).counters =
    (s.core c).counters.set (BitVec.ofNat 8 n).toFin (((s.core c).counters[(BitVec.ofNat 8 n).toFin]).engineAdd 1)

/-- A packet of an entry in the block queue of core c has this code in state t: 0 or 1 done, from 0x0100 on refused (R220). -/
def packetCode (t : State) (c e p code : Nat) : Prop := ∃ y q, t.packetAt c e p = some (y, q) ∧ q.code = some code

end Sys2Proof.Spec

/-- R217, R218, R235, R262: a command enters the block queue behind what is there once one of its 32 places is free, with the
packets that its operands cut, or with the code of the check that failed; a fired command that fails its checks does not enter,
and its trap record goes to the hall. What the model chose in it: tensor descriptors: element sizes and which are bad (DEDUCED
log 28); LSCOPY's and XCOPY's pointers are unblocked (DEDUCED log 37); what a walk and a lookup take (DEDUCED log 58); reserved
bits of operation records (DEDUCED log 80); a tile into a ring that takes none ends with 0x0104 (DESIGN CHOICE log 96); a gather
wider than its tensor is filled with zeros (DESIGN CHOICE log 97). -/
def Obligations.CommandsEnterTheQueue : Prop :=
  ∀ (f : Nat) (x : Flight) (s : State) (cmd : EngineCmd) (fired : Option Nat), due s f x → x.body = .bqEntry cmd fired →
    (∀ g ∈ s.flights, g.id < x.id → g.dst = x.dst → ∀ k b, g.body ≠ .bqEntry k b) → (s.core x.dst).bq.length < 32 →
    let plan := planEntry (s.dropFlight f) x.dst cmd
    (∀ code, plan = .error code → (fired = none ∨ code ≠ 0x0104) →
      ∃ t e, exec (.bqEntry f) s = .next t ∧ (t.core x.dst).bq = (s.core x.dst).bq ++ [e] ∧
        e.id = x.id ∧ e.cmd = cmd ∧ e.packets = [] ∧ e.entryCode = some code) ∧
    (∀ record, plan = .error 0x0104 → fired = some record →
      ∃ t ctx, exec (.bqEntry f) s = .next t ∧ (t.core x.dst).bq = (s.core x.dst).bq ∧ (∀ g ∈ t.flights, g.body ≠ x.body ∨ g.id ≠ f) ∧
        ∃ g ∈ t.flights, g.dst = 2048 ∧ g.body = .trap ⟨ctx, trapWords ctx x.lid 0 0 0x26 false false 0 0 x.dst 0
          (BitVec.ofNat 64 record) 0 0 0⟩) ∧
    (∀ p, plan = .ok p → ∃ t e, exec (.bqEntry f) s = .next t ∧ (t.core x.dst).bq = (s.core x.dst).bq ++ [e] ∧
      e.id = x.id ∧ e.cmd = cmd ∧ e.packets.map (·.moves) = p.packets.map (·.moves) ∧ e.entryCode = none ∧
      e.clipped = p.clipped)

/-- R212, R218 to R220, R226, R227, R230, R249, R263, R282, R283: the packets of an entry. A packet first reads; then its bytes
land, the words they touch are full, and the packet is done, with the delay and the code of R456 where the read was mended; one
that was read with another leaves before it lands; a packet for vector registers lands once its seat is free; a streamer atomic
reads, computes and writes its word in device memory. When every source byte has been read the source counter has its add, and
when every packet has ended the destination counter has its add, the entry leaves, and its status goes to the seat. What the
model chose in it: a packet that has begun to land is not refused (DESIGN CHOICE log 95); an engine's scale tile carries its
data tile's number (DEDUCED log 98). -/
def Obligations.PacketsLandAndEntriesEnd : Prop :=
  ∀ (c e p : Nat) (s u : State) (x : BqEntry) (q : Packet),
    (s.packetAt c e p = some (x, q) → isAtomic x.cmd.kind = false → s.packetReady c x q = true →
      (∀ l late, q.data = none → (x.cmd.kind = .lscopy → x.packets = [q]) → s.readMoves c x q q.moves = (u, .ok (l, late)) →
        ∃ t y q', exec (.bqPacketComplete c e p) s = .next t ∧ t.packetAt c e p = some (y, q') ∧ q'.data = some l ∧
          q'.late = (q.late || late) ∧ q'.due = s.afterMend q.lines q.due) ∧
      (∀ l, q.data = some l → q.sentAt = 0 → ∃ t, exec (.bqPacketComplete c e p) s = .next t ∧
        ∃ y, t.packetAt c e p = some (y, { q with sentAt := s.fresh })) ∧
      (∀ m v w bit d a n, q.data = some [v] → q.sentAt ≠ 0 → x.cmd.kind ≠ .store → q.moves = [m] → m.dst = .ptr w bit → regionThree w bit = none →
        s.landPlace c x m = some (d, a, n, 0) → m.bits = 8 * n → s.meetMove c x q.begun m = .fine → memoriesWf s →
        ∃ t, exec (.bqPacketComplete c e p) s = .next t ∧ packetCode t c e p (if q.late then 1 else 0) ∧
          (∀ k, k < n → (t.core d).store.get (a + k) = (natToBytes n v).getD k 0) ∧
          (∀ k, k < a ∨ a + n ≤ k → (t.core d).store.get k = (s.core d).store.get k) ∧
          (a + n ≤ 0x80000 → ∀ k, k < n → (t.core d).isFull ((a + k) / 8 * 8) = true))) ∧
    (∀ f (fl : Flight) seat off data entry packet, arrives s f fl → fl.body = .region3 seat off data entry packet →
      (s.seat fl.dst seat).st = .free → off / 128 + data.length / 128 ≤ 32 →
      ∃ t, exec (.region3Delivery f) s = .next t ∧ ∀ k : Fin 32, (t.seat fl.dst seat).regs.v[k] =
        (if off / 128 ≤ k.val ∧ k.val < off / 128 + data.length / 128 then
          BitVec.ofNat 1024 (bytesToNat ((data.drop (128 * (k.val - off / 128))).take 128))
         else (s.seat fl.dst seat).regs.v[k])) ∧
    (∀ op bs late, (s.core c).bq.find? (·.id == e) = some x → x.packets.head? = some q → s.packetReady c x q = true → q.data = none →
      (x.cmd.kind = .amo op ∨ x.cmd.kind = .cas ∧ op = 5) →
      let n := if op = 1 then 4 else 8
      let pa := q.physical (ptrAddr x.cmd.b)
      s.dramRead (s.vfOf x.ctx) pa n = (u, some (bs, late)) →
      let old := bytesToNat bs
      let writes := op ≠ 5 ∨ old = x.cmd.d.toNat
      ∃ t, exec (.streamerAtomic c e) s = .next t ∧ (late = false → packetCode t c e q.key 0) ∧
        (late = true → ∃ y q', t.packetAt c e q.key = some (y, q') ∧ q'.data = some [] ∧ q'.due = s.afterMend (dramLines pa n) q.due) ∧
        (writes → t.dram = (u.dramWrite (s.vfOf x.ctx) pa (natToBytes n (amoResult op old x.cmd.c.toNat x.cmd.d.toNat))).1.dram) ∧
        (¬ writes → t.dram = u.dram)) ∧
    ((s.core c).bq.find? (·.id == e) = some x → x.packets.head? = some q → s.packetReady c x q = true → q.data ≠ none →
      isAtomic x.cmd.kind = true → ∃ t, exec (.streamerAtomic c e) s = .next t ∧ packetCode t c e q.key 1) ∧
    ((s.core c).bq.find? (·.id == e) = some x → x.srcAdded = false → (∀ y ∈ x.packets, y.data ≠ none ∨ y.code ≠ none) →
      s.addOpen c x.ctx x.cmd.home x.cmd.sc = true →
      ∃ t y, exec (.sourceEndAdd c e) s = .next t ∧ countedOnce s t x.cmd.home x.cmd.sc ∧
        (t.core c).bq.find? (·.id == e) = some y ∧ y.srcAdded = true ∧ y.packets = x.packets) ∧
    ((s.core c).bq.find? (·.id == e) = some x → (x.srcAdded = true ∨ 255 ≤ x.cmd.sc) → (∀ y ∈ x.packets, y.code ≠ none) →
      s.addOpen c x.ctx x.owner x.cmd.dc = true →
      ∃ t, exec (.bqEntryComplete c e) s = .next t ∧ (t.core c).bq = (s.core c).bq.filter (·.id != e) ∧
        countedOnce s t x.owner x.cmd.dc ∧
        (x.cmd.kind.hasStatus = true → flying t c (.deferred x.tag x.status)))

/-- R10, R23, R239, R240, R386, R424, R426, R482: a line that translates is read from HBM about 1,400 cc later, 8 cc more where its
function is sealed, and later by R456 where it has to be mended; it then arrives in the cache, and the seats that stalled for it
run; the end of a walk that is no one else's gives its packet the frame, and a read the time of HBM, or starts its line's read;
a round's result lands in the extraction words of every member that takes deliveries, full, and waits for the others (R475); a
horizon reduction begins every 256 cc with the least key of the unfinished tasks, and is the horizon 640 cc later, unless a core
of the launch is saved by then (R409). What the model chose in it: which entry of a mixed contiguous group translates is free
(DESIGN CHOICE log 13); which queued records the horizon counts (DEDUCED log 52); what a walk and a lookup take (DEDUCED log
58); a round is read by the configuration of the submission (DEDUCED log 111). -/
def Obligations.TranslationsRoundsAndHorizons : Prop :=
  ∀ (c k : Nat) (s : State),
    (∀ w, (s.core c).lineWait k = some w →
      let after (t : State) (pa due : Nat) : Prop := (t.core c).lines = (s.core c).lines ∧
        ∃ z, (t.core c).lineWait k = some z ∧ z.head = w.head ∧ z.frame = some pa ∧ z.due = due
      let vf := s.vfOf (s.codeCtx c k)
      (∀ u pa, w.frame = none → (∀ y ∈ s.walks, y.purpose ≠ .line c k) →
        s.translate c (s.codeCtx c k) w.line 3 = (u, .frame pa) →
        ∃ t, exec (.lineFetch c k) s = .next t ∧ after t pa (s.cycle + 1400 + s.cipherLag vf)) ∧
      (∀ pa, w.frame = some pa → w.due ≤ s.cycle →
        (s.mendLag [lineOf pa] ≠ 0 → ∃ t, exec (.lineFetch c k) s = .next t ∧ after t pa (s.cycle + s.mendLag [lineOf pa])) ∧
        (s.mendLag [lineOf pa] = 0 → ∀ v r, s.dramRead vf pa 64 = (v, r) →
          ∃ t, exec (.lineFetch c k) s = .next t ∧
            assocGet (t.core c).lines w.line = some (match r with | some (bs, _) => bs | none => []) ∧
            (∀ y ∈ (t.core c).lineWaits, y.line ≠ w.line) ∧
            (k < 4 → (s.seat c k).st = .stalled → (t.seat c k).st = .running)))) ∧
    (∀ w x u stop pa, s.walks.find? (·.id == w) = some x → x.held = false → x.readyAt ≤ s.cycle → s.walkAway x = false →
      s.walkLag x.core x.ctx x.va = 0 →
      (∀ y ∈ s.walks, y ≠ x → y.held = true ∨ y.ctx ≠ x.ctx ∨ y.va / 4096 ≠ x.va / 4096 ∨ coreDie y.core ≠ coreDie x.core) →
      s.walks.Nodup → ({ s with walks := s.walks.filter (· != x) } : State).endWalk x.core x.ctx x.va = (u, stop) →
      stop.outcome x.ctx (s.vfOf x.ctx) x.va x.access = .frame pa →
      (∀ d e key y q, x.purpose = .packet d e key → s.packetAt d e key = some (y, q) → q.code = none →
        ∃ t y' q', exec (.translationWalk w) s = .next t ∧ t.packetAt d e key = some (y', q') ∧
          q'.frame = some (pa / 4096 * 4096) ∧ q'.waiting = false ∧
          (x.access ≠ 1 → q'.due = max q.due (s.cycle + 1400 + s.cipherLag x.vf))) ∧
      (∀ d n z, x.purpose = .line d n → (s.core d).lineWait n = some z → z.line = x.va → z.frame = none →
        ∃ t z', exec (.translationWalk w) s = .next t ∧ (t.core d).lineWait n = some z' ∧ z'.frame = some pa ∧
          z'.due = s.cycle + 1400 + s.cipherLag (s.vfOf (s.codeCtx d n)))) ∧
    (∀ r x d, s.rounds.find? (·.id == r) = some x → x.dueAt = some d → d ≤ s.cycle → (∃ m ∈ x.members, (s.core m).open' = true) →
      x.width ≤ 16 → memoriesWf s →
      let away := x.members.filter (fun m => !(s.core m).open')
      ∃ t, exec (.raftersResult r) s = .next t ∧
        (away = [] → t.rounds = s.rounds.filter (·.id != r)) ∧
        (away ≠ [] → t.rounds.find? (·.id == r) = some { x with members := away }) ∧
        ∀ m ∈ x.members, (s.core m).open' = true → ∀ n, n < x.width →
          (t.core m).store.word (0xA1000 + 8 * n) = x.word n ∧ (t.core m).isFull (0xA1000 + 8 * n) = true) ∧
    (∀ lid l, s.launch lid = some l →
      (l.horizonAt ≤ s.cycle →
        ∃ t m, exec (.horizonReduction lid) s = .next t ∧ t.launch lid = some m ∧ m.horizonAt = l.horizonAt + 256 ∧
          m.reductions = (if s.launchSaved l then l.reductions
            else l.reductions ++ [{ key := s.leastUnfinished lid, startedAt := s.cycle, dueAt := s.cycle + 640 }])) ∧
      (∀ r rest, l.reductions = r :: rest → r.dueAt ≤ s.cycle →
        ∃ t m, exec (.horizonResult lid) s = .next t ∧ t.launch lid = some m ∧ m.reductions = rest ∧
          m.horizon = (if s.launchSaved l then l.horizon else some r.key)))

/-! ### Meeting routers, experts and sample groups -/

/-- R313, R317 to R325: the events of a meeting router. A freed block leaves the tag table with its generations one up and its
entries purged, and a bad free is counted. The first bind or operand of a tag makes an entry that is checked 600 cc later; a
bind joins the operands of an entry without one, which are folded as they came, and is counted where the entry has one or has
expired; an operand is taken and folded, or dropped and counted, or refused for want of room and sent again after its backoff;
the last operand of a checked entry delivers its value and its status where the cores of both hold the launch's context, and
until they do the entry waits, whole. The entry of a tag that was not allocated is dropped by its check; an expired one is
dropped, delivered as an orphan, or marked until its check and its cores let it be delivered. What the model chose in it:
latencies given as 'about' are earliest times (DESIGN CHOICE log 10); an unchecked entry at its expiry waits for its check
(DEDUCED log 60); expiry of operands, first operands, and bounds (DEDUCED log 81). -/
def Obligations.MeetingsAtTheirRouter : Prop :=
  ∀ (f : Nat) (x : Flight) (s : State) (l : Launch) (c : CoreId) (n : Nat) (e : MeetEntry),
    let k := s.core x.dst
    (∀ tag size, due s f x → x.body = .tagFree tag size → s.launch x.lid = some l →
      let id := tag.field 0 24
      let found := l.tagBlocks.contains (id, size.toNat) = true ∧ l.gen id = tag.field 24 8
      (found →
        ∃ t m, exec (.tagfreeAtLarder f) s = .next t ∧ t.launch x.lid = some m ∧
          m.tagBlocks = l.tagBlocks.filter (· != (id, size.toNat)) ∧
          (∀ i, id ≤ i → i < id + size.toNat → m.gen i = (tag.field 24 8 + 1) % 256 ∧ flying t (routerOf l.rect i) (.purge i))) ∧
      (¬ found →
        ∃ t m, exec (.tagfreeAtLarder f) s = .next t ∧ t.launch x.lid = some m ∧ m.tagBlocks = l.tagBlocks ∧
          m.meetStats.badFree = min (2 ^ 32 - 1) (l.meetStats.badFree + 1))) ∧
    (∀ id, arrives s f x → x.body = .purge id → s.launch x.lid = some l →
      ∃ t, exec (.tagPurge f) s = .next t ∧
        (t.core x.dst).meets = k.meets.filter (fun y => !(y.lid == x.lid && y.id == id && y.gen != l.gen id))) ∧
    (∀ id gen b back, arrives s f x → x.body = .bind id gen b back → k.meetOf x.lid id gen = none →
      (k.meetSlots < 16 → ∃ t y, exec (.bindArrival f) s = .next t ∧ (t.core x.dst).meets = k.meets ++ [y] ∧ y.id = id ∧
        y.gen = gen ∧ y.bind = some b ∧ y.arrived = 0 ∧ y.checkAt = s.cycle + 600 ∧ y.checked = false) ∧
      (16 ≤ k.meetSlots → (∀ g ∈ s.flights, g.id = f → g = x) →
        ∃ t g, exec (.bindArrival f) s = .next t ∧ (t.core x.dst).meets = k.meets ∧ t.flight f = some g ∧
          g.body = .bind id gen b (min 8192 (2 * back)) ∧ g.due = s.cycle + 2 * s.transit x.dst x.src + back)) ∧
    (∀ id gen b back y, arrives s f x → x.body = .bind id gen b back → k.meetOf x.lid id gen = some y →
      (y.bind ≠ none → y.overdue s.cycle = false ∨ y.complete = true → y.expired = false → s.launch x.lid = some l →
        ∃ t m, exec (.bindArrival f) s = .next t ∧ (t.core x.dst).meets = k.meets ∧ t.launch x.lid = some m ∧
          m.meetStats.rebind = min (2 ^ 32 - 1) (l.meetStats.rebind + 1)) ∧
      (y.expired = true → s.launch x.lid = some l →
        ∃ t m, exec (.bindArrival f) s = .next t ∧ (t.core x.dst).meets = k.meets ∧ t.launch x.lid = some m ∧
          m.meetStats.late = min (2 ^ 32 - 1) (l.meetStats.late + 1)) ∧
      (y.bind = none → y.overdue s.cycle = false → y.expired = false → s.cycle ≤ y.created + 1024 * b.tmo → b.op ≠ 0 →
        (∀ w ∈ y.waiting, b.mask.getLsbD w.1 = true ∧ w.2.length = b.cnt) →
        let arrived := y.waiting.foldl (fun a w => a ||| (1#16 <<< w.1)) 0
        arrived ≠ b.mask ∨ y.checked = false →
        ∃ t z, exec (.bindArrival f) s = .next t ∧ (t.core x.dst).meetOf x.lid id gen = some z ∧ z.bind = some b ∧
          z.checkAt = y.checkAt ∧ z.arrived = arrived ∧ z.waiting = [] ∧
          z.folded = y.waiting.foldl (fun v w => foldInto b.op v w.2) y.folded)) ∧
    (∀ o, arrives s f x → x.body = .operand o → o.passed s.cycle = false → k.meetOf o.lid o.id o.gen = none →
      (k.meetSlots + 2 ≤ 16 → ∃ t y, exec (.meetOperandArrival f) s = .next t ∧ (t.core x.dst).meets = k.meets ++ [y] ∧
        y.arrived = 1#16 <<< o.party ∧ y.waiting = [(o.party, o.data)] ∧ y.bind = none ∧ y.checkAt = s.cycle + 600 ∧
        (t.core x.src).iface = (s.core x.src).iface.filter (·.op != o.op)) ∧
      (16 < k.meetSlots + 2 → ∃ t, exec (.meetOperandArrival f) s = .next t ∧ (t.core x.dst).meets = k.meets ∧
        (o ∈ (s.core x.src).iface → ∃ p ∈ (t.core x.src).iface, p.op = o.op ∧ p.inFlight = false))) ∧
    (∀ o, arrives s f x → x.body = .operand o → o.passed s.cycle = true → s.launch o.lid = some l →
      ∃ t m, exec (.meetOperandArrival f) s = .next t ∧ (t.core x.dst).meets = k.meets ∧
        (t.core x.src).iface = (s.core x.src).iface.filter (·.op != o.op) ∧ t.launch o.lid = some m ∧
        m.meetStats.late = min (2 ^ 32 - 1) (l.meetStats.late + 1)) ∧
    (∀ o y, arrives s f x → x.body = .operand o → o.passed s.cycle = false → k.meetOf o.lid o.id o.gen = some y →
      y.overdue s.cycle = false → y.expired = false → s.launch o.lid = some l →
      let arrived := y.arrived ||| (1#16 <<< o.party)
      (y.arrived.getLsbD o.party = true → ∃ t m, exec (.meetOperandArrival f) s = .next t ∧ (t.core x.dst).meets = k.meets ∧
        t.launch o.lid = some m ∧ m.meetStats.duplicate = min (2 ^ 32 - 1) (l.meetStats.duplicate + 1)) ∧
      (y.arrived.getLsbD o.party = false → y.bind = none → o.data.length = y.count → k.meetSlots < 16 →
        ∃ t z, exec (.meetOperandArrival f) s = .next t ∧ (t.core x.dst).meetOf o.lid o.id o.gen = some z ∧
          z.arrived = arrived ∧ z.waiting = y.waiting ++ [(o.party, o.data)]) ∧
      (∀ b, y.arrived.getLsbD o.party = false → y.bind = some b → b.mask.getLsbD o.party = true → o.data.length = b.cnt →
        b.op ≠ 0 → y.waiting = [] →
        (arrived ≠ b.mask ∨ y.checked = false ∨ s.meetTargets y = false →
          ∃ t z, exec (.meetOperandArrival f) s = .next t ∧ (t.core x.dst).meetOf o.lid o.id o.gen = some z ∧
            z.arrived = arrived ∧ z.included = y.included ||| (1#16 <<< o.party) ∧ z.waiting = [] ∧
            z.folded = foldInto b.op y.folded o.data) ∧
        (arrived = b.mask → y.included = y.arrived → y.checked = true → s.meetTargets y = true → memoriesWf s →
          let statCore := chipCore (ptrAddr b.stat)
          let stat := chipOffset (ptrAddr b.stat)
          let destCore := chipCore (ptrAddr b.dest)
          let dest := chipOffset (ptrAddr b.dest)
          let value := (foldInto b.op y.folded o.data).flatMap vecWords
          (s.core statCore).guardedBy stat 8 = none →
          ∃ t, exec (.meetOperandArrival f) s = .next t ∧ (t.core x.dst).meetOf o.lid o.id o.gen = none ∧
            (t.core statCore).store.word stat = BitVec.ofNat 64 (b.mask.toNat * 2 ^ 32 + b.mask.toNat * 2 ^ 16) ∧
            ((∀ j, j < value.length → (s.core destCore).guardedBy (dest + 8 * j) 8 = none ∧
                (destCore ≠ statCore ∨ dest + 8 * j + 8 ≤ stat ∨ stat + 8 ≤ dest + 8 * j)) →
              ∀ j, j < value.length → (t.core destCore).store.word (dest + 8 * j) = value.getD j 0)))) ∧
    ((s.core c).meets[n]? = some e → (s.core c).meetOf e.lid e.id e.gen = some e → e.paused = none → s.launch e.lid = some l →
      (e.checked = false → e.checkAt ≤ s.cycle →
        (e.live = true → (e.complete = false ∧ e.expired = false) ∨ s.meetTargets e = false →
          ∃ t z, exec (.meetCreationCheck c n) s = .next t ∧
            (t.core c).meetOf e.lid e.id e.gen = some z ∧ z.checked = true ∧ z.arrived = e.arrived) ∧
        (e.live = false → ∃ t, exec (.meetCreationCheck c n) s = .next t ∧ (t.core c).meetOf e.lid e.id e.gen = none)) ∧
      (e.checked = true ∨ (e.checkAt ≤ s.cycle ∧ e.live = true) → e.bind ≠ none → e.complete = true ∨ e.expired = true →
        s.meetTargets e = true →
        ∃ t, exec (.meetCreationCheck c n) s = .next t ∧ (t.core c).meetOf e.lid e.id e.gen = none) ∧
      (e.expired = false → e.complete = false → e.expiry < s.cycle ∨ (e.expiry = s.cycle ∧ s.arrivalDue c e = false) →
        (e.bind = none → ∃ t m, exec (.meetExpiry c n) s = .next t ∧ (t.core c).meetOf e.lid e.id e.gen = none ∧
          t.launch e.lid = some m ∧ m.meetStats.unbound = min (2 ^ 32 - 1) (l.meetStats.unbound + 1)) ∧
        (e.bind ≠ none → e.checked = true → s.meetTargets e = true → ∃ t m, exec (.meetExpiry c n) s = .next t ∧
          (t.core c).meetOf e.lid e.id e.gen = none ∧ t.launch e.lid = some m ∧
          m.meetStats.orphan = min (2 ^ 32 - 1) (l.meetStats.orphan + 1)) ∧
        (e.bind ≠ none → e.checked = false ∨ s.meetTargets e = false → ∃ t z, exec (.meetExpiry c n) s = .next t ∧
          (t.core c).meetOf e.lid e.id e.gen = some z ∧ z.expired = true))) ∧
    (∀ o, (s.core c).iface.find? (·.op == n) = some o → o.inFlight = false → (s.core c).away = false →
      (o.passed s.cycle = false → o.retryAt ≤ s.cycle → ∃ t, exec (.meetNakRetry c n) s = .next t ∧
        flying t o.router (.operand { o with inFlight := true })) ∧
      (o.passed s.cycle = true → s.launch o.lid = some l → ∃ t m, exec (.meetNakRetry c n) s = .next t ∧
        (t.core c).iface = (s.core c).iface.filter (·.op != n) ∧ t.launch o.lid = some m ∧
        m.meetStats.late = min (2 ^ 32 - 1) (l.meetStats.late + 1)))

/-- R328 to R344: the events of the expert directory, the caches and the routing unit. A queued route starts with the cached entry's
first candidate, asks for the entry, or ends with the code of the check that failed; one held for its task goes on, or is
voided. A claim of the right generation below the bound takes a slot and counts it, a stale one takes nothing and makes the
route read the entry again, three times at the most; with no candidate left the route overflows; a claimed row lands and its
record leaves, at once or, for a row held for its task, after the commit, where the replica and the row's core hold the context;
the record lands in its turn with its counter's add. A directory operation that is admitted changes the entry and gives its new
generation, and EXLOOK lands the entry and caches it. What the model chose in it: latencies given as 'about' are earliest times
(DESIGN CHOICE log 10); a routed row into a published slot, and routes of an aborted task (DEDUCED log 59); later records wait
for that of a held route (DEDUCED log 102). -/
def Obligations.ExpertsAtTheirUnits : Prop :=
  ∀ (f : Nat) (x : Flight) (s : State) (c : CoreId) (id : Nat) (r : Route),
    let k := s.core x.dst
    let ends (t : State) (c : CoreId) (status : Word) : Prop :=
      flying t c (.deferred r.tag status) ∧ ∀ r' ∈ (t.core c).routes, r'.id ≠ r.id
    let overflows (t : State) (c : CoreId) (e : DirEntry) : Prop :=
      flying t e.owner (.message { hid := e.ovfh, words := [r.mword, metaWord e.gen false c 0xFFFF, BitVec.ofNat 64 r.name, r.row],
                                   src := c, seq := 0x8000000000000000, lid := r.lid, clip := none })
    let mayLand (d : CoreId) (slot n : Nat) : Prop :=
      let place := slotCore (r.entry.slot slot)
      ptrSpace r.row = 0 ∧ memoriesWf s ∧ s.holds place (s.routeCtx d r) = true ∧ s.holds r.home (s.routeCtx d r) = true ∧
        (∀ w ∈ s.walks, w.purpose ≠ .route d r.id) ∧
        (∀ p ∈ (s.core r.home).poison, meets (ptrAddr r.row) (rowBytes r.entry.rowlen) p (p + 8) = false) ∧
        (s.core place).guardedBy (8 * slotBuf (r.entry.slot slot) + n * rowBytes r.entry.rowlen) (rowBytes r.entry.rowlen) = none
    let landed (t : State) (c : CoreId) (slot n : Nat) : Prop :=
      let place := slotCore (r.entry.slot slot)
      let at' := 8 * slotBuf (r.entry.slot slot) + n * rowBytes r.entry.rowlen
      (∀ i, i < rowBytes r.entry.rowlen → (t.core place).store.get (at' + i) =
        ((s.core r.home).store.bytes (ptrAddr r.row) (rowBytes r.entry.rowlen)).getD i 0) ∧
      (∀ r' ∈ (t.core c).routes, r'.id ≠ r.id) ∧
      flying t place (.metadata r.mword (metaWord r.entry.gen false c n) (8 * r.entry.atab + 16 * n)
        (BitVec.ofNat 8 r.entry.actr) r.claimNo)
    ((s.core c).routes.find? (·.id == id) = some r → (s.core c).hold = .none →
      (r.stage = .queued → r.aborted = false → (s.core c).routeBlocked id = false → (s.core c).cachedExpert r.name = none →
        ∃ t, exec (.routeStart c id) s = .next t ∧ flying t c (.fill r.id) ∧
          ∃ r' ∈ (t.core c).routes, r'.id = id ∧ r'.stage = .fill) ∧
      (∀ y, r.stage = .queued → r.aborted = false → (s.core c).routeBlocked id = false →
        (s.core c).cachedExpert r.name = some y → r.refresh = 0 →
        let far := ptrSpace r.row = 0 ∧ 0x80000 < ptrAddr r.row + rowBytes y.entry.rowlen
        (∀ n rest, y.entry.valid = true → ¬ far → candidates y.entry (fun i => y.est.toList.getD i 0) = n :: rest →
          ∃ t r', exec (.routeStart c id) s = .next t ∧ r' ∈ (t.core c).routes ∧ r'.id = id ∧ r'.stage = .claim n ∧ r'.cand = rest ∧
            flying t (slotCore (y.entry.slot n)) (.claim r.id r.name n (BitVec.ofNat 8 (slotCidx (y.entry.slot n))) y.entry.gen
              y.entry.cap)) ∧
        (y.entry.valid = false → ∃ t, exec (.routeStart c id) s = .next t ∧ ends t c 0x0201000000000000) ∧
        (y.entry.valid = true → far → ∃ t, exec (.routeStart c id) s = .next t ∧ ends t c 0x0104000000000000) ∧
        (y.entry.valid = true → ¬ far → candidates y.entry (fun i => y.est.toList.getD i 0) = [] → r.spec = false →
          ∃ t, exec (.routeStart c id) s = .next t ∧ ends t c 0x0200000000000000 ∧ overflows t c y.entry)) ∧
      (r.stage = .heldOverflow → r.aborted = false → r.spec = false →
        ∃ t, exec (.routeStart c id) s = .next t ∧ overflows t c r.entry ∧ ∀ r' ∈ (t.core c).routes, r'.id ≠ id) ∧
      (∀ n k', r.stage = .heldRow n k' → r.aborted = true → ∃ t, exec (.routeStart c id) s = .next t ∧
        flying t (slotCore (r.entry.slot n)) (.metadata r.mword (metaWord r.entry.gen true c k') (8 * r.entry.atab + 16 * k')
          (BitVec.ofNat 8 r.entry.actr) r.claimNo) ∧ ∀ r' ∈ (t.core c).routes, r'.id ≠ id) ∧
      (∀ n k', (r.stage = .heldRow n k' ∧ r.aborted = false ∧ r.spec = false) ∨ (r.stage = .copy n k' ∧ r.due ≤ s.cycle) →
        mayLand c n k' → ∃ t, exec (.routeStart c id) s = .next t ∧ landed t c n k')) ∧
    (∀ route, arrives s f x → x.body = .fill route → k.routes.find? (·.id == route) = some r → r.aborted = false →
      ∃ t y, exec (.entryCacheFill f) s = .next t ∧ (t.core x.dst).cachedExpert r.name = some y ∧
        y.entry = s.expert (s.routeCtx x.dst r) r.name) ∧
    (∀ route name slot idx gen cap, arrives s f x → x.body = .claim route name slot idx gen cap →
      let y := k.counters[idx.toFin]
      let bound := y.early * 2 ^ 20 + y.next
      (y.mode = 2 → y.pending % 2 ^ 16 = gen → y.value.toNat < bound →
        ∃ t, exec (.expertClaim f) s = .next t ∧ (t.core x.dst).counters = k.counters.set idx.toFin { y with value := y.value + 1 } ∧
          flying t x.src (.claimReply route (some (y.value.toNat + cap - bound)) false) ∧ flying t x.dst (.countAdd name slot)) ∧
      (y.mode = 2 → y.pending % 2 ^ 16 ≠ gen →
        ∃ t, exec (.expertClaim f) s = .next t ∧ (t.core x.dst).counters = k.counters ∧
          flying t x.src (.claimReply route none true)) ∧
      (y.mode ≠ 2 ∨ (y.pending % 2 ^ 16 = gen ∧ bound ≤ y.value.toNat) →
        ∃ t, exec (.expertClaim f) s = .next t ∧ (t.core x.dst).counters = k.counters ∧
          flying t x.src (.claimReply route none false))) ∧
    (∀ route slot, arrives s f x → k.routes.find? (·.id == route) = some r → r.stage = .claim slot → r.aborted = false →
      r.spec = false →
      (∀ answer, x.body = .claimReply route answer true →
        (r.refresh < 3 → ∃ t, exec (.claimReply f) s = .next t ∧ flying t x.dst (.fill r.id) ∧
          ∃ r' ∈ (t.core x.dst).routes, r'.id = r.id ∧ r'.stage = .fill ∧ r'.refresh = r.refresh + 1) ∧
        (r.refresh = 3 → ∃ t, exec (.claimReply f) s = .next t ∧ ends t x.dst 0x0202000000000000)) ∧
      (x.body = .claimReply route none false → r.cand = [] →
        ∃ t, exec (.claimReply f) s = .next t ∧ ends t x.dst 0x0200000000000000 ∧ overflows t x.dst r.entry) ∧
      (∀ n, x.body = .claimReply route (some n) false → mayLand x.dst slot n →
        ∃ t, exec (.claimReply f) s = .next t ∧ landed t x.dst slot n ∧
          ends t x.dst (claimedStatus 0 n slot (slotCore (r.entry.slot slot))))) ∧
    (∀ w0 w1 off actr claim, arrives s f x → x.body = .metadata w0 w1 off actr claim → s.recordEarlier x claim = false →
      s.addTurn x.src x.dst actr.toNat = true → memoriesWf s → k.guardedBy off 8 = none → k.guardedBy (off + 8) 8 = none →
      ∃ t, exec (.metadataLanding f) s = .next t ∧ (t.core x.dst).store.word off = w0 ∧ (t.core x.dst).store.word (off + 8) = w1 ∧
        countedOnce s t x.dst actr.toNat) ∧
    (∀ home op l, due s f x → x.body = .effect (.expert home op) → s.expertEarlier x op.name = false →
      s.launch x.lid = some l → s.context l.ctx ≠ none →
      let e := s.expert l.ctx op.name
      let inside (d : CoreId) : Bool := rectHas l.rect d
      (∀ y, op.change e home inside = some (.ok y) → ∃ t, exec (.directoryOperation f) s = .next t ∧
        t.expert l.ctx op.name = y.entry ∧ flying t x.src (.deferred x.tag (dirStatus 0 y.entry.gen y.val))) ∧
      (∀ code, op.change e home inside = some (.error code) → ∃ t, exec (.directoryOperation f) s = .next t ∧
        t.expert l.ctx op.name = e ∧ flying t x.src (.deferred x.tag (dirStatus code e.gen 0))) ∧
      (∀ b, op = .step0 b → e.valid = true → home = e.owner → e.closed = false → ∃ t, exec (.directoryOperation f) s = .next t ∧
        (t.expert l.ctx op.name).closed = true ∧ (t.expert l.ctx op.name).gen = (e.gen + 1) % 2 ^ 16 ∧
        (t.expert l.ctx op.name).memb = e.memb ∧ (t.expert l.ctx op.name).slots = e.slots) ∧
      (∀ b sel, op = .stat b sel → ∃ t, exec (.directoryOperation f) s = .next t ∧ t.expert l.ctx op.name = e ∧
        flying t x.src (.deferred x.tag (dirStat e sel))) ∧
      (∀ b p, op = .look b p → s.holds home l.ctx = true → s.holds x.src l.ctx = true → memoriesWf s →
        (s.core home).guardedBy (ptrAddr p) e.bytes.length = none → ∃ t y, exec (.directoryOperation f) s = .next t ∧
          (∀ i, i < e.bytes.length → (t.core home).store.get (ptrAddr p + i) = e.bytes.getD i 0) ∧
          (t.core x.src).cachedExpert op.name = some y ∧ y.entry = e ∧
          flying t x.src (.deferred x.tag (dirStatus (if e.valid then 0 else 0x0210) e.gen 0)))) ∧
    (∀ idx kind gen cap, arrives s f x → x.body = .setBound idx kind gen cap →
      let y := k.counters[idx.toFin]
      ∃ t z, exec (.setBound f) s = .next t ∧ (t.core x.dst).counters = k.counters.set idx.toFin z ∧ z.value = y.value ∧
        (kind = 2 → z.shadow = 0) ∧
        (kind = 0 → z.mode = 2 ∧ z.bound = min (2 ^ 40 - 1) (y.value.toNat + cap) ∧ z.pending = gen % 2 ^ 16) ∧
        (kind = 1 → z.mode = 2 ∧ z.bound = min (2 ^ 40 - 1) y.value.toNat ∧ z.pending = gen % 2 ^ 16)) ∧
    (∀ name slot l, due s f x → x.body = .countAdd name slot → s.launch x.lid = some l → s.context l.ctx ≠ none → slot < 8 →
      let old := (s.expert l.ctx name).slot slot
      ∃ t, exec (.directoryCountAdd f) s = .next t ∧
        slotCount ((t.expert l.ctx name).slot slot) = min (2 ^ 32 - 1) (slotCount old + 1) ∧
        slotState ((t.expert l.ctx name).slot slot) = slotState old ∧ slotVer ((t.expert l.ctx name).slot slot) = slotVer old)

namespace Sys2Proof.Spec
open Sys2Proof.Machine

/-- A flight that carries a group operation of an issuer. -/
abbrev groupAt (s : State) (f : Nat) (x : Flight) (issuer : CoreId) (op : GroupOp) : Prop := effectAt s f x (.group issuer op)

/-- A slot's siblings with one of them settled (R352, R353). -/
def settled (g : GroupSlot) (i code : Nat) (r : BitVec 32) : List (Nat × BitVec 32) := g.siblings.set i (code, r)

end Sys2Proof.Spec

/-- R349 to R357: the events of the sample-group unit. A configure takes the slot that its commit reserved and gives its handle; a
fork opens a configured slot, starts its deadline and gives the number of siblings; a reward or a cancellation settles one
sibling of an open group, or is counted as late, stray or duplicate; a release frees a closed slot; a status is read; the
deadline closes an open group, complete with a quorum of rewards and failed without; the words of a result land, then its status
and its counter's add. What the model chose in it: GFORK's spawn ids are given when its commit issues it (DEDUCED log 53);
statistics of a configured, closed or released group (DEDUCED log 82); when a group slot is taken (DEDUCED log 86). -/
def Obligations.GroupsAtTheirUnit : Prop :=
  ∀ (f : Nat) (x : Flight) (s : State) (h c : Word) (issuer : CoreId),
    let home : CoreId := h.field 0 11
    let n := h.field 27 2
    let i := h.field 35 6
    let g := (s.core home).group n
    let others (t : State) : Prop := ∀ m, m < 4 → m ≠ n → (t.core home).group m = (s.core home).group m
    let taken (op : GroupOp) : Prop :=
      groupAt s f x issuer op ∧ x.dst = home ∧ (g.state = 2 → g.paused = none ∧ g.expiredBy x.due = false)
    (∀ words m, groupAt s f x issuer (.configure words) → x.dst = issuer → (s.core issuer).reservedGroup x.tag = some m →
      ∃ t, exec (.gcfgTaken f) s = .next t ∧ (t.core issuer).group m = GroupSlot.configured words x.lid ∧
        flying t x.src (.deferred x.tag (groupHandle issuer x.lid m))) ∧
    (∀ words first, taken (.fork h words first) →
      (issuer = home → g.state = 1 → ∃ t, exec (.gforkTaken f) s = .next t ∧ ((t.core home).group n).state = 2 ∧
        ((t.core home).group n).siblings = List.replicate g.n (0, 0) ∧
        ((s.core home).hold ≠ .stopping → ((t.core home).group n).deadline =
          if g.c2.field 32 32 = 0 then none else some (s.cycle + 1024 * g.c2.field 32 32)) ∧
        flying t x.src (.deferred x.tag (BitVec.ofNat 64 (g.n * 2 ^ 32)))) ∧
      (issuer ≠ home ∨ g.state ≠ 1 → ∃ t, exec (.gforkTaken f) s = .next t ∧ (t.core home).group n = g ∧
        flying t x.src (.deferred x.tag 0x0220000000000000))) ∧
    (taken (.reward h c) →
      let nonFinite := (c.setWidth 32).toNat / 2 ^ 23 % 256 = 255
      let counts (y : GroupSlot) : Prop := ∃ t, exec (.grewardTaken f) s = .next t ∧ others t ∧ (t.core home).group n = y
      (g.state ≠ 2 → counts { g with late := min (2 ^ 32 - 1) (g.late + 1) }) ∧
      (g.state = 2 → g.n ≤ i → counts { g with stray := min (2 ^ 32 - 1) (g.stray + 1) }) ∧
      (g.state = 2 → i < g.n → (g.siblings.getD i (1, 0)).1 ≠ 0 → counts { g with dup := min (2 ^ 32 - 1) (g.dup + 1) }) ∧
      (g.state = 2 → i < g.n → (g.siblings.getD i (1, 0)).1 = 0 →
        ∃ t, exec (.grewardTaken f) s = .next t ∧ others t ∧
          (¬ nonFinite → ((t.core home).group n).siblings = settled g i 1 (c.setWidth 32)) ∧
          (nonFinite → ((t.core home).group n).siblings = settled g i 3 0 ∧ ((t.core home).group n).nonFinite = true))) ∧
    (taken (.cancel h c) →
      (c = BitVec.allOnes 64 → g.state = 1 ∨ g.state = 2 →
        ∃ t, exec (.gcancelTaken f) s = .next t ∧ others t ∧ ((t.core home).group n).state = 4) ∧
      (c.toNat < g.n → g.state = 2 → (g.siblings.getD c.toNat (1, 0)).1 = 0 →
        ∃ t, exec (.gcancelTaken f) s = .next t ∧ others t ∧ ((t.core home).group n).siblings = settled g c.toNat 2 0)) ∧
    (taken (.release h) →
      (issuer = home → g.state = 3 ∨ g.state = 4 → ∃ t, exec (.gcfgTaken f) s = .next t ∧ others t ∧
        (t.core home).group n = GroupSlot.free ∧ flying t x.src (.deferred x.tag 0)) ∧
      (issuer ≠ home ∨ (g.state ≠ 3 ∧ g.state ≠ 4) → ∃ t, exec (.gcfgTaken f) s = .next t ∧ (t.core home).group n = g ∧
        flying t x.src (.deferred x.tag (BitVec.allOnes 64)))) ∧
    (taken (.stat h c) →
      let units := match g.paused, g.deadline with
        | some left, _ => (left + 1023) / 1024
        | none, some d => (d - s.cycle + 1023) / 1024
        | none, none => if g.state = 1 then g.c2.field 32 32 else 0
      let gives (v : Nat) : Prop := ∃ t, exec (.gstatTaken f) s = .next t ∧ t.cores = s.cores ∧
        flying t x.src (.deferred x.tag (BitVec.ofNat 64 v))
      (c.toNat = 0 →
        gives (units * 2 ^ 32 + (if g.nonFinite then 2 ^ 16 else 0) + g.countOf [1] * 2 ^ 8 + g.state)) ∧
      (c.toNat = 3 → gives (g.dup * 2 ^ 32 + g.late)) ∧ (c.toNat = 4 → gives (g.stray * 2 ^ 32)) ∧
      (5 ≤ c.toNat → gives (2 ^ 64 - 1))) ∧
    (∀ d, g.deadline = some d → d ≤ s.cycle → g.state = 2 → g.paused = none → s.groupArrivals home n d = false →
      ∃ t, exec (.groupDeadline home n) s = .next t ∧ others t ∧
        ((t.core home).group n).state = (if g.quorum ≤ g.countOf [1] then 3 else 4)) ∧
    (∀ adv words stat status ctr, arrives s f x → x.body = .groupWrite adv words stat status ctr →
      s.addTurn x.dst x.dst ctr = true → memoriesWf s →
      (s.core x.dst).guardedBy (ptrAddr stat) 8 = none →
      ∃ t, exec (.groupResultWrite f) s = .next t ∧ (t.core x.dst).store.word (ptrAddr stat) = status ∧
        countedOnce s t x.dst ctr ∧
        ((∀ j, j < words.length → (s.core x.dst).guardedBy (ptrAddr adv + 8 * j) 8 = none ∧
            (ptrAddr adv + 8 * j + 8 ≤ ptrAddr stat ∨ ptrAddr stat + 8 ≤ ptrAddr adv + 8 * j)) →
          ∀ j, j < words.length → (t.core x.dst).store.word (ptrAddr adv + 8 * j) = words.getD j 0))

/-! ### The hall: records, deferred traps, stops, saves and loads -/

namespace Sys2Proof.Spec
open Sys2Proof.Machine

/-- Bytes stand in a store from an address on, and nothing else of it has changed. -/
def wrote (old new : Mem) (a : Nat) (bs : List Byte) : Prop :=
  (∀ i, i < bs.length → new.get (a + i) = bs.getD i 0) ∧ ∀ i, i < a ∨ a + bs.length ≤ i → new.get i = old.get i

end Sys2Proof.Spec

/-- R393, R395, R402, R405: a spent energy budget takes a launch one class down, counts the drop and tells the hall; a droop changes
DROOPCNT alone; a trap record lands in its ring's next slot once word 0 there is empty, with the time in its last word and one
add to counter 0 of the hall core; a deferred trap reaches the seat that runs its continuation, which keeps the first and counts
the others, waits while that seat's core is saved, and goes to the hall with ticket 0 where no continuation issued it. What the
model chose in it: hall cores have numbers 2,048 + 4d + k and stand in the south row of their dies (DESIGN CHOICE log 16); the
ring of contexts without HTRQ is at base 0 of hall 0.0 (DEDUCED log 30); refusals that arrive after a continuation has left its
seat (DEDUCED log 55); reaching the energy budget is an event of the agenda (DESIGN CHOICE log 56). -/
def Obligations.RecordsReachTheHall : Prop :=
  ∀ (f : Nat) (x : Flight) (s : State) (lid c n : Nat),
    (∀ l, s.launch lid = some l → l.energy ≠ 0 → ∃ t m, exec (.energyBudgetReached lid) s = .next t ∧ t.launch lid = some m ∧
      m.prio = min 7 (l.prio + 1) ∧ m.drops = (l.drops + 1) % 2 ^ 32 ∧ t.cores = s.cores ∧
      flying t 2048 (.trap ⟨l.ctx, trapWords l.ctx lid 0 0 0x31 false false 0 0 0 0
        (BitVec.ofNat 64 ((l.drops + 1) % 2 ^ 32 * 2 ^ 32 + min 7 (l.prio + 1))) 0 0 0⟩)) ∧
    (coreExists c = true → ∃ t, exec (.droopEvent c) s = .next t ∧ t.core c = { s.core c with droops := (s.core c).droops + 1 } ∧
      (∀ d, d ≠ c → t.core d = s.core d) ∧ t.flights = s.flights ∧ t.dram = s.dram) ∧
    (∀ r, due s f x → x.body = .trap r → s.trapEarlier f r.ctx = false → r.words.length = 8 →
      let q := s.trapRing r.ctx
      let a := q.2.1 + 64 * (q.2.2 % 256)
      a < 0x80000 → (s.core q.1).isFull a = false → (s.core q.1).open' = true → s.addTurn q.1 q.1 0 = true → memoriesWf s →
      ∃ t, exec (.trapRecordPost f) s = .next t ∧ (∀ j, j < 7 → (t.core q.1).store.word (a + 8 * j) = r.words.getD j 0) ∧
        (t.core q.1).store.word (a + 56) = BitVec.ofNat 64 s.cycle ∧ (t.core q.1).isFull a = true ∧
        countedOnce s t q.1 0 ∧ (t.trapRing r.ctx).2.2 = q.2.2 + 1) ∧
    (∀ d, arrives s f x → x.body = .nack d →
      (x.cid ≠ 0 → s.savedSeat (fun y => y.cid == x.cid) = false → (s.dropFlight f).seatOfCid x.cid = some (c, n) →
        ((s.seat c n).trap = none → ∃ t, exec (.deferredTrapArrival f) s = .next t ∧ (t.seat c n).trap = some d ∧
          (t.seat c n).more = (s.seat c n).more ∧ (t.seat c n).st = (s.seat c n).st) ∧
        ((s.seat c n).trap ≠ none → ∃ t, exec (.deferredTrapArrival f) s = .next t ∧ (t.seat c n).trap = (s.seat c n).trap ∧
          (t.seat c n).more = min 255 ((s.seat c n).more + 1))) ∧
      (x.cid = 0 → ∃ t w0 w1 x7, exec (.deferredTrapArrival f) s = .next t ∧ t.cores = s.cores ∧
        let ctx := s.itemCtx x.dst x.lid 0
        flying t 2048 (.trap ⟨ctx, trapWords ctx x.lid 0 0 d.cause true x.mig x.seat d.ia x.dst d.cpc d.arg w0 w1 x7⟩)))

/-- R406 to R411: pre-emption. A stop aborts a stalled chunk to its start and marks every seat at work; a core that has settled is
saved in its context, with its store, counters and registers as they stood and no clock step kept, and its part of the save ends
11,776 cc later, when its area is stored; a core whose save area has no page stays reserved, with the save-failed record to the
hall; a restored core has what its save area holds. What the model chose in it: layout inside the parts of a save area, and what
a load takes from them (DESIGN CHOICE log 32); CTXLOAD onto a core that holds another context (DEDUCED log 65); a packet that
waits for a seat keeps what it has read across a save (DEDUCED log 94). -/
def Obligations.CoresStopSaveAndReturn : Prop :=
  ∀ (f : Nat) (x : Flight) (s u : State) (c : CoreId) (pages : List (Nat × Nat)) (off : Nat),
    (∀ id, due s f x → x.body = .stop id → (∀ g ∈ s.flights, ∀ y, g.body ≠ .transfer y) →
      ∃ t, exec (.stopArrival f) s = .next t ∧ (t.core x.dst).hold = .stopping ∧
        ∀ n, n < 4 → (s.seat x.dst n).task = none →
          ((s.seat x.dst n).st = .running → (t.seat x.dst n).stop = true) ∧
          ((s.seat x.dst n).st = .stalled → (t.seat x.dst n).stop = true ∧ (t.seat x.dst n).st = .running ∧
            (t.seat x.dst n).regs = (s.seat x.dst n).snap ∧ (t.seat x.dst n).wbuf = [])) ∧
    ((s.core c).hold = .stopping → s.quiet c = true → s.context (s.core c).ctx ≠ none →
      (s.savePages c (s.core c).ctx 1 saveOffsets = (u, .ok pages) → (s.core c).poison = [] →
        ∃ t y k, exec (.coreSave c) s = .next t ∧ (t.core c).hold = .saved ∧ t.context (s.core c).ctx = some y ∧
          assocGet y.saved c = some k ∧ k.store = (s.core c).store ∧ k.full = (s.core c).full ∧ k.counters = (s.core c).counters ∧
          k.clockMoves = [] ∧
          ∀ n, n < 4 → (k.seat n).regs = (s.seat c n).regs ∧ (k.seat n).st = (s.seat c n).st ∧
          ∀ j ∈ t.saveJobs, j.load = false → c ∈ j.waiting → (c, s.cycle + 11776) ∈ j.storing) ∧
      (s.savePages c (s.core c).ctx 1 saveOffsets = (u, .error off) →
        ∃ t, exec (.saveFailed c off) s = .next t ∧ (t.core c).hold = .reserved ∧
          flying t 2048 (.trap ⟨(s.core c).ctx, trapWords (s.core c).ctx 0 0 0 0x30 false false 0 0 c 0 (BitVec.ofNat 64 c) 0 0
            (BitVec.ofNat 64 (off / 1024))⟩))) ∧
    ((s.core c).hold ≠ .stopping → s.stored c = true → (∀ j ∈ s.saveJobs, j.load = true → j.waiting ≠ []) →
      ∃ t, exec (.coreSave c) s = .next t ∧ ∀ j ∈ t.saveJobs, j.load = false → c ∉ j.waiting) ∧
    (∀ id j ctx, due s f x → x.body = .restore id → s.saveJobs.find? (·.id == id) = some j → s.context j.ctx = some ctx →
      (s.core x.dst).ctx = 0 → (s.core x.dst).hold ≠ .stopping → (∀ i ∈ s.saveJobs, ∃ d ∈ i.waiting, d ≠ x.dst) →
      (assocGet ctx.saved x.dst = none → ∃ t, exec (.contextRestore f) s = .next t ∧
        t.core x.dst = { s.core x.dst with hold := .loading, ctx := j.ctx, power := .active }) ∧
      (∀ old v image, assocGet ctx.saved x.dst = some old →
        (s.dropFlight f).savePages x.dst j.ctx 0 saveOffsets = (u, .ok pages) → u.readImage (u.vfOf j.ctx) pages = (v, .ok image) →
        let k := old.loadImage image
        ∃ t y, exec (.contextRestore f) s = .next t ∧ (t.core x.dst).hold = .loading ∧ (t.core x.dst).store = k.store ∧
          (t.core x.dst).full = k.full ∧ (t.core x.dst).counters = k.counters ∧
          (∀ n, n < 4 → t.seat x.dst n = k.seat n) ∧ t.context j.ctx = some y ∧ assocGet y.saved x.dst = none))

/-! ### The package edge -/

namespace Sys2Proof.Spec
open Sys2Proof.Machine

/-- Counter n of core c has had an engine's add of 1 in t where it may be taken now, and otherwise one is on its way there; none is made for
number 255 and above. -/
def addedLate (s t : State) (mayNow : Prop) (c : CoreId) (n : Nat) : Prop :=
  (255 ≤ n → (t.core c).counters = (s.core c).counters) ∧
  (n < 255 → mayNow → countedOnce s t c n) ∧
  (n < 255 → ¬ mayNow → (t.core c).counters = (s.core c).counters ∧ flying t c (.engineAdd 0 (BitVec.ofNat 8 n) 1))

/-- No live port leads from a set of a stream, with these ports up. -/
abbrev deadEnd (ports : Vector Bool 12) (e : TableEntry) (j : Nat) : Prop := ∀ p ∈ e.outPorts j, ports.toList.getD p false = false

end Sys2Proof.Spec

/-- R235, R436 to R443, R450: streams. An XCOPY that fails a check moves nothing, and its source-end counter still has its add, but
for a fired one whose operands fail: its trap record goes to the hall. One that passes is cut into packets, which wait while no
port of their set is live; those whose source in device memory has no translation are not there any more. A packet that no
export entry admits is refused and lands nowhere; neither does one whose entry names a core that is not its function's or its
context's; one that is admitted lands its bytes that have not landed ahead of it in the store of the entry, and the arrival add
follows the last one. An acknowledgement settles its packet, and the last one ends the XCOPY. A port that goes down leaves its
packets to go again, and one that comes up takes them. What the model chose in it: other packages are the environment: packets
and acknowledgements are turns (DESIGN CHOICE log 17); XCOPY takes no block-queue entry (DEDUCED log 63); a marker at the end of
its window is refused (DEDUCED log 85); an XCOPY destination past the offsets of its package (DESIGN CHOICE log 112). -/
def Obligations.StreamsCarryPackets : Prop :=
  ∀ (f : Nat) (x : Flight) (s : State) (q : Nat),
    (∀ cmd fired order n, due s f x → x.body = .stream cmd fired order → s.streamEarlier n order x.id = false →
      cmd.kind = .xcopy n → isHall x.dst = false →
      let ctx := ((s.launch x.lid).map (·.ctx)).getD (s.core x.dst).ctx
      let mayNow : Prop := (s.core cmd.home).open' = true ∧ s.addTurn cmd.home cmd.home cmd.sc = true ∧
        (isHall cmd.home = true ∨ ∀ l, s.launch x.lid = some l → (s.core cmd.home).ctx = l.ctx)
      (∀ record, xcopyOk cmd = false → fired = some record →
        ∃ t, exec (.xcopyStreamEntry f) s = .next t ∧ t.edgeOut = s.edgeOut ∧ t.outgoing = s.outgoing ∧ t.cores = s.cores ∧
          flying t 2048 (.trap ⟨ctx, trapWords ctx x.lid 0 0 0x26 false false 0 0 x.dst 0 (BitVec.ofNat 64 record) 0 0 0⟩)) ∧
      (xcopyOk cmd = false ∧ fired = none ∨ xcopyOk cmd = true ∧ s.streamOk n (s.vfOf ctx) = false →
        ∃ t, exec (.xcopyStreamEntry f) s = .next t ∧ t.edgeOut = s.edgeOut ∧ t.outgoing = s.outgoing ∧
          addedLate s t mayNow cmd.home cmd.sc ∧
          (xcopyOk cmd = true → flying t x.dst (.nack { cause := 0x28, arg := BitVec.ofNat 64 n, ia := x.ia, cpc := x.cpc }))) ∧
      (xcopyOk cmd = true → s.streamOk n (s.vfOf ctx) = true → s.edgeOut = [] → s.outgoing = [] →
        deadEnd s.ports (s.stream n) (s.stream n).cur →
        let ps := edgePackets x.id s.fresh n s.pkgId.toNat cmd
        (∀ p ∈ ps, remotePackage p.packet.dst ≠ s.pkgId.toNat) →
        (ptrSpace cmd.b ≠ 2 ∨ cmd.d = 0 →
          ∃ t o, exec (.xcopyStreamEntry f) s = .next t ∧ t.edgeOut = ps ∧ t.outgoing = [o] ∧ o.xid = x.id ∧
            o.toLeave = ps.length ∧ o.toSettle = ps.length) ∧
        (∃ t, exec (.xcopyStreamEntry f) s = .next t ∧ t.edgeOut.length ≤ ps.length ∧
          ∀ e ∈ t.edgeOut, e.out = false ∧ ∃ p ∈ ps, e.id = p.id ∧ e.packet = p.packet))) ∧
    (∀ p, due s f x → x.body = .packet p → s.edgeEarlier f p = false →
      let e := s.exportEntry (remoteEntry p.dst)
      let d := chipCore (ptrAddr e.w0)
      let off := chipOffset (ptrAddr e.w0) + remoteByte p.dst
      let region := chipRegion (ptrAddr e.w0)
      let a := (if region = 2 then 0x90000 else 0) + off
      (s.admitted p = false → ∃ t, exec (.xcopyPacketArrival f) s = .next t ∧ t.cores = s.cores ∧ t.dram = s.dram ∧
        (p.port = none → flying t 0 (.xack p.xid p.index (some (0x28, p.dst))))) ∧
      (s.admitted p = true → ptrSpace e.w0 = 1 → p.data ≠ [] →
        region = 0 ∧ off + p.data.length ≤ 0x80000 ∨ region = 2 ∧ off + p.data.length ≤ 0x10000 → memoriesWf s →
        s.coreAway e.owner d = false → s.coreAway e.owner e.ccore = false → (s.core d).lands f = true →
        (p.total ≤ s.landedWith p → s.addTurn e.ccore e.ccore p.dc = true) →
        (s.entryCores e = true → (s.core d).guardedBy a p.data.length = none → (s.core d).tileBusy a p.data.length = false →
          ∃ t, exec (.xcopyPacketArrival f) s = .next t ∧
            (∀ i, (t.core d).store.get i = if a ≤ i ∧ i < a + p.data.length ∧ i / 8 ∉ p.ahead then p.data.getD (i - a) 0
              else (s.core d).store.get i) ∧
            (p.total ≤ s.landedWith p → countedOnce s t e.ccore p.dc) ∧
            (p.port = none → flying t 0 (.xack p.xid p.index none))) ∧
        (s.entryCores e = false → ∃ t, exec (.xcopyPacketArrival f) s = .next t ∧ t.cores = s.cores ∧ t.dram = s.dram ∧
          (p.port = none → flying t 0 (.xack p.xid p.index (some (0x28, p.dst))))))) ∧
    (∀ xid index refused o, due s f x → x.body = .xack xid index refused → s.outgoing? xid = some o →
      (o.toSettle = 1 → ∃ t, exec (.xcopyAck f) s = .next t ∧ t.outgoing = s.outgoing.filter (·.xid != xid) ∧
        (∀ g ∈ t.edgeOut, ¬ (g.packet.xid = xid ∧ g.packet.index = index)) ∧
        (∀ cause arg, refused = some (cause, arg) →
          flying t o.core (.nack { cause := cause, arg := arg, ia := o.ia, cpc := o.cpc }))) ∧
      (o.toSettle ≠ 1 → ∃ t y, exec (.xcopyAck f) s = .next t ∧ t.outgoing? xid = some y ∧ y.toSettle = o.toSettle - 1)) ∧
    (q < 12 →
      (∃ t, exec (.portDown q) s = .next t ∧ t.ports = s.ports.setIfInBounds q false ∧
        ((∀ r, r ≠ q → s.ports.toList.getD r false = false) →
          (∀ e ∈ s.edgeOut, e.departed = true ∧ remotePackage e.packet.dst ≠ s.pkgId.toNat) →
          t.edgeOut = s.edgeOut.map (fun e => if e.packet.port = some q then { e with out := false } else e))) ∧
      (∃ t, exec (.portUp q) s = .next t ∧ t.ports = s.ports.setIfInBounds q true ∧
        (∀ e o, s.edgeOut = [e] → e.out = false → e.departed = true → e.read = true → s.outgoing? e.packet.xid = some o →
          remotePackage e.packet.dst ≠ s.pkgId.toNat → (∀ r, r ≠ q → s.ports.toList.getD r false = false) →
          q ∈ (s.stream e.packet.stream).outPorts e.packet.set →
          ∃ y, t.edgeOut = [y] ∧ y.out = true ∧ y.packet.port = some q ∧ y.packet.data = e.packet.data)))

/-! ### The resident service -/

namespace Sys2Proof.Spec
open Sys2Proof.Machine

/-- The service's reply to a request. -/
def answered (t : State) (tag status : Nat) (body : List Word) : Prop := (⟨tag, status, body⟩ : Reply) ∈ t.replies

end Sys2Proof.Spec

/-- R175, R211, R373 to R376, R397, R445: images and launches. LOAD_IMAGE writes its bytes into one core's local store, whose words
become full, be the core saved or not, or into mapped pages; bytes for a published slot of a ring, or in part for a poisoned
line, are not written; LAUNCH starts a launch whose descriptor and records pass every check, under a handle that no other launch
has, and starts nothing where one fails. What the model chose in it: undefined start registers and new ids are free values of
Config.pick over State.fresh (DESIGN CHOICE log 3); code lines stay cached until LAUNCH or LOAD_IMAGE, and translation
replacement is free (DESIGN CHOICE log 12); the requester of a request is the upper part of its tag (DESIGN CHOICE log 40);
LOAD_IMAGE with a core number fills its local store (DESIGN CHOICE log 42); launch-lived objects on a core with two launches
(DEDUCED log 43); LOAD_IMAGE that meets a published slot is refused as a whole (DESIGN CHOICE log 90); the handler table is read
once, at LAUNCH (DESIGN CHOICE log 100). -/
def Obligations.ImagesAndLaunches : Prop :=
  ∀ (tag ctx c a va : Nat) (data : List (BitVec 8)) (s : State) (x : Context), s.ownContext tag ctx = some x → ctx ≠ 0 →
    (c < 2048 → s.inPartition ctx false c = true → a + data.length ≤ 0x80000 → memoriesWf s →
      let written (old new : Core) : Prop :=
        wrote old.store new.store a data ∧ ∀ i, i < data.length → new.isFull ((a + i) / 8 * 8) = true
      (assocGet x.saved c = none → (s.core c).ctx = ctx ∨ ((s.core c).ctx = 0 ∧ (s.core c).hold = .none) →
        ((s.core c).guardedBy a data.length = none → ∃ t, exec (.loadImage tag ctx c a data) s = .next t ∧ answered t tag 0 [] ∧
          written (s.core c) (t.core c) ∧ (t.core c).ctx = ctx ∧ ∀ d, d ≠ c → t.core d = s.core d) ∧
        (∀ ring, (s.core c).guardedBy a data.length = some ring → ∃ t, exec (.loadImage tag ctx c a data) s = .next t ∧
          answered t tag 0x0502 [] ∧ (t.core c).store = (s.core c).store)) ∧
      (∀ k, assocGet x.saved c = some k → k.guardedBy a data.length = none →
        ∃ t y k', exec (.loadImage tag ctx c a data) s = .next t ∧ answered t tag 0 [] ∧ t.context ctx = some y ∧
          assocGet y.saved c = some k' ∧ written k k' ∧ t.cores = s.cores)) ∧
    (∀ m l u taken, 2048 ≤ c → s.awaken.mappedPieces ctx (rangePieces a data.length) = (m, some l) →
      m.writePieces (s.vfOf ctx) data l = (u, taken) →
      ∃ t, exec (.loadImage tag ctx c a data) s = .next t ∧ answered t tag (if taken then 0 else 0x0502) [] ∧ t.dram = u.dram) ∧
    (∀ m, 2048 ≤ c → s.awaken.mappedPieces ctx (rangePieces a data.length) = (m, none) →
      ∃ t, exec (.loadImage tag ctx c a data) s = .next t ∧ answered t tag 0x0502 [] ∧ t.dram = m.dram) ∧
    (let r := s.awaken.serviceRead ctx va 64;
      (∀ b, r.2 = some b →
        let d := LaunchDescriptor.ofBytes b
        let h := r.1.serviceRead ctx d.htab.toNat 512
        let i := h.1.serviceRead ctx d.init.toNat (64 * d.ninit)
        let inside := (rectCores d.rect).all (s.inPartition ctx false)
        (∀ hb rb, d.ok = true → inside = true → h.2 = some hb → i.2 = some rb →
          (recordsOf d.ninit rb).all (initialOk d.rect) = true → s.launches.length < 65535 →
          ∃ t lid l, exec (.launch tag ctx va) s = .next t ∧ 0 < lid ∧ lid < 65536 ∧ (∀ y ∈ s.launches, y.lid ≠ lid) ∧
            answered t tag 0 [BitVec.ofNat 64 lid] ∧ t.launches = s.launches ++ [l] ∧ l.lid = lid ∧ l.ctx = ctx ∧ l.rect = d.rect ∧
            l.prio = d.prio ∧ l.handlers = bytesToWords 64 hb ∧ l.pending.length = d.ninit ∧ l.tagBlocks = [] ∧ l.prio0 = [] ∧
            l.prio1 = []) ∧
        (d.ok = false ∨ inside = false → ∃ t, exec (.launch tag ctx va) s = .next t ∧ answered t tag 0x0502 [] ∧
          t.launches = s.launches ∧ t.cores = s.cores)) ∧
      (r.2 = none → ∃ t, exec (.launch tag ctx va) s = .next t ∧ answered t tag 0x0502 [] ∧ t.launches = s.launches ∧
        t.cores = s.cores))

/-- R396, R437 to R439, R445, R446: contexts and maps. CREATE_CONTEXT gives a handle that no other context has, with its hall
thread; DESTROY_CONTEXT leaves nothing of the context; a request about another requester's context is refused; MAP writes a
page-table entry, keeps a root for the context's next CTXLOAD where no header is mapped, or takes it as the first one, and
writes an export entry or a stream entry whose fields are in range, and nothing where they are not. R325, R393, R445: waits,
counters and counts. WAIT is answered once its counter has reached the threshold, and a request that waits longer than its
timeout is answered with the value reached; READ_COUNTERS gives value and shadow of each pair; TELEMETRY gives the meeting
statistics, the energy drops and the error logs. What the model chose in it: undefined start registers and new ids are free
values of Config.pick over State.fresh (DESIGN CHOICE log 3); the requester of a request is the upper part of its tag (DESIGN
CHOICE log 40); the kinds of MAP requests, and where the root is read (DESIGN CHOICE log 41); telemetry selectors, port and
stream counts, and PC samples (DESIGN CHOICE log 44); what a destroyed context leaves (DEDUCED log 70); CREATE_CONTEXT's
save-area size is unused (DESIGN CHOICE log 73). -/
def Obligations.ContextsMapsAndCounts : Prop :=
  (∀ (tag vf prio save ctx idx : Nat) (e : BitVec 256) (s : State),
    let own (x : Context) : Prop := s.ownContext tag ctx = some x
    (prio ≤ 7 → s.vfs.any (·.vf == vf) = true → s.contexts.length < 65535 →
      ∃ t id x, exec (.createContext tag vf prio save) s = .next t ∧ 0 < id ∧ id < 65536 ∧ (∀ y ∈ s.contexts, y.id ≠ id) ∧
        answered t tag 0 [BitVec.ofNat 64 id] ∧ t.contexts = s.contexts ++ [x] ∧ x.id = id ∧ x.vf = vf ∧ x.prio = prio ∧
        x.requester = tag / 2 ^ 32 ∧ ∃ h ∈ t.runQueue, h.ctx = id ∧ h.prio = prio ∧ h.ready = true) ∧
    (7 < prio ∨ s.vfs.any (·.vf == vf) = false → ∃ t, exec (.createContext tag vf prio save) s = .next t ∧
      answered t tag 0x0502 [] ∧ t.contexts = s.contexts) ∧
    (s.ownContext tag ctx = none → ∃ t, exec (.destroyContext tag ctx) s = .next t ∧ answered t tag 0x0501 [] ∧
      t.contexts = s.contexts ∧ t.cores = s.cores) ∧
    (∀ x, own x → ctx ≠ 0 → ∃ t, exec (.destroyContext tag ctx) s = .next t ∧ answered t tag 0 [] ∧
      (∀ y ∈ t.contexts, y.id ≠ ctx) ∧ (∀ h ∈ t.runQueue, h.ctx ≠ ctx) ∧ (∀ p ∈ t.cores, p.2.ctx ≠ ctx) ∧
      (∀ k ∈ t.tickets, k.ctx ≠ ctx) ∧ ∀ y ∈ t.launches, y.ctx ≠ ctx) ∧
    (∀ x, own x →
      let y := tableEntry e
      (∀ u taken, y.w1.toNat % 8 = 0 → paInRange y.w1.toNat = true →
        s.awaken.dramWrite (s.vfOf ctx) y.w1.toNat (wordBytes y.w0) = (u, taken) →
        ∃ t, exec (.map tag ctx 0 0 e) s = .next t ∧ answered t tag (if taken then 0 else 0x0502) [] ∧ t.dram = u.dram) ∧
      (y.w0.field 0 12 = 0 → y.w0.field 48 16 = 0 → (s.awaken.headerRoot ctx).2 = none →
        ∃ t z, exec (.map tag ctx 0 1 e) s = .next t ∧ answered t tag 0 [] ∧ t.context ctx = some z ∧
          (x.root = 0 → z.root = y.w0) ∧ (x.root ≠ 0 → z.root = x.root ∧ z.nextRoot = some y.w0)) ∧
      (idx < 256 →
        (y.exportOk = true → ∃ t, exec (.map tag ctx 1 idx e) s = .next t ∧ answered t tag 0 [] ∧
          t.exportEntry idx = { y with w3 := BitVec.ofNat 64 ctx } ∧ ∀ i, i ≠ idx → t.exportEntry i = s.exportEntry i) ∧
        (y.exportOk = false → ∃ t, exec (.map tag ctx 1 idx e) s = .next t ∧ answered t tag 0x0502 [] ∧ t.exports = s.exports)) ∧
      (idx < 4096 →
        (y.streamOk = true → s.edgeOut = [] → ∃ t, exec (.map tag ctx 2 idx e) s = .next t ∧ answered t tag 0 [] ∧
          t.stream idx = { y with w0 := y.w0 &&& ~~~(3#64 <<< 4) } ∧ ∀ i, i ≠ idx → t.stream i = s.stream i) ∧
        (y.streamOk = false → ∃ t, exec (.map tag ctx 2 idx e) s = .next t ∧ answered t tag 0x0502 [] ∧ t.streams = s.streams)))) ∧
  (∀ (tag ctx c ctr thr tmo : Nat) (s : State) (x : Context) (pairs : List (Nat × Nat)), s.ownContext tag ctx = some x →
    (∀ k, c < 2048 → ctr < 256 → thr < 2 ^ 64 → s.coreOf ctx c = some k →
      let v := (k.counters[(BitVec.ofNat 8 ctr).toFin]).value
      (thr ≤ v.toNat → ∃ t, exec (.wait tag ctx c ctr thr tmo) s = .next t ∧ answered t tag 0 [v] ∧ t.waits = s.waits) ∧
      (v.toNat < thr → ∃ t w, exec (.wait tag ctx c ctr thr tmo) s = .next t ∧ t.replies = s.replies ∧ t.waits = s.waits ++ [w] ∧
        w.tag = tag ∧ w.ctx = ctx ∧ w.core = c ∧ w.idx.toNat = ctr ∧ w.thr.toNat = thr ∧ w.deadline = t.cycle + 4000 * tmo)) ∧
    (∀ w, s.waits.find? (·.tag == tag) = some w → w.deadline ≤ s.cycle →
      ∃ t, exec (.waitTimeout tag) s = .next t ∧ (∀ y ∈ t.waits, y.tag ≠ tag) ∧
        ∀ k, s.coreOf w.ctx w.core = some k → answered t tag 0x0504 [(k.counters[w.idx.toFin]).value]) ∧
    (pairs.length ≤ 64 → (∀ p ∈ pairs, p.1 < 2048 ∧ p.2 < 256 ∧ (s.coreOf ctx p.1).isSome = true) →
      ∃ t, exec (.readCounters tag ctx pairs) s = .next t ∧ answered t tag 0 (pairs.flatMap (fun p =>
        match s.coreOf ctx p.1 with
        | some k => [(k.counters[(BitVec.ofNat 8 p.2).toFin]).value, (k.counters[(BitVec.ofNat 8 p.2).toFin]).shadow]
        | none => []))) ∧
    (let mine := s.launches.filter (·.ctx == ctx);
      (∃ t, exec (.telemetry tag ctx 0) s = .next t ∧
        answered t tag 0 (mine.flatMap (fun l => BitVec.ofNat 64 l.lid :: l.meetStats.words))) ∧
      (∃ t, exec (.telemetry tag ctx 1) s = .next t ∧
        answered t tag 0 (mine.flatMap (fun l => [BitVec.ofNat 64 l.lid, BitVec.ofNat 64 l.drops]))) ∧
      (∃ t, exec (.telemetry tag ctx 3) s = .next t ∧ answered t tag 0 (s.errlogs.flatMap (·.words)))))

/-! ### Debug sessions -/

namespace Sys2Proof.Spec
open Sys2Proof.Machine

/-- A requester's session of halt-own level, with no notice pending, on a function that is not sealed. -/
abbrev halting (s : State) (tag ses : Nat) (x : Session) : Prop :=
  s.sessions.find? (fun y => y.id == ses && y.requester == tag / 2 ^ 32) = some x ∧ x.notice = false ∧ x.level = 2 ∧
    s.sealedCtx x.ctx = false

end Sys2Proof.Spec

/-- R473 to R479, R481, R484: debug sessions. An attach gives a session at its level, or the reason why not; a quick halt holds
every seat of its cores, a settled halt also refuses what comes later, and is answered once everything in flight has landed, by
a turn of its session where it is not at once; a read gives the bytes that stand there; a write lands in a settled halt only,
and leaves the full bits; a resume ends the halts, and a detach the session; a trace gives the PCs. A pending notice is the
answer to the next request. What the model chose in it: the requester of a request is the upper part of its tag (DESIGN CHOICE
log 40); telemetry selectors, port and stream counts, and PC samples (DESIGN CHOICE log 44); how a debug read names what it
reads (DESIGN CHOICE log 45); what a settled halt waits for (DEDUCED log 66); status codes of attach and of a pending notice
(DEDUCED log 71). -/
def Obligations.DebugSessions : Prop :=
  ∀ (tag ses ctx level cred c a len : Nat) (rect : Word) (data : List (BitVec 8)) (s : State) (x : Session),
    (∀ y, s.ownContext tag ctx = some y → level = 1 ∨ level = 2 → s.sealedCtx ctx = false → s.sessions.length < 65535 →
      ∃ t z, exec (.debugAttach tag ctx level cred) s = .next t ∧ t.sessions = s.sessions ++ [z] ∧ z.level = level ∧ z.ctx = ctx ∧
        z.requester = tag / 2 ^ 32 ∧ (∀ w ∈ s.sessions, w.id ≠ z.id) ∧ answered t tag 0 [BitVec.ofNat 64 z.id]) ∧
    (level = 0 ∨ level = 3 ∧ s.lifecycle = .deployed → ∃ t, exec (.debugAttach tag ctx level cred) s = .next t ∧
      answered t tag 0x0505 [] ∧ t.sessions = s.sessions) ∧
    (s.sessions.find? (fun y => y.id == ses && y.requester == tag / 2 ^ 32) = some x → x.notice = true →
      ∃ t, exec (.quickHalt tag ses rect) s = .next t ∧ answered t tag 0x0506 [] ∧ t.cores = s.cores) ∧
    (halting s tag ses x →
      (s.sessionRect x rect = true → s.offCores x.ctx (rectCores rect) = [] →
        let held (t : State) (d : CoreId) : Prop := (t.core d).haltQuick = true ∧ ∀ n, n < 4 → (t.seat d n).haltedAt ≠ none
        (∃ t, exec (.quickHalt tag ses rect) s = .next t ∧ answered t tag 0 [] ∧ ∀ d ∈ s.haltCores x.ctx rect, held t d) ∧
        (∃ t, exec (.settledHalt tag ses rect) s = .next t ∧
          (∀ d ∈ s.haltCores x.ctx rect, held t d ∧ (t.core d).haltSettled ≠ none) ∧
          ((∀ d ∈ s.haltCores x.ctx rect, s.inbound d = []) → answered t tag 0 []))) ∧
      (∀ gap r n, s.agenda = .session gap ses :: r → s.sessions.find? (·.id == ses) = some x → x.sampleAt = none →
        x.halting = [(n, rect, true)] → s.offCores x.ctx (rectCores rect) = [] →
        (∀ d ∈ s.haltCores x.ctx rect, (s.core d).haltQuick = true ∧ s.coreSettled d = true) →
        ∃ t, step s = .next t ∧ answered t n 0 [] ∧ t.cores = s.cores ∧ ∀ y, t.sessions.find? (·.id == ses) = some y → y.halting = []) ∧
      (∀ k, c < 2048 → len ≤ 4096 → s.offCores x.ctx [c] = [] → s.coreOf x.ctx c = some k →
        (a < 2 ^ 56 → chipRegion a = 0 → chipOffset a + len ≤ 0x80000 →
          ∃ t, exec (.debugRead tag ses c a len) s = .next t ∧
            answered t tag 0 (packWords (k.store.bytes (chipOffset a) len))) ∧
        (a / 2 ^ 56 = 1 → ∃ t, exec (.debugRead tag ses c a len) s = .next t ∧
          answered t tag 0 (packWords (((k.seat (a / 2 ^ 48 % 4)).regs.image.drop (a % 2 ^ 48)).take len)))) ∧
      (data.length ≤ 4096 → a < 2 ^ 56 → chipRegion a = 0 →
        (x.settled.contains c = true → (s.core c).haltSettled ≠ none → chipOffset a + data.length ≤ 0x80000 →
          (s.core c).guardedBy (chipOffset a) data.length = none → memoriesWf s →
          ∃ t, exec (.debugWrite tag ses c a data) s = .next t ∧ answered t tag 0 [] ∧
            wrote (s.core c).store (t.core c).store (chipOffset a) data ∧ (t.core c).full = (s.core c).full) ∧
        (x.settled.contains c = false → ∃ t, exec (.debugWrite tag ses c a data) s = .next t ∧ answered t tag 0x0502 [] ∧
          t.cores = s.cores)) ∧
      (s.sessions = [x] →
        (rectShape rect = true → c ∈ x.quick → rectHas rect c = true →
          ∃ t, exec (.debugResume tag ses rect) s = .next t ∧ answered t tag 0 [] ∧ (t.core c).haltQuick = false ∧
            (t.core c).haltSettled = none ∧ ∀ n, n < 4 → (s.seat c n).origin = none → (t.seat c n).haltedAt = none) ∧
        (∃ t, exec (.debugDetach tag ses) s = .next t ∧ answered t tag 0 [] ∧ t.sessions = [] ∧
          ∀ d, d ∈ x.quick → (t.core d).haltQuick = false)) ∧
      (x.sampleAt = none → ∃ t, exec (.debugTrace tag ses 1) s = .next t ∧ answered t tag 0 (s.sampledPcs x.ctx)))

/-! ### Keeping data and cores, power and management -/

/-- R455 to R463, R466 to R471: keeping data and cores. A parity update is folded into its line in the order of their arrival, and a
parity line that fails its own check is recomputed from its stripe; a scrub takes a weak line off the list and logs it, and
rebuilds a line that fails from its sound stripe, or from the clean copy of its granule, or poisons it; a poisoned local-store
word is written back with its full bit as it was; a granule is copied to its cellar and its entry is clean; the second
uncorrectable local-store record of a core within 24 hours makes its retirement due; a compute core that no logical index has is
retired at once; one that has an index is saved first, with the cores of its launches, and then replaced by the nearest free
spare in the tables and in the repair map, while its die has room; and a hall core leaves the run queue's seats. What the model
chose in it: how stripes are numbered and which address bits name a stack (DEDUCED log 27); a scrubbed poisoned word holds a
free value (DESIGN CHOICE log 46); the steps of a retirement, and who orders it (DESIGN CHOICE log 72). -/
def Obligations.DataAndCoresAreKept : Prop :=
  ∀ (f line c word g p : Nat) (s : State),
    (∀ y, s.parityDue.find? (·.id == f) = some y → s.parityDue.find? (·.line == y.line) = some y → memoriesWf s →
      (y.line ∉ s.badLines → y.line ∉ s.poisonLines →
        ∃ t, exec (.parityUpdate f) s = .next t ∧ t.parityDue = s.parityDue.filter (·.id != f) ∧
          wrote s.dram t.dram (y.line + y.offset) (xorBytes (s.dram.bytes (y.line + y.offset) y.delta.length) y.delta)) ∧
      (y.line ∈ s.badLines → s.stripeSound y.line = true →
        ∃ t, exec (.parityUpdate f) s = .next t ∧ t.parityDue = s.parityDue.filter (·.line != y.line) ∧ y.line ∉ t.badLines ∧
          wrote s.dram t.dram y.line (s.rebuilt y.line))) ∧
    (inHbm (lineOf line) = true →
      ((lineOf line) ∈ s.weakLines → (lineOf line) ∉ s.badLines → ∃ t, exec (.patrolScrub line) s = .next t ∧
        (lineOf line) ∉ t.weakLines ∧ t.dram = s.dram ∧
        ∃ r ∈ t.errlogs, r.line = lineOf line ∧ r.kind = 0 ∧ r.time = s.cycle) ∧
      ((lineOf line) ∈ s.badLines → (lineOf line) ∉ s.weakLines → s.guarded (lineOf line) = true →
        s.stripeSound (lineOf line) = true → memoriesWf s → (∀ y ∈ s.parityDue, y.line ≠ parityLine (lineOf line)) →
        ∃ t, exec (.patrolScrub line) s = .next t ∧ (lineOf line) ∉ t.badLines ∧
          wrote s.dram t.dram (lineOf line) (s.rebuilt (lineOf line)) ∧
          t.poisonLines = s.poisonLines.filter (· != lineOf line)) ∧
      (∀ m, (lineOf line) ∈ s.badLines → (lineOf line) ∉ s.weakLines → s.guarded (lineOf line) = false →
        s.cleanMirror (lineOf line) = some m → m.lineFor (lineOf line) ∉ s.badLines → m.lineFor (lineOf line) ∉ s.poisonLines → memoriesWf s →
        ∃ t, exec (.patrolScrub line) s = .next t ∧ (lineOf line) ∉ t.badLines ∧
          wrote s.dram t.dram (lineOf line) (s.dram.bytes (m.lineFor (lineOf line)) 64)) ∧
      ((lineOf line) ∈ s.badLines → (lineOf line) ∉ s.weakLines → s.guarded (lineOf line) = false →
        s.cleanMirror (lineOf line) = none →
        ∃ t, exec (.patrolScrub line) s = .next t ∧ (lineOf line) ∉ t.badLines ∧ (lineOf line) ∈ t.poisonLines ∧
          t.dram = s.dram)) ∧
    (coreExists c = true → word % 8 = 0 → word ∈ (s.core c).poison → memoriesWf s → ∃ t, exec (.sramScrub c word) s = .next t ∧
      word ∉ (t.core c).poison ∧ (t.core c).full = (s.core c).full ∧
      ∀ i, i < word ∨ word + 8 ≤ i → (t.core c).store.get i = (s.core c).store.get i) ∧
    (∀ m u v bs late taken, s.mirrors.find? (·.granule == g) = some m → s.readUnder none 0 (g * 2 ^ 16) (2 ^ 16) = (u, some (bs, late)) →
      u.writeUnder none 0 m.cellar bs = (v, taken) →
      ∃ t, exec (.mirrorGranuleCopy g) s = .next t ∧ t.dram = v.dram ∧ ∃ y ∈ t.mirrors, y.granule = g ∧ y.clean = true) ∧
    (p < 4096 → p / 32 % 32 < 17 → p ∉ s.retired →
      (s.logicalOf p = none → ∃ t, exec (.coreRetirement p) s = .next t ∧ t.cores = s.cores ∧ t.repair = s.repair ∧
        (s.retireRoom p = true → t.retired = p :: s.retired) ∧ (s.retireRoom p = false → t.retired = s.retired) ∧
        ∀ r ∈ t.retireDue, r.core ≠ p) ∧
      (∀ idx, s.logicalOf p = some idx →
        let on := ((s.retireDue.find? (·.core == p)).bind (·.saving)).getD (s.onIndex p idx)
        (∀ j ∈ s.saveJobs, ∀ x ∈ on, x.1 ≠ j.ctx) →
        ((∃ x ∈ on, ∃ d ∈ x.2, s.stillLoaded x.1 d = true) →
          ∃ t, exec (.coreRetirement p) s = .next t ∧ t.retired = s.retired ∧ t.repair = s.repair ∧
            (∃ r ∈ t.retireDue, r.core = p ∧ r.saving = some on) ∧
            ∀ x ∈ on, ∀ d ∈ x.2, s.stillLoaded x.1 d = true → ∃ id, flying t d (.stop id)) ∧
        ((∀ x ∈ on, ∀ d ∈ x.2, s.stillLoaded x.1 d = false) →
          ∃ t, exec (.coreRetirement p) s = .next t ∧ (∀ r ∈ t.retireDue, r.core ≠ p) ∧
            (∀ v i, v ∈ s.vfs → v.indexOf p = some i → ∃ w ∈ t.vfs, w.vf = v.vf ∧ w.place i = s.spareFor p) ∧
            (s.retireRoom p = true → t.retired = p :: s.retired ∧
              ∀ i, s.repairIndex p = some i → t.repairOf i = s.spareFor p)))) ∧
    (∀ x r, due s f x → x.body = .trap r → s.trapEarlier f r.ctx = false → r.words.length = 8 →
      let q := s.trapRing r.ctx
      (s.core q.1).isFull (q.2.1 + 64 * (q.2.2 % 256)) = false →
      (wordAt r.words 0).field 0 8 = 0x29 → (wordAt r.words 0).field 32 16 ≠ 0 →
      s.placeIn ((wordAt r.words 0).field 48 16) (if (wordAt r.words 1).bit 55 then (wordAt r.words 2).field 48 11
        else (wordAt r.words 5).field 0 11) = some p →
      (assocGet s.storeFaults p = none → ∃ t, exec (.trapRecordPost f) s = .next t ∧ assocGet t.storeFaults p = some s.cycle ∧
        t.retireDue = s.retireDue) ∧
      (∀ first, assocGet s.storeFaults p = some first → s.cycle ≤ first + 24 * 3600 * 4000000000 →
        ∃ t, exec (.trapRecordPost f) s = .next t ∧ ∃ w ∈ t.retireDue, w.core = p)) ∧
    (c < 16 → c ≠ 0 → ∃ t, exec (.coreRetirement (4096 + c)) s = .next t ∧ (4096 + c) ∈ t.retired)

/-- R395, R436, R466, R480, R483, R485, R486: power and management. A core that has been idle for 65,536 cc parks, and is active
again when it unparks; one without state is off after a power-off, and as after boot otherwise; the package idles after a second
without contexts and requests, and wakes; a power-on reset leaves the machine as after boot but for what flash holds; the
lifecycle moves to deployed once, with the vendor's credential, and takes every function's key; the package id is written in
provisioning only; a power cap is kept; an attestation is answered under its nonce. What the model chose in it: keys,
credentials and the ciphertext of on-die memory are opaque (DESIGN CHOICE log 14); attestation values are opaque (DESIGN CHOICE
log 15); flash contents, ports, lifecycle and package id at reset (DESIGN CHOICE log 19); when a core parks, and what a core
that is off keeps (DEDUCED log 47). -/
def Obligations.PowerAndManagement : Prop :=
  ∀ (c cred v nonce : Nat) (s : State),
    let k := s.core c
    (c < 2048 → k.power = .active → k.hold = .none → k.haltQuick = false → k.idle = true →
      (∀ n, n < 4 → (s.seat c n).lastIssue + 65536 ≤ s.cycle) →
      ∃ t, exec (.corePark c) s = .next t ∧ t.core c = { k with power := .parked } ∧ ∀ d, d ≠ c → t.core d = s.core d) ∧
    (k.power = .parked → ∃ t, exec (.coreUnpark c) s = .next t ∧ t.core c = { k with power := .active } ∧
      ∀ g ∈ t.flights, g.dst = c → s.cycle + 400 ≤ g.due) ∧
    (c < 2048 → k.power ≠ .off → k.hold = .saved ∨ k.ctx = 0 ∧ k.hold = .none →
      ∃ t, exec (.corePowerOff c) s = .next t ∧ (t.core c).power = .off ∧ (t.core c).store = [] ∧ (t.core c).full = [] ∧
        (t.core c).counters = Vector.replicate 256 ⟨0, 0⟩ ∧ (t.core c).droops = k.droops ∧ (t.core c).hold = k.hold) ∧
    (s.idle = false → (∀ p ∈ s.cores, p.2.ctx = 0) → s.requestAt + 4000000000 ≤ s.cycle →
      exec .packageIdle s = .next { s with idle := true }) ∧
    (s.idle = true → ∃ t, exec .packageWake s = .next t ∧ t.idle = false ∧ t.cycle = s.cycle + 200000 ∧ t.cores = s.cores) ∧
    (∃ t, exec .powerOnReset s = .next t ∧ t.cores = [] ∧ t.contexts = [] ∧ t.launches = [] ∧ t.dram = [] ∧ t.flights = [] ∧
      t.sessions = [] ∧ t.pkgId = s.pkgId ∧ t.lifecycle = s.lifecycle ∧ t.repair = s.repair ∧ t.retired = s.retired ∧
      ∀ y ∈ t.vfs, y.active = false ∧ y.lp = s.repair) ∧
    (s.lifecycle = .provisioning →
      (cred = Config.vendorCredential → ∃ t, exec (.lifecycleMove cred) s = .next t ∧ t.lifecycle = .deployed ∧ t.sessions = [] ∧
        ∀ y ∈ t.vfs, y.active = false ∧ y.key = none ∧ y.credential = none) ∧
      (v < 4096 → ∃ t, exec (.packageIdWrite v) s = .next t ∧ t = { s with pkgId := BitVec.ofNat 12 v })) ∧
    (s.lifecycle = .deployed → exec (.lifecycleMove cred) s = .next s ∧ exec (.packageIdWrite v) s = .next s) ∧
    exec (.powerCap v) s = .next { s with powerCap := v } ∧
    (∃ t body, exec (.attestation nonce) s = .next t ∧ answered t nonce 0 body ∧ t.cores = s.cores)

/-! ### The matrix array -/

namespace Sys2Proof.Spec
open Sys2Proof.Machine

/-- A queued instruction of the matrix array of core c. -/
abbrev queued (s : State) (c m : Nat) (e : MatrixEntry) (step : Bool) : Prop :=
  (s.core c).matrix.find? (fun y => y.id == m && (y.op.isStep == step)) = some e

/-- Element of an I8 tile: row r, position k. -/
def i8At (tile : List Byte) (r k : Nat) : Int := (tile.getD (64 * r + k) 0).toInt

end Sys2Proof.Spec

/-- R80, R82, R165, R168, R174, R176, R180 to R183, R185, R186: the matrix array at work. A step of one core begins once it is
ready, with the tile at the head of each ring, which stays held; it ends 32 or 128 cc later with its cells, each I8 cell the sum
of its products modulo 2^32, and its instruction leaves with the last step, or traps where its tile holds a poisoned word; a
step that finds a gated sub-array asks for its wake. The fronts of a segment with equal fields form a gang, 8 cc later, and any
other fronts take gang-mismatch. ACCZ, ACCWR, ACCSCL and ACCRD act in their turn; a sub-array that has been idle is gated, and
one whose wake is due is awake; a codebook load makes the table invalid, and valid with its bytes 129 cc later. What the model
chose in it: a gang forms at the literal front of the matrix queue (DEDUCED log 39); when a matrix step wakes sub-arrays
(DEDUCED log 79); gang-mismatch names the lead of the core's own segment (DESIGN CHOICE log 93); which of several faulty members
of a gang faults first (DESIGN CHOICE log 110); poisoned words that effects and matrix instructions read (DEDUCED log 115). -/
def Obligations.TheMatrixArrayWorks : Prop :=
  ∀ (c m n : Nat) (s : State) (e : MatrixEntry),
    let k := s.core c
    (∀ tile ga gb fmt steps zf, queued s c m e true → e.op = .mma tile ga gb fmt steps zf 0 → unitFree s c e = true →
      (stepReady k s.cycle e true = .go → ga ≠ gb → (k.ring ga).blocked = false → (k.ring gb).blocked = false →
        memberFault s [(c, e, true)] = none → slotPoison k ga = none → slotPoison k gb = none → e.seat < 4 →
        let slot (g : BitVec 3) : List Byte :=
          k.store.bytes (ptrAddr (k.ring g).base + (k.ring g).head * (k.ring g).slotBytes) (k.ring g).slotBytes
        ∃ t y, exec (.matrixStepStart c m) s = .next t ∧ (t.core c).mstep = some y ∧ y.id = m ∧ y.a = slot ga ∧ y.b = slot gb ∧
          y.endAt = s.cycle + (if fmt = 7 then 128 else 32) ∧
          ∀ g, g = ga ∨ g = gb → ((t.core c).ring g).ready = (k.ring g).ready - 1 ∧
            ((t.core c).ring g).held = (k.ring g).held + 1 ∧ ((t.core c).ring g).hseq = (k.ring g).hseq + 1) ∧
      (stepReady k s.cycle e true = .sleep → e.seat < 4 → ∃ t, exec (.matrixStepStart c m) s = .next t ∧
        (t.seat c e.seat).regs.woke = true ∧ ∀ a ∈ (t.core c).subs.toList, a.awakeAt s.cycle false = true ∨ a.wakeAt ≠ none)) ∧
    (∀ y tile ga gb fmt steps zf wc, k.mstep = some y → y.endAt ≤ s.cycle → k.matrix.find? (·.id == y.id) = some e →
      e.op = .mma tile ga gb fmt steps zf wc → e.seat < 4 → memoriesWf s →
      let tileBytes := if fmt = 7 then 8192 else 4096
      (k.poisonIn (0x90000 + 0x1000 * tile.toNat) tileBytes ≠ none → c < 2048 →
        ∃ t, exec (.matrixStepEnd c) s = .next t ∧ (t.seat c e.seat).st = .trapped) ∧
      (k.poisonIn (0x90000 + 0x1000 * tile.toNat) tileBytes = none →
      ∃ t, exec (.matrixStepEnd c) s = .next t ∧ (t.core c).mstep = none ∧
        (e.done + 1 < steps → ∃ z ∈ (t.core c).matrix, z.id = e.id ∧ z.done = e.done + 1) ∧
        (steps ≤ e.done + 1 → (∀ z ∈ (t.core c).matrix, z.id ≠ e.id) ∧
          (t.seat c e.seat).regs.fin = (s.seat c e.seat).regs.fin + 1) ∧
        (∀ i, i < 0x90000 + 0x1000 * tile.toNat ∨ 0x90000 + 0x1000 * tile.toNat + tileBytes ≤ i →
          (t.core c).store.get i = k.store.get i) ∧
        (fmt = 0 → y.fmtA = 1 → y.fmtB = 1 → y.a.length = 2048 → y.b.length = 2048 → ∀ r j, r < 32 → j < 32 →
          let cell := 0x90000 + 0x1000 * tile.toNat + 4 * (32 * r + j)
          (bytesToNat ((t.core c).store.bytes cell 4) : Int) =
            ((bytesToNat (k.store.bytes cell 4) : Int) +
              ((List.range 64).map (fun i => i8At y.a r i * i8At y.b j i)).sum) % 2 ^ 32))) ∧
    (∀ ms, gangFront s c = some e → (gangCores c e.op.width).mapM (fun d => (gangFront s d).map (fun f => (d, f))) = some ms →
      (ms.all (fun x => gangKey x.2.op == gangKey e.op) = true → ∃ t, exec (.gangForm c) s = .next t ∧
        ∀ x ∈ ms, ∃ z ∈ (t.core x.1).matrix, z.id = x.2.id ∧ z.gang = s.fresh ∧ z.readyAt = s.cycle + 8) ∧
      (ms.all (fun x => gangKey x.2.op == gangKey e.op) = false → (∀ x ∈ ms, x.1 < 2048 ∧ x.2.seat < 4) →
        ∃ t, exec (.gangForm c) s = .next t ∧ ∀ x ∈ ms, (t.seat x.1 x.2.seat).st = .trapped)) ∧
    (queued s c m e false → accReady k s.cycle e = true → e.seat < 4 → memoriesWf s →
      (∀ tile, e.op = .accz tile → ∃ t, exec (.accumulatorInstructionDone c m) s = .next t ∧
        wrote k.store (t.core c).store (0x90000 + 0x1000 * tile.toNat) (List.replicate 4096 0) ∧
        (∀ z ∈ (t.core c).matrix, z.id ≠ m)) ∧
      (∀ tile row val, e.op = .accwr tile row val → ∃ t, exec (.accumulatorInstructionDone c m) s = .next t ∧
        wrote k.store (t.core c).store (0x90000 + 0x1000 * tile.toNat + 128 * row.toNat) (vecBytes val) ∧
        (t.seat c e.seat).regs.fin = (s.seat c e.seat).regs.fin + 1) ∧
      (∀ tile scale, e.op = .accscl tile scale → k.poisonIn (0x90000 + 0x1000 * tile.toNat) 4096 = none → ∃ t, exec (.accumulatorInstructionDone c m) s = .next t ∧
        let base := 0x90000 + 0x1000 * tile.toNat
        (∀ i, i < base ∨ base + 4096 ≤ i → (t.core c).store.get i = k.store.get i) ∧
        ∀ j, j < 1024 → (t.core c).store.bytes (base + 4 * j) 4 =
          natToBytes 4 (nearest f32 (fpMul (decodeFp f32 (bytesToNat (k.store.bytes (base + 4 * j) 4))) (decodeFp f32 scale.toNat)))) ∧
      (∀ tile row r, e.op = .accrd tile row → k.poisonIn (0x90000 + 0x1000 * tile.toNat + 128 * row.toNat) 128 = none →
        r ∈ (s.seat c e.seat).results → r.waits = m →
        ∃ t, exec (.accumulatorInstructionDone c m) s = .next t ∧ (t.core c).store = k.store ∧
          ∃ z ∈ (t.seat c e.seat).results, z.readyAt = s.cycle + 4 ∧ z.waits = 0 ∧ z.val =
            BitVec.ofNat 1024 (bytesToNat (k.store.bytes (0x90000 + 0x1000 * tile.toNat + 128 * row.toNat) 128)))) ∧
    (∀ a, k.subs[n]? = some a →
      (a.awake = true → a.idleSince + a.idle ≤ s.cycle → k.mstep = none → ∃ t, exec (.subarrayGate c n) s = .next t ∧
        (t.core c).subs[n]? = some { a with awake := false }) ∧
      (∀ w, a.wakeAt = some w → w ≤ s.cycle → ∃ t, exec (.subarrayWake c n) s = .next t ∧
        (t.core c).subs[n]? = some { a with awake := true, wakeAt := none, idleSince := s.cycle })) ∧
    (∀ l rest, k.cbPending = l :: rest →
      (l.started = false → (∀ y ∈ k.matrix, y.op.fmt ≠ 14 ∨ y.op.isStep = false ∨ l.issued ≤ y.id) →
        ∃ t, exec (.codebookLoadStart c) s = .next t ∧ (t.core c).cbValid = false ∧
          (t.core c).cbPending = { l with started := true, dueAt := s.cycle + 129 } :: rest) ∧
      (l.started = true → l.dueAt ≤ s.cycle → ∃ t, exec (.codebookLoadDone c) s = .next t ∧ (t.core c).table = l.data ∧
        (t.core c).cbValid = true ∧ (t.core c).cbLoads = (k.cbLoads + 1) % 65536 ∧ (t.core c).cbPending = rest))

/-! ### Rules stated whole -/

/-- R119: LI writes the sign-extended literal that its tail length selects, LIH the literal in the high half over the low half of
the old value, and neither writes x0; LIH stalls while its destination awaits a deferred result; their heads are those of
R119, and LI with no tail raises illegal-instruction. -/
def Obligations.LiteralsAreWritten : Prop :=
  ∀ (sw : Bool) (d : BitVec 6) (i16 : BitVec 16) (i32 : BitVec 32) (i64 : BitVec 64) (s : State) (t : Nat),
    let head (tl maj : Nat) : Nat := sw.toNat * 2 ^ 15 + tl * 2 ^ 13 + maj * 2 ^ 6 + d.toNat
    exec (.li16 sw d i16) s = writes s sw d (i16.signExtend 64) ∧
    exec (.li32 sw d i32) s = writes s sw d (i32.signExtend 64) ∧
    exec (.li64 sw d i64) s = writes s sw d (i64.signExtend 64) ∧
    exec (.lih sw d i32) s = writes s sw d (BitVec.ofNat 64 (i32.toNat * 2 ^ 32 + (s.x d).toNat % 2 ^ 32)) ∧
    decode (head 1 0x20) i16.toNat = .ok (.li16 sw d i16) ∧ decode (head 2 0x20) i32.toNat = .ok (.li32 sw d i32) ∧
    decode (head 3 0x20) i64.toNat = .ok (.li64 sw d i64) ∧ decode (head 2 0x21) i32.toNat = .ok (.lih sw d i32) ∧
    decode (head 0 0x20) t = .error .tailLength ∧
    (∀ tl, tl < 4 → tl ≠ 2 → decode (head tl 0x21) t = .error .tailLength) ∧
    (∀ w, s.me.pendingHeld d = false → s.me.pending d = true → gate s.me w (.lih sw d i32) = .stall) ∧
    (∀ w, fetchAt s.here s.me.regs.pc = .words w → w.head = head 0 0x20 → canIssue s.here s.me s.cycle = true →
      s.here.slotFor s.cycle s.curSeat = true → s.me.conflict = false → s.me.overBudget s.cycle = false →
      s.me.count ≠ 512 → issueSeat s = .next (s.marked.issued.fault s.curCore s.curSeat 0x01 (BitVec.ofNat 64 w.head) s.me.regs.pc))

/-- R147: VSEL takes lane i from v[b] where the mask has the lane active and from v[c] elsewhere, in every format 0 to 14, writes
every lane, sets no flag, and copies v[b] with q = 0; with E2M1 lanes a mask bit selects a pair. -/
def Obligations.SelectionMovesLanes : Prop :=
  ∀ (sw : Bool) (d b c : BitVec 5) (fmt : BitVec 4) (q : BitVec 3) (s : State), fmt.toNat ≤ 14 → formatOk s fmt →
    let f := fmt.toNat
    (∃ w, encode (.vsel sw d b c fmt q) = some w ∧ w.head / 2 ^ 6 % 2 ^ 7 = 0x4D ∧
      decode w.head w.tail = .ok (.vsel sw d b c fmt q)) ∧
    ∃ r n, exec (.vsel sw d b c fmt q) s = .next (done s sw (add s.me (.v d) r n)) ∧
      (f ≠ 14 → n = s.cycle + (if 7 ≤ f then 4 else 2)) ∧
      (∀ i, i < 1024 / fmtBits f →
        lane r f i = if (s.q q).getLsbD (if f = 13 then i / 2 else i) then lane (s.v b) f i else lane (s.v c) f i) ∧
      (q = 0 → r = s.v b)

/-- R82: a step of I8 ends with each cell the exact sum of its products and its old value, modulo 2^32, and marks a wrap in the
status that MWAIT reads when one of the exact sums lies outside the range of I32. -/
def Obligations.I8StepsWrap : Prop :=
  ∀ (c : CoreId) (s : State) (e : MatrixEntry) (y : MatrixStep) (tile : BitVec 4) (ga gb : BitVec 3) (steps : Nat) (zf : Bool)
      (wc : Nat),
    let k := s.core c
    k.mstep = some y → y.endAt ≤ s.cycle → k.matrix.find? (·.id == y.id) = some e → e.op = .mma tile ga gb 0 steps zf wc →
    e.seat < 4 → y.fmtA = 1 → y.fmtB = 1 → y.a.length = 2048 → y.b.length = 2048 → memoriesWf s →
    k.poisonIn (0x90000 + 0x1000 * tile.toNat) 4096 = none →
    let cell (m : Mem) (r j : Nat) : BitVec 32 := BitVec.ofNat 32 (bytesToNat (m.bytes (0x90000 + 0x1000 * tile.toNat +
      4 * (32 * r + j)) 4))
    let sum (r j : Nat) : Int := (cell k.store r j).toInt + ((List.range 64).map (fun i => i8At y.a r i * i8At y.b j i)).sum
    ∃ t, exec (.matrixStepEnd c) s = .next t ∧
      (∀ r j, r < 32 → j < 32 → cell (t.core c).store r j = BitVec.ofInt 32 (sum r j)) ∧
      ((t.seat c e.seat).regs.wrap = true ↔
        (s.seat c e.seat).regs.wrap = true ∨ ∃ r j, r < 32 ∧ j < 32 ∧ (sum r j < -2 ^ 31 ∨ 2 ^ 31 ≤ sum r j))

namespace Sys2Proof.Spec
open Sys2Proof.Machine

/-- A value is zero. -/
def isZero (v : Val) : Prop := ∃ neg e, v = .fin neg 0 e

/-- A pair of inputs whose product is 0 × ∞. -/
def zeroByInf (a b : Val) : Prop := (isZero a ∧ ∃ n, b = .inf n) ∨ (isZero b ∧ ∃ n, a = .inf n)

end Sys2Proof.Spec

/-- R81: the cell of a step in a float format other than F64 is the canonical NaN when a term is NaN, a product is 0 × ∞ or the
infinite terms have both signs, and otherwise the infinity of its infinite terms. -/
def Obligations.SpecialTermsDecideACell : Prop :=
  ∀ (fmt acc : Nat) (a b : List Val), fmt ≠ 0 → fmt ≠ 7 →
    let old := decodeFp f32 acc
    let ps := a.zip b
    let infinite (n : Bool) : Prop := old = .inf n ∨ ∃ p ∈ ps, p.1.times p.2 = .inf n
    let nan : Prop := old.isNan = true ∨ ∃ p ∈ ps, (p.1.times p.2).isNan = true ∨ zeroByInf p.1 p.2
    (nan ∨ (infinite true ∧ infinite false) → (stepCell fmt acc a b).1 = 0x7FC00000) ∧
    (¬ nan → ¬ (infinite true ∧ infinite false) →
      (infinite false → (stepCell fmt acc a b).1 = 0x7F800000) ∧ (infinite true → (stepCell fmt acc a b).1 = 0xFF800000))

/-- R232: CLAIM on a bounded counter below its bound gives the old value and adds 1, and every other CLAIM gives all ones and changes
nothing; the bound is early:next as 40 bits. -/
def Obligations.ClaimsStopAtTheBound : Prop :=
  ∀ (k : Counter),
    let bound := k.early * 2 ^ 20 + k.next
    bound < 2 ^ 40 ∧
    (k.mode = 2 → k.value.toNat < bound → k.claim = ({ k with value := k.value + 1 }, k.value)) ∧
    (k.mode = 2 → bound ≤ k.value.toNat → k.claim = (k, BitVec.allOnes 64)) ∧
    (k.mode ≠ 2 → k.claim = (k, BitVec.allOnes 64))

/-! ### Decoding, stepping and the whole machine -/

namespace Sys2Proof.Spec
open Sys2Proof.Machine

/-- The instruction that the decoder reads from an instruction's words: rows that an operand's value tells apart share their words
(DEDUCED log 6). -/
def asRead (i : Instr) : Instr :=
  match i with
  | .hdecideResume sw a => .sysw sw a 0x207
  | .hdecideEndContinuation sw a => .sysw sw a 0x207
  | .hdecideEndLaunch sw a => .sysw sw a 0x207
  | .vfcfgActivate sw d b c => .vfcfgConfigure sw d b c
  | .vfcfgDeactivate sw d b c => .vfcfgConfigure sw d b c
  | i => i

/-- The state in which the seat that a turn names issues. -/
def atTurn (s : State) (r : List Turn) (gap : Nat) (c : CoreId) (n : Nat) : State :=
  { s with agenda := r, cycle := s.cycle + gap, curCore := c, curSeat := n }

end Sys2Proof.Spec

/-- R89 to R99: words written out from the encoding tables, one of each group, decode to the instructions they stand for. -/
def Obligations.WrittenWordsDecode : Prop :=
  decode 0x0001 0 = .ok (.nop false) ∧
  decode 0x8300 0 = .ok (.chunk true) ∧
  decode 0x2445 0x0430 = .ok (.subR false 5 1 3 false) ∧
  decode 0x2805 0xFFFE = .ok (.li16 false 5 0xFFFE) ∧
  decode 0x2D83 0x1000 = .ok (.caddR false 3 4) ∧
  decode 0x37C1 0x0831 = .ok (.qor false 1 2 3) ∧
  decode 0x19C7 0 = .ok (.accz false 7) ∧
  decode 0x3F80 0x0800 = .ok (.tlbinv false 0 2) ∧
  decode 0x03C0 0 = .error .reservedMajor ∧
  decode 0x2001 0x1234 = .ok (.nopT1 false 0x1234)

/-- R87 to R99: the decoder reads back every well-formed instruction from the words that the encoder gives it, with every operand at
every value; three rows of HDECIDE and two of VFCFG read back as the row whose words they share (DEDUCED log 6). -/
def Obligations.DecodingReadsTheEncoding : Prop :=
  ∀ i : Instr, i.wf = true → i.isEvent = false → ∃ w, encode i = some w ∧ decode w.head w.tail = .ok (asRead i)

/-- R24, R25, R30: what decodes is a well-formed instruction, and no two words decode to the same one: the encoder gives back the
head and the tail, every bit of them. -/
def Obligations.WordsHaveOneMeaning : Prop :=
  ∀ (h t : Nat) (i : Instr), h < 2 ^ 16 → t < 2 ^ (16 * tailHalfwords (h / 2 ^ 13 % 4)) → decode h t = .ok i →
    i.wf = true ∧ i.isEvent = false ∧ encode i = some ⟨h, t⟩

/-- R21, R22, R87, R193: a turn of the schedule. A seat that may issue, with a well-formed instruction at its PC and its operands
there, runs that instruction, with its chunk's budget begun; words that spell no instruction take exception 0x01 with the head
as the argument; a turn that names an event runs that event. What the model chose in it: the order of agents is State.agenda,
and a fixed policy where it is empty (DESIGN CHOICE log 4). -/
def Obligations.AStepRunsTheDecodedInstruction : Prop :=
  ∀ (s : State) (r : List Turn) (gap : Nat) (c : CoreId) (n : Nat),
    (s.agenda = .issue gap c n :: r → coreExists c = true → seatExists n = true →
      let u := atTurn s r gap c n
      canIssue u.here u.me u.cycle = true → u.here.slotFor u.cycle n = true → u.me.conflict = false → u.me.overBudget u.cycle = false →
      u.me.count ≠ 512 → ∀ w, fetchAt u.here u.me.regs.pc = .words w →
        (∀ i, decode w.head w.tail = .ok i → gate u.me w i = .go → step s = exec (resolve u i) u.marked) ∧
        (∀ e, decode w.head w.tail = .error e →
          step s = .next (u.marked.issued.fault c n 0x01 (BitVec.ofNat 64 w.head) u.me.regs.pc))) ∧
    (∀ e, s.agenda = .event gap e :: r → e.isEvent = true → step s = exec e { s with agenda := r, cycle := s.cycle + gap })

/-- R40, R209, R404: every instruction and every event ends in a next state, whatever its operands and the state, and so does every
step whose turn names a seat that exists: a fault of R404 is an exception taken, and an event that is not due changes nothing
(DESIGN CHOICE log 5). What the model chose in it: the order of agents is State.agenda, and a fixed policy where it is empty
(DESIGN CHOICE log 4). -/
def Obligations.TheMachineGoesOn : Prop :=
  (∀ (i : Instr) (s : State), ∃ t, exec i s = .next t) ∧
  ∀ s : State, (∀ gap c n r, s.agenda = .issue gap c n :: r → coreExists c = true ∧ seatExists n = true) →
    ∃ t, step s = .next t

/-- R41, R43, R51, R421: every step keeps every memory in its canonical form: addresses rise, and no byte is listed that reads as an
unlisted one does. What the model chose in it: a byte of memory that nothing has written reads as 0 (DESIGN CHOICE log 2). -/
def Obligations.EveryStepKeepsTheMemories : Prop :=
  ∀ s t : State, memoriesWf s → step s = .next t → memoriesWf t

/-- The memories are in their canonical form at reset. R45, R186, R228, R254, R485: what the machine holds after reset, for the
values that the spec gives: no context and no launch, every seat free with RMODE and NF 0 and its SEED, every counter plain with
value 0, every sub-array gated with an idle count of 2,048, the mailbox with k = 32, counter 0 and E = 0, every core active and
every word empty. -/
def Obligations.ResetLeavesTheMachine : Prop :=
  (memoriesWf State.reset) ∧
  (State.reset.contexts = [] ∧ State.reset.launches = [] ∧ State.reset.flights = [] ∧
  ∀ (c n i : Nat), c < 2048 → n < 4 → i < 256 →
    let k := State.reset.core c
    let x := State.reset.seat c n
    x.st = .free ∧ x.regs.rmode = 0 ∧ x.regs.nf = 0 ∧
    x.regs.seed = 0x9E3779B97F4A7C15 ^^^ BitVec.ofNat 64 (4 * c + n) ∧
    (k.counters[(BitVec.ofNat 8 i).toFin]).value = 0 ∧ (k.counters[(BitVec.ofNat 8 i).toFin]).shadow = 0 ∧
    (∀ a ∈ k.subs.toList, a.awake = false ∧ a.idle = 2048) ∧
    k.mailbox.k = 32 ∧ k.mailbox.idx = 0 ∧ k.mailbox.expected = 0 ∧ k.power = .active ∧ (∀ a, k.isFull a = false))
end

