-- ==== Sys2Proof/Laws/Memory.lean ====
section
/-!
SUPPORT. Byte memory: a read after a write, and the canonical form, which every memory operation keeps.
-/
namespace Sys2Proof.Machine

/-- A read of the byte just written gives it. -/
@[simp] theorem Mem.get_put_same (m : Mem) (a : Nat) (v : Byte) : (h : m.wf = true) → (m.put a v).get a = v := by
  suffices H : ∀ lo, Mem.sortedFrom lo m = true → (m.put a v).get a = v from fun h => H 0 h
  induction m with
  | nil =>
    intro lo _
    by_cases e : v = Mem.empty <;> simp [Mem.put, Mem.get, e]
  | cons p r ih =>
    intro lo h
    obtain ⟨b, x⟩ := p
    simp only [Mem.sortedFrom, Bool.and_eq_true, decide_eq_true_eq] at h
    have gone : ∀ lo (n : Mem), Mem.sortedFrom lo n = true → a < lo → n.get a = Mem.empty := by
      intro lo n
      induction n generalizing lo with
      | nil => intro _ _; rfl
      | cons q t iht =>
        intro hn hl
        simp only [Mem.sortedFrom, Bool.and_eq_true, decide_eq_true_eq] at hn
        have : q.1 ≠ a := by omega
        simp only [Mem.get, if_neg this]
        exact iht (q.1 + 1) hn.2 (by omega)
    unfold Mem.put
    split
    · split
      · rename_i h1 h2
        have : b ≠ a := by omega
        simp only [Mem.get, if_neg this]
        rw [h2]
        exact gone (b + 1) r h.2 (by omega)
      · simp [Mem.get]
    · split
      · split
        · rename_i h1 h2 h3
          rw [h3]
          exact gone (b + 1) r h.2 (by omega)
        · simp [Mem.get]
      · rename_i h1 h2
        have : b ≠ a := fun e => h2 e.symm
        simp only [Mem.get, if_neg this]
        exact ih (b + 1) h.2

/-- A write leaves every other byte alone. -/
theorem Mem.get_put_other (m : Mem) (a c : Nat) (v : Byte) (h : a ≠ c) : (m.put a v).get c = m.get c := by
  induction m with
  | nil =>
    by_cases e : v = Mem.empty <;> simp [Mem.put, Mem.get, e, h]
  | cons p r ih =>
    obtain ⟨b, x⟩ := p
    unfold Mem.put
    split
    · split
      · rfl
      · simp only [Mem.get, if_neg h]
    · split
      · rename_i h2
        have : b ≠ c := fun e => h (h2.trans e)
        split
        · simp only [Mem.get, if_neg this]
        · simp only [Mem.get, if_neg this, if_neg h]
      · simp only [Mem.get]
        split
        · rfl
        · exact ih

/-- A write of one byte keeps the canonical form from any bound below it. -/
theorem Mem.sortedFrom_put (m : Mem) (a : Nat) (v : Byte) (lo : Nat) (hl : lo ≤ a) (h : Mem.sortedFrom lo m = true) :
    Mem.sortedFrom lo (m.put a v) = true := by
  induction m generalizing lo with
  | nil =>
    by_cases e : v = Mem.empty <;> simp [Mem.put, Mem.sortedFrom, e, hl]
  | cons p r ih =>
    obtain ⟨b, x⟩ := p
    simp only [Mem.sortedFrom, Bool.and_eq_true, decide_eq_true_eq] at h
    obtain ⟨⟨h1, h2⟩, h3⟩ := h
    have weaken : ∀ (n : Mem) (l k : Nat), l ≤ k → Mem.sortedFrom k n = true → Mem.sortedFrom l n = true := by
      intro n l k hk hn
      cases n with
      | nil => rfl
      | cons q t =>
        simp only [Mem.sortedFrom, Bool.and_eq_true, decide_eq_true_eq] at hn ⊢
        exact ⟨⟨by omega, hn.1.2⟩, hn.2⟩
    unfold Mem.put
    split
    · split
      · simp [Mem.sortedFrom, h1, h2, h3]
      · rename_i g1 g2
        simp only [Mem.sortedFrom, Bool.and_eq_true, decide_eq_true_eq]
        exact ⟨⟨hl, by simpa using g2⟩, ⟨by omega, h2⟩, h3⟩
    · split
      · rename_i g1 g2
        split
        · exact weaken r lo (b + 1) (by omega) h3
        · rename_i g3
          simp only [Mem.sortedFrom, Bool.and_eq_true, decide_eq_true_eq]
          exact ⟨⟨hl, by simpa using g3⟩, by rw [g2]; exact h3⟩
      · rename_i g1 g2
        simp only [Mem.sortedFrom, Bool.and_eq_true, decide_eq_true_eq]
        exact ⟨⟨h1, h2⟩, ih (b + 1) (by omega) h3⟩

/-- A write of one byte keeps the canonical form. -/
theorem Mem.wf_put (m : Mem) (a : Nat) (v : Byte) (h : m.wf = true) : (m.put a v).wf = true :=
  Mem.sortedFrom_put m a v 0 (Nat.zero_le a) h

/-- A write of bytes keeps the canonical form. -/
theorem Mem.wf_write (m : Mem) (a : Nat) (bs : List Byte) (h : m.wf = true) : (m.write a bs).wf = true := by
  induction bs generalizing m a with
  | nil => exact h
  | cons b r ih => exact ih (m.put a b) (a + 1) (Mem.wf_put m a b h)

/-- A write of bytes leaves every byte outside them alone. -/
theorem Mem.get_write_outside (m : Mem) (a c : Nat) (bs : List Byte) (h : c < a ∨ a + bs.length ≤ c) :
    (m.write a bs).get c = m.get c := by
  induction bs generalizing m a with
  | nil => rfl
  | cons b r ih =>
    simp only [List.length_cons] at h
    rw [Mem.write, ih (m.put a b) (a + 1) (by omega), Mem.get_put_other m a c b (by omega)]

/-- Bytes written read back. -/
theorem Mem.get_write_inside (m : Mem) (a : Nat) (bs : List Byte) (i : Nat) (hm : m.wf = true) (h : i < bs.length) :
    (m.write a bs).get (a + i) = bs[i] := by
  induction bs generalizing m a i with
  | nil => simp at h
  | cons b r ih =>
    cases i with
    | zero =>
      rw [Mem.write, Mem.get_write_outside _ _ _ _ (by omega)]
      simp [Mem.get_put_same m a b hm]
    | succ i =>
      have := ih (m.put a b) (a + 1) i (Mem.wf_put m a b hm) (by simpa using h)
      rw [Mem.write, show a + (i + 1) = a + 1 + i by omega, this]
      simp

/-- Below the bound of its form a memory reads as empty. -/
theorem Mem.get_below (m : Mem) (lo a : Nat) (h : Mem.sortedFrom lo m = true) (ha : a < lo) : m.get a = Mem.empty := by
  induction m generalizing lo with
  | nil => rfl
  | cons q t ih =>
    simp only [Mem.sortedFrom, Bool.and_eq_true, decide_eq_true_eq] at h
    have : q.1 ≠ a := by omega
    simp only [Mem.get, if_neg this]
    exact ih (q.1 + 1) h.2 (by omega)

/-- Equal reads mean equal data: the canonical form is one for each contents. -/
theorem Mem.ext_get (m n : Mem) (lo : Nat) (hm : Mem.sortedFrom lo m = true) (hn : Mem.sortedFrom lo n = true)
    (h : ∀ a, m.get a = n.get a) : m = n := by
  induction m generalizing n lo with
  | nil =>
    cases n with
    | nil => rfl
    | cons q t =>
      simp only [Mem.sortedFrom, Bool.and_eq_true, bne_iff_ne, ne_eq] at hn
      exact absurd (by simpa [Mem.get] using (h q.1).symm) hn.1.2
  | cons p r ih =>
    cases n with
    | nil =>
      simp only [Mem.sortedFrom, Bool.and_eq_true, bne_iff_ne, ne_eq] at hm
      exact absurd (by simpa [Mem.get] using h p.1) hm.1.2
    | cons q t =>
      have hm' := hm
      have hn' := hn
      simp only [Mem.sortedFrom, Bool.and_eq_true, bne_iff_ne, ne_eq, decide_eq_true_eq] at hm hn
      have key : p.1 = q.1 := by
        rcases Nat.lt_trichotomy p.1 q.1 with g | g | g
        · have := h p.1
          have e : Mem.get (q :: t) p.1 = Mem.empty :=
            Mem.get_below (q :: t) q.1 p.1 (by simp [Mem.sortedFrom, hn.1.2, hn.2]) g
          rw [e] at this
          exact absurd (by simpa [Mem.get] using this) hm.1.2
        · exact g
        · have := h q.1
          have e : Mem.get (p :: r) q.1 = Mem.empty :=
            Mem.get_below (p :: r) p.1 q.1 (by simp [Mem.sortedFrom, hm.1.2, hm.2]) g
          rw [e] at this
          exact absurd (by simpa [Mem.get] using this.symm) hn.1.2
      have val : p.2 = q.2 := by simpa [Mem.get, key] using h p.1
      have rest : r = t := by
        refine ih t (p.1 + 1) hm.2 (by rw [key]; exact hn.2) ?_
        intro a
        by_cases g : a = p.1
        · rw [g, Mem.get_below r (p.1 + 1) p.1 hm.2 (by omega),
            Mem.get_below t (q.1 + 1) p.1 hn.2 (by omega)]
        · have := h a
          simpa [Mem.get, fun e : p.1 = a => g e.symm, fun e : q.1 = a => g (key.trans e).symm, Ne.symm g,
            show q.1 ≠ a from fun e => g (by rw [key]; exact e.symm)] using this
      rw [rest, show p = q from Prod.ext key val]

/-- Reset memory has the canonical form. -/
theorem Mem.wf_nil : Mem.wf [] = true := rfl

theorem State.reset_dram_wf : State.reset.dram.wf = true := rfl

theorem Core.init_store_wf (c : CoreId) : (Core.init c).store.wf = true := rfl

/-- An engine write keeps the canonical form of a core's store (R212). -/
theorem Core.land_wf (k : Core) (a : Nat) (bs : List Byte) (h : k.store.wf = true) : (k.land a bs).store.wf = true := by
  unfold Core.land Core.clearPoison Core.fillWords
  simp only
  split <;> exact Mem.wf_write _ _ _ h

end Sys2Proof.Machine
end

