-- ==== Sys2Proof/Laws/State.lean ====
section
/-!
SUPPORT. What each update of the state, of a core, of a seat and of the registers leaves unchanged and what it reads back:
one lemma for each field and update.
-/
namespace Sys2Proof.Machine
/-! ### Updates of the package: the fields they leave unchanged -/

@[simp] theorem State.setCore_cycle (s : State) (c : CoreId) (k : Core) : (s.setCore c k).cycle = s.cycle := rfl
@[simp] theorem State.setCore_curCore (s : State) (c : CoreId) (k : Core) : (s.setCore c k).curCore = s.curCore := rfl
@[simp] theorem State.setCore_curSeat (s : State) (c : CoreId) (k : Core) : (s.setCore c k).curSeat = s.curSeat := rfl
@[simp] theorem State.setCore_agenda (s : State) (c : CoreId) (k : Core) : (s.setCore c k).agenda = s.agenda := rfl
@[simp] theorem State.setCore_fresh (s : State) (c : CoreId) (k : Core) : (s.setCore c k).fresh = s.fresh := rfl
@[simp] theorem State.setCore_place (s : State) (c : CoreId) (k : Core) : (s.setCore c k).place = s.place := rfl
@[simp] theorem State.setCore_flights (s : State) (c : CoreId) (k : Core) : (s.setCore c k).flights = s.flights := rfl
@[simp] theorem State.setCore_openOps (s : State) (c : CoreId) (k : Core) : (s.setCore c k).openOps = s.openOps := rfl
@[simp] theorem State.setCore_ended (s : State) (c : CoreId) (k : Core) : (s.setCore c k).ended = s.ended := rfl
@[simp] theorem State.setCore_dram (s : State) (c : CoreId) (k : Core) : (s.setCore c k).dram = s.dram := rfl
@[simp] theorem State.setCore_contexts (s : State) (c : CoreId) (k : Core) : (s.setCore c k).contexts = s.contexts := rfl
@[simp] theorem State.setCore_launches (s : State) (c : CoreId) (k : Core) : (s.setCore c k).launches = s.launches := rfl
@[simp] theorem State.setCore_rounds (s : State) (c : CoreId) (k : Core) : (s.setCore c k).rounds = s.rounds := rfl
@[simp] theorem State.setCore_tickets (s : State) (c : CoreId) (k : Core) : (s.setCore c k).tickets = s.tickets := rfl
@[simp] theorem State.setCore_vfs (s : State) (c : CoreId) (k : Core) : (s.setCore c k).vfs = s.vfs := rfl
@[simp] theorem State.setCore_runQueue (s : State) (c : CoreId) (k : Core) : (s.setCore c k).runQueue = s.runQueue := rfl
@[simp] theorem State.setCore_hallRing (s : State) (c : CoreId) (k : Core) : (s.setCore c k).hallRing = s.hallRing := rfl
@[simp] theorem State.setCore_saveJobs (s : State) (c : CoreId) (k : Core) : (s.setCore c k).saveJobs = s.saveJobs := rfl
@[simp] theorem State.setCore_walks (s : State) (c : CoreId) (k : Core) : (s.setCore c k).walks = s.walks := rfl
@[simp] theorem State.setCore_invs (s : State) (c : CoreId) (k : Core) : (s.setCore c k).invs = s.invs := rfl
@[simp] theorem State.setCore_dieTlbs (s : State) (c : CoreId) (k : Core) : (s.setCore c k).dieTlbs = s.dieTlbs := rfl
@[simp] theorem State.setCore_exports (s : State) (c : CoreId) (k : Core) : (s.setCore c k).exports = s.exports := rfl
@[simp] theorem State.setCore_streams (s : State) (c : CoreId) (k : Core) : (s.setCore c k).streams = s.streams := rfl
@[simp] theorem State.setCore_ports (s : State) (c : CoreId) (k : Core) : (s.setCore c k).ports = s.ports := rfl
@[simp] theorem State.setCore_pkgId (s : State) (c : CoreId) (k : Core) : (s.setCore c k).pkgId = s.pkgId := rfl
@[simp] theorem State.setCore_edgeOut (s : State) (c : CoreId) (k : Core) : (s.setCore c k).edgeOut = s.edgeOut := rfl
@[simp] theorem State.setCore_outgoing (s : State) (c : CoreId) (k : Core) : (s.setCore c k).outgoing = s.outgoing := rfl
@[simp] theorem State.setCore_incoming (s : State) (c : CoreId) (k : Core) : (s.setCore c k).incoming = s.incoming := rfl
@[simp] theorem State.setCore_replies (s : State) (c : CoreId) (k : Core) : (s.setCore c k).replies = s.replies := rfl
@[simp] theorem State.setCore_waits (s : State) (c : CoreId) (k : Core) : (s.setCore c k).waits = s.waits := rfl
@[simp] theorem State.setCore_sessions (s : State) (c : CoreId) (k : Core) : (s.setCore c k).sessions = s.sessions := rfl
@[simp] theorem State.setCore_lifecycle (s : State) (c : CoreId) (k : Core) : (s.setCore c k).lifecycle = s.lifecycle := rfl
@[simp] theorem State.setCore_guards (s : State) (c : CoreId) (k : Core) : (s.setCore c k).guards = s.guards := rfl
@[simp] theorem State.setCore_mirrors (s : State) (c : CoreId) (k : Core) : (s.setCore c k).mirrors = s.mirrors := rfl
@[simp] theorem State.setCore_parityDue (s : State) (c : CoreId) (k : Core) : (s.setCore c k).parityDue = s.parityDue := rfl
@[simp] theorem State.setCore_poisonLines (s : State) (c : CoreId) (k : Core) : (s.setCore c k).poisonLines = s.poisonLines := rfl
@[simp] theorem State.setCore_badLines (s : State) (c : CoreId) (k : Core) : (s.setCore c k).badLines = s.badLines := rfl
@[simp] theorem State.setCore_weakLines (s : State) (c : CoreId) (k : Core) : (s.setCore c k).weakLines = s.weakLines := rfl
@[simp] theorem State.setCore_errlogs (s : State) (c : CoreId) (k : Core) : (s.setCore c k).errlogs = s.errlogs := rfl
@[simp] theorem State.setCore_repair (s : State) (c : CoreId) (k : Core) : (s.setCore c k).repair = s.repair := rfl
@[simp] theorem State.setCore_retired (s : State) (c : CoreId) (k : Core) : (s.setCore c k).retired = s.retired := rfl
@[simp] theorem State.setCore_storeFaults (s : State) (c : CoreId) (k : Core) : (s.setCore c k).storeFaults = s.storeFaults := rfl
@[simp] theorem State.setCore_retireDue (s : State) (c : CoreId) (k : Core) : (s.setCore c k).retireDue = s.retireDue := rfl
@[simp] theorem State.setCore_powerCap (s : State) (c : CoreId) (k : Core) : (s.setCore c k).powerCap = s.powerCap := rfl
@[simp] theorem State.setCore_idle (s : State) (c : CoreId) (k : Core) : (s.setCore c k).idle = s.idle := rfl
@[simp] theorem State.setCore_requestAt (s : State) (c : CoreId) (k : Core) : (s.setCore c k).requestAt = s.requestAt := rfl
@[simp] theorem State.setSeat_cycle (s : State) (c : CoreId) (n : Nat) (x : Seat) : (s.setSeat c n x).cycle = s.cycle := rfl
@[simp] theorem State.setSeat_curCore (s : State) (c : CoreId) (n : Nat) (x : Seat) : (s.setSeat c n x).curCore = s.curCore := rfl
@[simp] theorem State.setSeat_curSeat (s : State) (c : CoreId) (n : Nat) (x : Seat) : (s.setSeat c n x).curSeat = s.curSeat := rfl
@[simp] theorem State.setSeat_agenda (s : State) (c : CoreId) (n : Nat) (x : Seat) : (s.setSeat c n x).agenda = s.agenda := rfl
@[simp] theorem State.setSeat_fresh (s : State) (c : CoreId) (n : Nat) (x : Seat) : (s.setSeat c n x).fresh = s.fresh := rfl
@[simp] theorem State.setSeat_place (s : State) (c : CoreId) (n : Nat) (x : Seat) : (s.setSeat c n x).place = s.place := rfl
@[simp] theorem State.setSeat_flights (s : State) (c : CoreId) (n : Nat) (x : Seat) : (s.setSeat c n x).flights = s.flights := rfl
@[simp] theorem State.setSeat_openOps (s : State) (c : CoreId) (n : Nat) (x : Seat) : (s.setSeat c n x).openOps = s.openOps := rfl
@[simp] theorem State.setSeat_ended (s : State) (c : CoreId) (n : Nat) (x : Seat) : (s.setSeat c n x).ended = s.ended := rfl
@[simp] theorem State.setSeat_dram (s : State) (c : CoreId) (n : Nat) (x : Seat) : (s.setSeat c n x).dram = s.dram := rfl
@[simp] theorem State.setSeat_contexts (s : State) (c : CoreId) (n : Nat) (x : Seat) : (s.setSeat c n x).contexts = s.contexts := rfl
@[simp] theorem State.setSeat_launches (s : State) (c : CoreId) (n : Nat) (x : Seat) : (s.setSeat c n x).launches = s.launches := rfl
@[simp] theorem State.setSeat_rounds (s : State) (c : CoreId) (n : Nat) (x : Seat) : (s.setSeat c n x).rounds = s.rounds := rfl
@[simp] theorem State.setSeat_tickets (s : State) (c : CoreId) (n : Nat) (x : Seat) : (s.setSeat c n x).tickets = s.tickets := rfl
@[simp] theorem State.setSeat_vfs (s : State) (c : CoreId) (n : Nat) (x : Seat) : (s.setSeat c n x).vfs = s.vfs := rfl
@[simp] theorem State.setSeat_runQueue (s : State) (c : CoreId) (n : Nat) (x : Seat) : (s.setSeat c n x).runQueue = s.runQueue := rfl
@[simp] theorem State.setSeat_hallRing (s : State) (c : CoreId) (n : Nat) (x : Seat) : (s.setSeat c n x).hallRing = s.hallRing := rfl
@[simp] theorem State.setSeat_saveJobs (s : State) (c : CoreId) (n : Nat) (x : Seat) : (s.setSeat c n x).saveJobs = s.saveJobs := rfl
@[simp] theorem State.setSeat_walks (s : State) (c : CoreId) (n : Nat) (x : Seat) : (s.setSeat c n x).walks = s.walks := rfl
@[simp] theorem State.setSeat_invs (s : State) (c : CoreId) (n : Nat) (x : Seat) : (s.setSeat c n x).invs = s.invs := rfl
@[simp] theorem State.setSeat_dieTlbs (s : State) (c : CoreId) (n : Nat) (x : Seat) : (s.setSeat c n x).dieTlbs = s.dieTlbs := rfl
@[simp] theorem State.setSeat_exports (s : State) (c : CoreId) (n : Nat) (x : Seat) : (s.setSeat c n x).exports = s.exports := rfl
@[simp] theorem State.setSeat_streams (s : State) (c : CoreId) (n : Nat) (x : Seat) : (s.setSeat c n x).streams = s.streams := rfl
@[simp] theorem State.setSeat_ports (s : State) (c : CoreId) (n : Nat) (x : Seat) : (s.setSeat c n x).ports = s.ports := rfl
@[simp] theorem State.setSeat_pkgId (s : State) (c : CoreId) (n : Nat) (x : Seat) : (s.setSeat c n x).pkgId = s.pkgId := rfl
@[simp] theorem State.setSeat_edgeOut (s : State) (c : CoreId) (n : Nat) (x : Seat) : (s.setSeat c n x).edgeOut = s.edgeOut := rfl
@[simp] theorem State.setSeat_outgoing (s : State) (c : CoreId) (n : Nat) (x : Seat) : (s.setSeat c n x).outgoing = s.outgoing := rfl
@[simp] theorem State.setSeat_incoming (s : State) (c : CoreId) (n : Nat) (x : Seat) : (s.setSeat c n x).incoming = s.incoming := rfl
@[simp] theorem State.setSeat_replies (s : State) (c : CoreId) (n : Nat) (x : Seat) : (s.setSeat c n x).replies = s.replies := rfl
@[simp] theorem State.setSeat_waits (s : State) (c : CoreId) (n : Nat) (x : Seat) : (s.setSeat c n x).waits = s.waits := rfl
@[simp] theorem State.setSeat_sessions (s : State) (c : CoreId) (n : Nat) (x : Seat) : (s.setSeat c n x).sessions = s.sessions := rfl
@[simp] theorem State.setSeat_lifecycle (s : State) (c : CoreId) (n : Nat) (x : Seat) : (s.setSeat c n x).lifecycle = s.lifecycle := rfl
@[simp] theorem State.setSeat_guards (s : State) (c : CoreId) (n : Nat) (x : Seat) : (s.setSeat c n x).guards = s.guards := rfl
@[simp] theorem State.setSeat_mirrors (s : State) (c : CoreId) (n : Nat) (x : Seat) : (s.setSeat c n x).mirrors = s.mirrors := rfl
@[simp] theorem State.setSeat_parityDue (s : State) (c : CoreId) (n : Nat) (x : Seat) : (s.setSeat c n x).parityDue = s.parityDue := rfl
@[simp] theorem State.setSeat_poisonLines (s : State) (c : CoreId) (n : Nat) (x : Seat) : (s.setSeat c n x).poisonLines = s.poisonLines := rfl
@[simp] theorem State.setSeat_badLines (s : State) (c : CoreId) (n : Nat) (x : Seat) : (s.setSeat c n x).badLines = s.badLines := rfl
@[simp] theorem State.setSeat_weakLines (s : State) (c : CoreId) (n : Nat) (x : Seat) : (s.setSeat c n x).weakLines = s.weakLines := rfl
@[simp] theorem State.setSeat_errlogs (s : State) (c : CoreId) (n : Nat) (x : Seat) : (s.setSeat c n x).errlogs = s.errlogs := rfl
@[simp] theorem State.setSeat_repair (s : State) (c : CoreId) (n : Nat) (x : Seat) : (s.setSeat c n x).repair = s.repair := rfl
@[simp] theorem State.setSeat_retired (s : State) (c : CoreId) (n : Nat) (x : Seat) : (s.setSeat c n x).retired = s.retired := rfl
@[simp] theorem State.setSeat_storeFaults (s : State) (c : CoreId) (n : Nat) (x : Seat) : (s.setSeat c n x).storeFaults = s.storeFaults := rfl
@[simp] theorem State.setSeat_retireDue (s : State) (c : CoreId) (n : Nat) (x : Seat) : (s.setSeat c n x).retireDue = s.retireDue := rfl
@[simp] theorem State.setSeat_powerCap (s : State) (c : CoreId) (n : Nat) (x : Seat) : (s.setSeat c n x).powerCap = s.powerCap := rfl
@[simp] theorem State.setSeat_idle (s : State) (c : CoreId) (n : Nat) (x : Seat) : (s.setSeat c n x).idle = s.idle := rfl
@[simp] theorem State.setSeat_requestAt (s : State) (c : CoreId) (n : Nat) (x : Seat) : (s.setSeat c n x).requestAt = s.requestAt := rfl
@[simp] theorem State.setMe_cycle (s : State) (x : Seat) : (s.setMe x).cycle = s.cycle := rfl
@[simp] theorem State.setMe_curCore (s : State) (x : Seat) : (s.setMe x).curCore = s.curCore := rfl
@[simp] theorem State.setMe_curSeat (s : State) (x : Seat) : (s.setMe x).curSeat = s.curSeat := rfl
@[simp] theorem State.setMe_agenda (s : State) (x : Seat) : (s.setMe x).agenda = s.agenda := rfl
@[simp] theorem State.setMe_fresh (s : State) (x : Seat) : (s.setMe x).fresh = s.fresh := rfl
@[simp] theorem State.setMe_place (s : State) (x : Seat) : (s.setMe x).place = s.place := rfl
@[simp] theorem State.setMe_flights (s : State) (x : Seat) : (s.setMe x).flights = s.flights := rfl
@[simp] theorem State.setMe_openOps (s : State) (x : Seat) : (s.setMe x).openOps = s.openOps := rfl
@[simp] theorem State.setMe_ended (s : State) (x : Seat) : (s.setMe x).ended = s.ended := rfl
@[simp] theorem State.setMe_dram (s : State) (x : Seat) : (s.setMe x).dram = s.dram := rfl
@[simp] theorem State.setMe_contexts (s : State) (x : Seat) : (s.setMe x).contexts = s.contexts := rfl
@[simp] theorem State.setMe_launches (s : State) (x : Seat) : (s.setMe x).launches = s.launches := rfl
@[simp] theorem State.setMe_rounds (s : State) (x : Seat) : (s.setMe x).rounds = s.rounds := rfl
@[simp] theorem State.setMe_tickets (s : State) (x : Seat) : (s.setMe x).tickets = s.tickets := rfl
@[simp] theorem State.setMe_vfs (s : State) (x : Seat) : (s.setMe x).vfs = s.vfs := rfl
@[simp] theorem State.setMe_runQueue (s : State) (x : Seat) : (s.setMe x).runQueue = s.runQueue := rfl
@[simp] theorem State.setMe_hallRing (s : State) (x : Seat) : (s.setMe x).hallRing = s.hallRing := rfl
@[simp] theorem State.setMe_saveJobs (s : State) (x : Seat) : (s.setMe x).saveJobs = s.saveJobs := rfl
@[simp] theorem State.setMe_walks (s : State) (x : Seat) : (s.setMe x).walks = s.walks := rfl
@[simp] theorem State.setMe_invs (s : State) (x : Seat) : (s.setMe x).invs = s.invs := rfl
@[simp] theorem State.setMe_dieTlbs (s : State) (x : Seat) : (s.setMe x).dieTlbs = s.dieTlbs := rfl
@[simp] theorem State.setMe_exports (s : State) (x : Seat) : (s.setMe x).exports = s.exports := rfl
@[simp] theorem State.setMe_streams (s : State) (x : Seat) : (s.setMe x).streams = s.streams := rfl
@[simp] theorem State.setMe_ports (s : State) (x : Seat) : (s.setMe x).ports = s.ports := rfl
@[simp] theorem State.setMe_pkgId (s : State) (x : Seat) : (s.setMe x).pkgId = s.pkgId := rfl
@[simp] theorem State.setMe_edgeOut (s : State) (x : Seat) : (s.setMe x).edgeOut = s.edgeOut := rfl
@[simp] theorem State.setMe_outgoing (s : State) (x : Seat) : (s.setMe x).outgoing = s.outgoing := rfl
@[simp] theorem State.setMe_incoming (s : State) (x : Seat) : (s.setMe x).incoming = s.incoming := rfl
@[simp] theorem State.setMe_replies (s : State) (x : Seat) : (s.setMe x).replies = s.replies := rfl
@[simp] theorem State.setMe_waits (s : State) (x : Seat) : (s.setMe x).waits = s.waits := rfl
@[simp] theorem State.setMe_sessions (s : State) (x : Seat) : (s.setMe x).sessions = s.sessions := rfl
@[simp] theorem State.setMe_lifecycle (s : State) (x : Seat) : (s.setMe x).lifecycle = s.lifecycle := rfl
@[simp] theorem State.setMe_guards (s : State) (x : Seat) : (s.setMe x).guards = s.guards := rfl
@[simp] theorem State.setMe_mirrors (s : State) (x : Seat) : (s.setMe x).mirrors = s.mirrors := rfl
@[simp] theorem State.setMe_parityDue (s : State) (x : Seat) : (s.setMe x).parityDue = s.parityDue := rfl
@[simp] theorem State.setMe_poisonLines (s : State) (x : Seat) : (s.setMe x).poisonLines = s.poisonLines := rfl
@[simp] theorem State.setMe_badLines (s : State) (x : Seat) : (s.setMe x).badLines = s.badLines := rfl
@[simp] theorem State.setMe_weakLines (s : State) (x : Seat) : (s.setMe x).weakLines = s.weakLines := rfl
@[simp] theorem State.setMe_errlogs (s : State) (x : Seat) : (s.setMe x).errlogs = s.errlogs := rfl
@[simp] theorem State.setMe_repair (s : State) (x : Seat) : (s.setMe x).repair = s.repair := rfl
@[simp] theorem State.setMe_retired (s : State) (x : Seat) : (s.setMe x).retired = s.retired := rfl
@[simp] theorem State.setMe_storeFaults (s : State) (x : Seat) : (s.setMe x).storeFaults = s.storeFaults := rfl
@[simp] theorem State.setMe_retireDue (s : State) (x : Seat) : (s.setMe x).retireDue = s.retireDue := rfl
@[simp] theorem State.setMe_powerCap (s : State) (x : Seat) : (s.setMe x).powerCap = s.powerCap := rfl
@[simp] theorem State.setMe_idle (s : State) (x : Seat) : (s.setMe x).idle = s.idle := rfl
@[simp] theorem State.setMe_requestAt (s : State) (x : Seat) : (s.setMe x).requestAt = s.requestAt := rfl
@[simp] theorem State.setHere_cycle (s : State) (k : Core) : (s.setHere k).cycle = s.cycle := rfl
@[simp] theorem State.setHere_curCore (s : State) (k : Core) : (s.setHere k).curCore = s.curCore := rfl
@[simp] theorem State.setHere_curSeat (s : State) (k : Core) : (s.setHere k).curSeat = s.curSeat := rfl
@[simp] theorem State.setHere_agenda (s : State) (k : Core) : (s.setHere k).agenda = s.agenda := rfl
@[simp] theorem State.setHere_fresh (s : State) (k : Core) : (s.setHere k).fresh = s.fresh := rfl
@[simp] theorem State.setHere_place (s : State) (k : Core) : (s.setHere k).place = s.place := rfl
@[simp] theorem State.setHere_flights (s : State) (k : Core) : (s.setHere k).flights = s.flights := rfl
@[simp] theorem State.setHere_openOps (s : State) (k : Core) : (s.setHere k).openOps = s.openOps := rfl
@[simp] theorem State.setHere_ended (s : State) (k : Core) : (s.setHere k).ended = s.ended := rfl
@[simp] theorem State.setHere_dram (s : State) (k : Core) : (s.setHere k).dram = s.dram := rfl
@[simp] theorem State.setHere_contexts (s : State) (k : Core) : (s.setHere k).contexts = s.contexts := rfl
@[simp] theorem State.setHere_launches (s : State) (k : Core) : (s.setHere k).launches = s.launches := rfl
@[simp] theorem State.setHere_rounds (s : State) (k : Core) : (s.setHere k).rounds = s.rounds := rfl
@[simp] theorem State.setHere_tickets (s : State) (k : Core) : (s.setHere k).tickets = s.tickets := rfl
@[simp] theorem State.setHere_vfs (s : State) (k : Core) : (s.setHere k).vfs = s.vfs := rfl
@[simp] theorem State.setHere_runQueue (s : State) (k : Core) : (s.setHere k).runQueue = s.runQueue := rfl
@[simp] theorem State.setHere_hallRing (s : State) (k : Core) : (s.setHere k).hallRing = s.hallRing := rfl
@[simp] theorem State.setHere_saveJobs (s : State) (k : Core) : (s.setHere k).saveJobs = s.saveJobs := rfl
@[simp] theorem State.setHere_walks (s : State) (k : Core) : (s.setHere k).walks = s.walks := rfl
@[simp] theorem State.setHere_invs (s : State) (k : Core) : (s.setHere k).invs = s.invs := rfl
@[simp] theorem State.setHere_dieTlbs (s : State) (k : Core) : (s.setHere k).dieTlbs = s.dieTlbs := rfl
@[simp] theorem State.setHere_exports (s : State) (k : Core) : (s.setHere k).exports = s.exports := rfl
@[simp] theorem State.setHere_streams (s : State) (k : Core) : (s.setHere k).streams = s.streams := rfl
@[simp] theorem State.setHere_ports (s : State) (k : Core) : (s.setHere k).ports = s.ports := rfl
@[simp] theorem State.setHere_pkgId (s : State) (k : Core) : (s.setHere k).pkgId = s.pkgId := rfl
@[simp] theorem State.setHere_edgeOut (s : State) (k : Core) : (s.setHere k).edgeOut = s.edgeOut := rfl
@[simp] theorem State.setHere_outgoing (s : State) (k : Core) : (s.setHere k).outgoing = s.outgoing := rfl
@[simp] theorem State.setHere_incoming (s : State) (k : Core) : (s.setHere k).incoming = s.incoming := rfl
@[simp] theorem State.setHere_replies (s : State) (k : Core) : (s.setHere k).replies = s.replies := rfl
@[simp] theorem State.setHere_waits (s : State) (k : Core) : (s.setHere k).waits = s.waits := rfl
@[simp] theorem State.setHere_sessions (s : State) (k : Core) : (s.setHere k).sessions = s.sessions := rfl
@[simp] theorem State.setHere_lifecycle (s : State) (k : Core) : (s.setHere k).lifecycle = s.lifecycle := rfl
@[simp] theorem State.setHere_guards (s : State) (k : Core) : (s.setHere k).guards = s.guards := rfl
@[simp] theorem State.setHere_mirrors (s : State) (k : Core) : (s.setHere k).mirrors = s.mirrors := rfl
@[simp] theorem State.setHere_parityDue (s : State) (k : Core) : (s.setHere k).parityDue = s.parityDue := rfl
@[simp] theorem State.setHere_poisonLines (s : State) (k : Core) : (s.setHere k).poisonLines = s.poisonLines := rfl
@[simp] theorem State.setHere_badLines (s : State) (k : Core) : (s.setHere k).badLines = s.badLines := rfl
@[simp] theorem State.setHere_weakLines (s : State) (k : Core) : (s.setHere k).weakLines = s.weakLines := rfl
@[simp] theorem State.setHere_errlogs (s : State) (k : Core) : (s.setHere k).errlogs = s.errlogs := rfl
@[simp] theorem State.setHere_repair (s : State) (k : Core) : (s.setHere k).repair = s.repair := rfl
@[simp] theorem State.setHere_retired (s : State) (k : Core) : (s.setHere k).retired = s.retired := rfl
@[simp] theorem State.setHere_storeFaults (s : State) (k : Core) : (s.setHere k).storeFaults = s.storeFaults := rfl
@[simp] theorem State.setHere_retireDue (s : State) (k : Core) : (s.setHere k).retireDue = s.retireDue := rfl
@[simp] theorem State.setHere_powerCap (s : State) (k : Core) : (s.setHere k).powerCap = s.powerCap := rfl
@[simp] theorem State.setHere_idle (s : State) (k : Core) : (s.setHere k).idle = s.idle := rfl
@[simp] theorem State.setHere_requestAt (s : State) (k : Core) : (s.setHere k).requestAt = s.requestAt := rfl
@[simp] theorem State.tick_cycle (s : State) : (s.tick).cycle = s.cycle := rfl
@[simp] theorem State.tick_curCore (s : State) : (s.tick).curCore = s.curCore := rfl
@[simp] theorem State.tick_curSeat (s : State) : (s.tick).curSeat = s.curSeat := rfl
@[simp] theorem State.tick_agenda (s : State) : (s.tick).agenda = s.agenda := rfl
@[simp] theorem State.tick_place (s : State) : (s.tick).place = s.place := rfl
@[simp] theorem State.tick_cores (s : State) : (s.tick).cores = s.cores := rfl
@[simp] theorem State.tick_flights (s : State) : (s.tick).flights = s.flights := rfl
@[simp] theorem State.tick_openOps (s : State) : (s.tick).openOps = s.openOps := rfl
@[simp] theorem State.tick_ended (s : State) : (s.tick).ended = s.ended := rfl
@[simp] theorem State.tick_dram (s : State) : (s.tick).dram = s.dram := rfl
@[simp] theorem State.tick_contexts (s : State) : (s.tick).contexts = s.contexts := rfl
@[simp] theorem State.tick_launches (s : State) : (s.tick).launches = s.launches := rfl
@[simp] theorem State.tick_rounds (s : State) : (s.tick).rounds = s.rounds := rfl
@[simp] theorem State.tick_tickets (s : State) : (s.tick).tickets = s.tickets := rfl
@[simp] theorem State.tick_vfs (s : State) : (s.tick).vfs = s.vfs := rfl
@[simp] theorem State.tick_runQueue (s : State) : (s.tick).runQueue = s.runQueue := rfl
@[simp] theorem State.tick_hallRing (s : State) : (s.tick).hallRing = s.hallRing := rfl
@[simp] theorem State.tick_saveJobs (s : State) : (s.tick).saveJobs = s.saveJobs := rfl
@[simp] theorem State.tick_walks (s : State) : (s.tick).walks = s.walks := rfl
@[simp] theorem State.tick_invs (s : State) : (s.tick).invs = s.invs := rfl
@[simp] theorem State.tick_dieTlbs (s : State) : (s.tick).dieTlbs = s.dieTlbs := rfl
@[simp] theorem State.tick_exports (s : State) : (s.tick).exports = s.exports := rfl
@[simp] theorem State.tick_streams (s : State) : (s.tick).streams = s.streams := rfl
@[simp] theorem State.tick_ports (s : State) : (s.tick).ports = s.ports := rfl
@[simp] theorem State.tick_pkgId (s : State) : (s.tick).pkgId = s.pkgId := rfl
@[simp] theorem State.tick_edgeOut (s : State) : (s.tick).edgeOut = s.edgeOut := rfl
@[simp] theorem State.tick_outgoing (s : State) : (s.tick).outgoing = s.outgoing := rfl
@[simp] theorem State.tick_incoming (s : State) : (s.tick).incoming = s.incoming := rfl
@[simp] theorem State.tick_replies (s : State) : (s.tick).replies = s.replies := rfl
@[simp] theorem State.tick_waits (s : State) : (s.tick).waits = s.waits := rfl
@[simp] theorem State.tick_sessions (s : State) : (s.tick).sessions = s.sessions := rfl
@[simp] theorem State.tick_lifecycle (s : State) : (s.tick).lifecycle = s.lifecycle := rfl
@[simp] theorem State.tick_guards (s : State) : (s.tick).guards = s.guards := rfl
@[simp] theorem State.tick_mirrors (s : State) : (s.tick).mirrors = s.mirrors := rfl
@[simp] theorem State.tick_parityDue (s : State) : (s.tick).parityDue = s.parityDue := rfl
@[simp] theorem State.tick_poisonLines (s : State) : (s.tick).poisonLines = s.poisonLines := rfl
@[simp] theorem State.tick_badLines (s : State) : (s.tick).badLines = s.badLines := rfl
@[simp] theorem State.tick_weakLines (s : State) : (s.tick).weakLines = s.weakLines := rfl
@[simp] theorem State.tick_errlogs (s : State) : (s.tick).errlogs = s.errlogs := rfl
@[simp] theorem State.tick_repair (s : State) : (s.tick).repair = s.repair := rfl
@[simp] theorem State.tick_retired (s : State) : (s.tick).retired = s.retired := rfl
@[simp] theorem State.tick_storeFaults (s : State) : (s.tick).storeFaults = s.storeFaults := rfl
@[simp] theorem State.tick_retireDue (s : State) : (s.tick).retireDue = s.retireDue := rfl
@[simp] theorem State.tick_powerCap (s : State) : (s.tick).powerCap = s.powerCap := rfl
@[simp] theorem State.tick_idle (s : State) : (s.tick).idle = s.idle := rfl
@[simp] theorem State.tick_requestAt (s : State) : (s.tick).requestAt = s.requestAt := rfl
@[simp] theorem State.dropFlight_cycle (s : State) (f : Nat) : (s.dropFlight f).cycle = s.cycle := rfl
@[simp] theorem State.dropFlight_curCore (s : State) (f : Nat) : (s.dropFlight f).curCore = s.curCore := rfl
@[simp] theorem State.dropFlight_curSeat (s : State) (f : Nat) : (s.dropFlight f).curSeat = s.curSeat := rfl
@[simp] theorem State.dropFlight_agenda (s : State) (f : Nat) : (s.dropFlight f).agenda = s.agenda := rfl
@[simp] theorem State.dropFlight_fresh (s : State) (f : Nat) : (s.dropFlight f).fresh = s.fresh := rfl
@[simp] theorem State.dropFlight_place (s : State) (f : Nat) : (s.dropFlight f).place = s.place := rfl
@[simp] theorem State.dropFlight_cores (s : State) (f : Nat) : (s.dropFlight f).cores = s.cores := rfl
@[simp] theorem State.dropFlight_openOps (s : State) (f : Nat) : (s.dropFlight f).openOps = s.openOps := rfl
@[simp] theorem State.dropFlight_ended (s : State) (f : Nat) : (s.dropFlight f).ended = s.ended := rfl
@[simp] theorem State.dropFlight_dram (s : State) (f : Nat) : (s.dropFlight f).dram = s.dram := rfl
@[simp] theorem State.dropFlight_contexts (s : State) (f : Nat) : (s.dropFlight f).contexts = s.contexts := rfl
@[simp] theorem State.dropFlight_launches (s : State) (f : Nat) : (s.dropFlight f).launches = s.launches := rfl
@[simp] theorem State.dropFlight_rounds (s : State) (f : Nat) : (s.dropFlight f).rounds = s.rounds := rfl
@[simp] theorem State.dropFlight_tickets (s : State) (f : Nat) : (s.dropFlight f).tickets = s.tickets := rfl
@[simp] theorem State.dropFlight_vfs (s : State) (f : Nat) : (s.dropFlight f).vfs = s.vfs := rfl
@[simp] theorem State.dropFlight_runQueue (s : State) (f : Nat) : (s.dropFlight f).runQueue = s.runQueue := rfl
@[simp] theorem State.dropFlight_hallRing (s : State) (f : Nat) : (s.dropFlight f).hallRing = s.hallRing := rfl
@[simp] theorem State.dropFlight_saveJobs (s : State) (f : Nat) : (s.dropFlight f).saveJobs = s.saveJobs := rfl
@[simp] theorem State.dropFlight_walks (s : State) (f : Nat) : (s.dropFlight f).walks = s.walks := rfl
@[simp] theorem State.dropFlight_invs (s : State) (f : Nat) : (s.dropFlight f).invs = s.invs := rfl
@[simp] theorem State.dropFlight_dieTlbs (s : State) (f : Nat) : (s.dropFlight f).dieTlbs = s.dieTlbs := rfl
@[simp] theorem State.dropFlight_exports (s : State) (f : Nat) : (s.dropFlight f).exports = s.exports := rfl
@[simp] theorem State.dropFlight_streams (s : State) (f : Nat) : (s.dropFlight f).streams = s.streams := rfl
@[simp] theorem State.dropFlight_ports (s : State) (f : Nat) : (s.dropFlight f).ports = s.ports := rfl
@[simp] theorem State.dropFlight_pkgId (s : State) (f : Nat) : (s.dropFlight f).pkgId = s.pkgId := rfl
@[simp] theorem State.dropFlight_edgeOut (s : State) (f : Nat) : (s.dropFlight f).edgeOut = s.edgeOut := rfl
@[simp] theorem State.dropFlight_outgoing (s : State) (f : Nat) : (s.dropFlight f).outgoing = s.outgoing := rfl
@[simp] theorem State.dropFlight_incoming (s : State) (f : Nat) : (s.dropFlight f).incoming = s.incoming := rfl
@[simp] theorem State.dropFlight_replies (s : State) (f : Nat) : (s.dropFlight f).replies = s.replies := rfl
@[simp] theorem State.dropFlight_waits (s : State) (f : Nat) : (s.dropFlight f).waits = s.waits := rfl
@[simp] theorem State.dropFlight_sessions (s : State) (f : Nat) : (s.dropFlight f).sessions = s.sessions := rfl
@[simp] theorem State.dropFlight_lifecycle (s : State) (f : Nat) : (s.dropFlight f).lifecycle = s.lifecycle := rfl
@[simp] theorem State.dropFlight_guards (s : State) (f : Nat) : (s.dropFlight f).guards = s.guards := rfl
@[simp] theorem State.dropFlight_mirrors (s : State) (f : Nat) : (s.dropFlight f).mirrors = s.mirrors := rfl
@[simp] theorem State.dropFlight_parityDue (s : State) (f : Nat) : (s.dropFlight f).parityDue = s.parityDue := rfl
@[simp] theorem State.dropFlight_poisonLines (s : State) (f : Nat) : (s.dropFlight f).poisonLines = s.poisonLines := rfl
@[simp] theorem State.dropFlight_badLines (s : State) (f : Nat) : (s.dropFlight f).badLines = s.badLines := rfl
@[simp] theorem State.dropFlight_weakLines (s : State) (f : Nat) : (s.dropFlight f).weakLines = s.weakLines := rfl
@[simp] theorem State.dropFlight_errlogs (s : State) (f : Nat) : (s.dropFlight f).errlogs = s.errlogs := rfl
@[simp] theorem State.dropFlight_repair (s : State) (f : Nat) : (s.dropFlight f).repair = s.repair := rfl
@[simp] theorem State.dropFlight_retired (s : State) (f : Nat) : (s.dropFlight f).retired = s.retired := rfl
@[simp] theorem State.dropFlight_storeFaults (s : State) (f : Nat) : (s.dropFlight f).storeFaults = s.storeFaults := rfl
@[simp] theorem State.dropFlight_retireDue (s : State) (f : Nat) : (s.dropFlight f).retireDue = s.retireDue := rfl
@[simp] theorem State.dropFlight_powerCap (s : State) (f : Nat) : (s.dropFlight f).powerCap = s.powerCap := rfl
@[simp] theorem State.dropFlight_idle (s : State) (f : Nat) : (s.dropFlight f).idle = s.idle := rfl
@[simp] theorem State.dropFlight_requestAt (s : State) (f : Nat) : (s.dropFlight f).requestAt = s.requestAt := rfl
@[simp] theorem State.send_cycle (s : State) (delay : Nat) (src dst : CoreId) (lid cid seat tag : Nat) (ia cpc : BitVec 48) (b : Body) : (s.send delay src dst lid cid seat tag ia cpc b).cycle = s.cycle := rfl
@[simp] theorem State.send_curCore (s : State) (delay : Nat) (src dst : CoreId) (lid cid seat tag : Nat) (ia cpc : BitVec 48) (b : Body) : (s.send delay src dst lid cid seat tag ia cpc b).curCore = s.curCore := rfl
@[simp] theorem State.send_curSeat (s : State) (delay : Nat) (src dst : CoreId) (lid cid seat tag : Nat) (ia cpc : BitVec 48) (b : Body) : (s.send delay src dst lid cid seat tag ia cpc b).curSeat = s.curSeat := rfl
@[simp] theorem State.send_agenda (s : State) (delay : Nat) (src dst : CoreId) (lid cid seat tag : Nat) (ia cpc : BitVec 48) (b : Body) : (s.send delay src dst lid cid seat tag ia cpc b).agenda = s.agenda := rfl
@[simp] theorem State.send_place (s : State) (delay : Nat) (src dst : CoreId) (lid cid seat tag : Nat) (ia cpc : BitVec 48) (b : Body) : (s.send delay src dst lid cid seat tag ia cpc b).place = s.place := rfl
@[simp] theorem State.send_cores (s : State) (delay : Nat) (src dst : CoreId) (lid cid seat tag : Nat) (ia cpc : BitVec 48) (b : Body) : (s.send delay src dst lid cid seat tag ia cpc b).cores = s.cores := rfl
@[simp] theorem State.send_openOps (s : State) (delay : Nat) (src dst : CoreId) (lid cid seat tag : Nat) (ia cpc : BitVec 48) (b : Body) : (s.send delay src dst lid cid seat tag ia cpc b).openOps = s.openOps := rfl
@[simp] theorem State.send_ended (s : State) (delay : Nat) (src dst : CoreId) (lid cid seat tag : Nat) (ia cpc : BitVec 48) (b : Body) : (s.send delay src dst lid cid seat tag ia cpc b).ended = s.ended := rfl
@[simp] theorem State.send_dram (s : State) (delay : Nat) (src dst : CoreId) (lid cid seat tag : Nat) (ia cpc : BitVec 48) (b : Body) : (s.send delay src dst lid cid seat tag ia cpc b).dram = s.dram := rfl
@[simp] theorem State.send_contexts (s : State) (delay : Nat) (src dst : CoreId) (lid cid seat tag : Nat) (ia cpc : BitVec 48) (b : Body) : (s.send delay src dst lid cid seat tag ia cpc b).contexts = s.contexts := rfl
@[simp] theorem State.send_launches (s : State) (delay : Nat) (src dst : CoreId) (lid cid seat tag : Nat) (ia cpc : BitVec 48) (b : Body) : (s.send delay src dst lid cid seat tag ia cpc b).launches = s.launches := rfl
@[simp] theorem State.send_rounds (s : State) (delay : Nat) (src dst : CoreId) (lid cid seat tag : Nat) (ia cpc : BitVec 48) (b : Body) : (s.send delay src dst lid cid seat tag ia cpc b).rounds = s.rounds := rfl
@[simp] theorem State.send_tickets (s : State) (delay : Nat) (src dst : CoreId) (lid cid seat tag : Nat) (ia cpc : BitVec 48) (b : Body) : (s.send delay src dst lid cid seat tag ia cpc b).tickets = s.tickets := rfl
@[simp] theorem State.send_vfs (s : State) (delay : Nat) (src dst : CoreId) (lid cid seat tag : Nat) (ia cpc : BitVec 48) (b : Body) : (s.send delay src dst lid cid seat tag ia cpc b).vfs = s.vfs := rfl
@[simp] theorem State.send_runQueue (s : State) (delay : Nat) (src dst : CoreId) (lid cid seat tag : Nat) (ia cpc : BitVec 48) (b : Body) : (s.send delay src dst lid cid seat tag ia cpc b).runQueue = s.runQueue := rfl
@[simp] theorem State.send_hallRing (s : State) (delay : Nat) (src dst : CoreId) (lid cid seat tag : Nat) (ia cpc : BitVec 48) (b : Body) : (s.send delay src dst lid cid seat tag ia cpc b).hallRing = s.hallRing := rfl
@[simp] theorem State.send_saveJobs (s : State) (delay : Nat) (src dst : CoreId) (lid cid seat tag : Nat) (ia cpc : BitVec 48) (b : Body) : (s.send delay src dst lid cid seat tag ia cpc b).saveJobs = s.saveJobs := rfl
@[simp] theorem State.send_walks (s : State) (delay : Nat) (src dst : CoreId) (lid cid seat tag : Nat) (ia cpc : BitVec 48) (b : Body) : (s.send delay src dst lid cid seat tag ia cpc b).walks = s.walks := rfl
@[simp] theorem State.send_invs (s : State) (delay : Nat) (src dst : CoreId) (lid cid seat tag : Nat) (ia cpc : BitVec 48) (b : Body) : (s.send delay src dst lid cid seat tag ia cpc b).invs = s.invs := rfl
@[simp] theorem State.send_dieTlbs (s : State) (delay : Nat) (src dst : CoreId) (lid cid seat tag : Nat) (ia cpc : BitVec 48) (b : Body) : (s.send delay src dst lid cid seat tag ia cpc b).dieTlbs = s.dieTlbs := rfl
@[simp] theorem State.send_exports (s : State) (delay : Nat) (src dst : CoreId) (lid cid seat tag : Nat) (ia cpc : BitVec 48) (b : Body) : (s.send delay src dst lid cid seat tag ia cpc b).exports = s.exports := rfl
@[simp] theorem State.send_streams (s : State) (delay : Nat) (src dst : CoreId) (lid cid seat tag : Nat) (ia cpc : BitVec 48) (b : Body) : (s.send delay src dst lid cid seat tag ia cpc b).streams = s.streams := rfl
@[simp] theorem State.send_ports (s : State) (delay : Nat) (src dst : CoreId) (lid cid seat tag : Nat) (ia cpc : BitVec 48) (b : Body) : (s.send delay src dst lid cid seat tag ia cpc b).ports = s.ports := rfl
@[simp] theorem State.send_pkgId (s : State) (delay : Nat) (src dst : CoreId) (lid cid seat tag : Nat) (ia cpc : BitVec 48) (b : Body) : (s.send delay src dst lid cid seat tag ia cpc b).pkgId = s.pkgId := rfl
@[simp] theorem State.send_edgeOut (s : State) (delay : Nat) (src dst : CoreId) (lid cid seat tag : Nat) (ia cpc : BitVec 48) (b : Body) : (s.send delay src dst lid cid seat tag ia cpc b).edgeOut = s.edgeOut := rfl
@[simp] theorem State.send_outgoing (s : State) (delay : Nat) (src dst : CoreId) (lid cid seat tag : Nat) (ia cpc : BitVec 48) (b : Body) : (s.send delay src dst lid cid seat tag ia cpc b).outgoing = s.outgoing := rfl
@[simp] theorem State.send_incoming (s : State) (delay : Nat) (src dst : CoreId) (lid cid seat tag : Nat) (ia cpc : BitVec 48) (b : Body) : (s.send delay src dst lid cid seat tag ia cpc b).incoming = s.incoming := rfl
@[simp] theorem State.send_replies (s : State) (delay : Nat) (src dst : CoreId) (lid cid seat tag : Nat) (ia cpc : BitVec 48) (b : Body) : (s.send delay src dst lid cid seat tag ia cpc b).replies = s.replies := rfl
@[simp] theorem State.send_waits (s : State) (delay : Nat) (src dst : CoreId) (lid cid seat tag : Nat) (ia cpc : BitVec 48) (b : Body) : (s.send delay src dst lid cid seat tag ia cpc b).waits = s.waits := rfl
@[simp] theorem State.send_sessions (s : State) (delay : Nat) (src dst : CoreId) (lid cid seat tag : Nat) (ia cpc : BitVec 48) (b : Body) : (s.send delay src dst lid cid seat tag ia cpc b).sessions = s.sessions := rfl
@[simp] theorem State.send_lifecycle (s : State) (delay : Nat) (src dst : CoreId) (lid cid seat tag : Nat) (ia cpc : BitVec 48) (b : Body) : (s.send delay src dst lid cid seat tag ia cpc b).lifecycle = s.lifecycle := rfl
@[simp] theorem State.send_guards (s : State) (delay : Nat) (src dst : CoreId) (lid cid seat tag : Nat) (ia cpc : BitVec 48) (b : Body) : (s.send delay src dst lid cid seat tag ia cpc b).guards = s.guards := rfl
@[simp] theorem State.send_mirrors (s : State) (delay : Nat) (src dst : CoreId) (lid cid seat tag : Nat) (ia cpc : BitVec 48) (b : Body) : (s.send delay src dst lid cid seat tag ia cpc b).mirrors = s.mirrors := rfl
@[simp] theorem State.send_parityDue (s : State) (delay : Nat) (src dst : CoreId) (lid cid seat tag : Nat) (ia cpc : BitVec 48) (b : Body) : (s.send delay src dst lid cid seat tag ia cpc b).parityDue = s.parityDue := rfl
@[simp] theorem State.send_poisonLines (s : State) (delay : Nat) (src dst : CoreId) (lid cid seat tag : Nat) (ia cpc : BitVec 48) (b : Body) : (s.send delay src dst lid cid seat tag ia cpc b).poisonLines = s.poisonLines := rfl
@[simp] theorem State.send_badLines (s : State) (delay : Nat) (src dst : CoreId) (lid cid seat tag : Nat) (ia cpc : BitVec 48) (b : Body) : (s.send delay src dst lid cid seat tag ia cpc b).badLines = s.badLines := rfl
@[simp] theorem State.send_weakLines (s : State) (delay : Nat) (src dst : CoreId) (lid cid seat tag : Nat) (ia cpc : BitVec 48) (b : Body) : (s.send delay src dst lid cid seat tag ia cpc b).weakLines = s.weakLines := rfl
@[simp] theorem State.send_errlogs (s : State) (delay : Nat) (src dst : CoreId) (lid cid seat tag : Nat) (ia cpc : BitVec 48) (b : Body) : (s.send delay src dst lid cid seat tag ia cpc b).errlogs = s.errlogs := rfl
@[simp] theorem State.send_repair (s : State) (delay : Nat) (src dst : CoreId) (lid cid seat tag : Nat) (ia cpc : BitVec 48) (b : Body) : (s.send delay src dst lid cid seat tag ia cpc b).repair = s.repair := rfl
@[simp] theorem State.send_retired (s : State) (delay : Nat) (src dst : CoreId) (lid cid seat tag : Nat) (ia cpc : BitVec 48) (b : Body) : (s.send delay src dst lid cid seat tag ia cpc b).retired = s.retired := rfl
@[simp] theorem State.send_storeFaults (s : State) (delay : Nat) (src dst : CoreId) (lid cid seat tag : Nat) (ia cpc : BitVec 48) (b : Body) : (s.send delay src dst lid cid seat tag ia cpc b).storeFaults = s.storeFaults := rfl
@[simp] theorem State.send_retireDue (s : State) (delay : Nat) (src dst : CoreId) (lid cid seat tag : Nat) (ia cpc : BitVec 48) (b : Body) : (s.send delay src dst lid cid seat tag ia cpc b).retireDue = s.retireDue := rfl
@[simp] theorem State.send_powerCap (s : State) (delay : Nat) (src dst : CoreId) (lid cid seat tag : Nat) (ia cpc : BitVec 48) (b : Body) : (s.send delay src dst lid cid seat tag ia cpc b).powerCap = s.powerCap := rfl
@[simp] theorem State.send_idle (s : State) (delay : Nat) (src dst : CoreId) (lid cid seat tag : Nat) (ia cpc : BitVec 48) (b : Body) : (s.send delay src dst lid cid seat tag ia cpc b).idle = s.idle := rfl
@[simp] theorem State.send_requestAt (s : State) (delay : Nat) (src dst : CoreId) (lid cid seat tag : Nat) (ia cpc : BitVec 48) (b : Body) : (s.send delay src dst lid cid seat tag ia cpc b).requestAt = s.requestAt := rfl

theorem State.tick_fresh (s : State) : s.tick.fresh = s.fresh + 1 := rfl

theorem State.send_fresh (s : State) (delay : Nat) (src dst : CoreId) (lid cid seat tag : Nat) (ia cpc : BitVec 48) (b : Body) :
    (s.send delay src dst lid cid seat tag ia cpc b).fresh = s.fresh + 1 := rfl

/-! ### Cores -/

@[simp] theorem lookupCore_storeCore (l : List (CoreId × Core)) (c : CoreId) (k : Core) :
    lookupCore (storeCore l c k) c = k := by
  induction l with
  | nil => simp [storeCore, lookupCore]
  | cons p r ih => by_cases h : p.1 = c <;> simp [storeCore, lookupCore, h, ih]

theorem lookupCore_storeCore_ne (l : List (CoreId × Core)) (c d : CoreId) (k : Core) (h : c ≠ d) :
    lookupCore (storeCore l c k) d = lookupCore l d := by
  induction l with
  | nil => simp [storeCore, lookupCore, h]
  | cons p r ih =>
    by_cases g : p.1 = c
    · simp [storeCore, lookupCore, g, h]
    · simp [storeCore, lookupCore, g, ih]

@[simp] theorem storeCore_storeCore (l : List (CoreId × Core)) (c : CoreId) (k j : Core) :
    storeCore (storeCore l c k) c j = storeCore l c j := by
  induction l with
  | nil => simp [storeCore]
  | cons p r ih => by_cases h : p.1 = c <;> simp [storeCore, h, ih]

@[simp] theorem State.core_setCore (s : State) (c : CoreId) (k : Core) : (s.setCore c k).core c = k := by
  simp [State.core, State.setCore]

theorem State.core_setCore_ne (s : State) (c d : CoreId) (k : Core) (h : c ≠ d) :
    (s.setCore c k).core d = s.core d := by
  simp [State.core, State.setCore, lookupCore_storeCore_ne _ _ _ _ h]

@[simp] theorem State.setCore_setCore (s : State) (c : CoreId) (k j : Core) :
    (s.setCore c k).setCore c j = s.setCore c j := by
  simp [State.setCore]

@[simp] theorem State.here_setHere (s : State) (k : Core) : (s.setHere k).here = k := by
  simp [State.here, State.setHere]

@[simp] theorem State.core_tick (s : State) (c : CoreId) : s.tick.core c = s.core c := rfl

@[simp] theorem State.core_dropFlight (s : State) (f : Nat) (c : CoreId) : (s.dropFlight f).core c = s.core c := rfl

@[simp] theorem State.core_send (s : State) (delay : Nat) (src dst : CoreId) (lid cid seat tag : Nat) (ia cpc : BitVec 48)
    (b : Body) (c : CoreId) : (s.send delay src dst lid cid seat tag ia cpc b).core c = s.core c := rfl

/-! ### Seats -/

@[simp] theorem Core.seat_setSeat (k : Core) (n : Nat) (x : Seat) : (k.setSeat n x).seat n = x := by
  rcases n with _ | _ | _ | n <;> rfl

@[simp] theorem Core.setSeat_setSeat (k : Core) (n : Nat) (x y : Seat) : (k.setSeat n x).setSeat n y = k.setSeat n y := by
  rcases n with _ | _ | _ | n <;> rfl

theorem Core.seat_setSeat_ne (k : Core) (n m : Nat) (x : Seat) (hn : n < 4) (hm : m < 4) (h : n ≠ m) :
    (k.setSeat n x).seat m = k.seat m := by
  rcases n with _ | _ | _ | _ | n <;> rcases m with _ | _ | _ | _ | m <;> first | rfl | omega

@[simp] theorem Core.setSeat_store (k : Core) (n : Nat) (x : Seat) : (k.setSeat n x).store = k.store := by
  rcases n with _ | _ | _ | n <;> rfl

@[simp] theorem Core.setSeat_full (k : Core) (n : Nat) (x : Seat) : (k.setSeat n x).full = k.full := by
  rcases n with _ | _ | _ | n <;> rfl

@[simp] theorem Core.setSeat_reserved (k : Core) (n : Nat) (x : Seat) : (k.setSeat n x).reserved = k.reserved := by
  rcases n with _ | _ | _ | n <;> rfl

@[simp] theorem Core.setSeat_poison (k : Core) (n : Nat) (x : Seat) : (k.setSeat n x).poison = k.poison := by
  rcases n with _ | _ | _ | n <;> rfl

@[simp] theorem Core.setSeat_counters (k : Core) (n : Nat) (x : Seat) : (k.setSeat n x).counters = k.counters := by
  rcases n with _ | _ | _ | n <;> rfl

@[simp] theorem Core.setSeat_waiters (k : Core) (n : Nat) (x : Seat) : (k.setSeat n x).waiters = k.waiters := by
  rcases n with _ | _ | _ | n <;> rfl

@[simp] theorem Core.setSeat_windows (k : Core) (n : Nat) (x : Seat) : (k.setSeat n x).windows = k.windows := by
  rcases n with _ | _ | _ | n <;> rfl

@[simp] theorem Core.setSeat_triggers (k : Core) (n : Nat) (x : Seat) : (k.setSeat n x).triggers = k.triggers := by
  rcases n with _ | _ | _ | n <;> rfl

@[simp] theorem Core.setSeat_hallArms (k : Core) (n : Nat) (x : Seat) : (k.setSeat n x).hallArms = k.hallArms := by
  rcases n with _ | _ | _ | n <;> rfl

@[simp] theorem Core.setSeat_rings (k : Core) (n : Nat) (x : Seat) : (k.setSeat n x).rings = k.rings := by
  rcases n with _ | _ | _ | n <;> rfl

@[simp] theorem Core.setSeat_matrix (k : Core) (n : Nat) (x : Seat) : (k.setSeat n x).matrix = k.matrix := by
  rcases n with _ | _ | _ | n <;> rfl

@[simp] theorem Core.setSeat_mstep (k : Core) (n : Nat) (x : Seat) : (k.setSeat n x).mstep = k.mstep := by
  rcases n with _ | _ | _ | n <;> rfl

@[simp] theorem Core.setSeat_tileHolds (k : Core) (n : Nat) (x : Seat) : (k.setSeat n x).tileHolds = k.tileHolds := by
  rcases n with _ | _ | _ | n <;> rfl

@[simp] theorem Core.setSeat_popOrder (k : Core) (n : Nat) (x : Seat) : (k.setSeat n x).popOrder = k.popOrder := by
  rcases n with _ | _ | _ | n <;> rfl

@[simp] theorem Core.setSeat_subs (k : Core) (n : Nat) (x : Seat) : (k.setSeat n x).subs = k.subs := by
  rcases n with _ | _ | _ | n <;> rfl

@[simp] theorem Core.setSeat_bq (k : Core) (n : Nat) (x : Seat) : (k.setSeat n x).bq = k.bq := by
  rcases n with _ | _ | _ | n <;> rfl

@[simp] theorem Core.setSeat_msgq (k : Core) (n : Nat) (x : Seat) : (k.setSeat n x).msgq = k.msgq := by
  rcases n with _ | _ | _ | n <;> rfl

@[simp] theorem Core.setSeat_mailbox (k : Core) (n : Nat) (x : Seat) : (k.setSeat n x).mailbox = k.mailbox := by
  rcases n with _ | _ | _ | n <;> rfl

@[simp] theorem Core.setSeat_ready (k : Core) (n : Nat) (x : Seat) : (k.setSeat n x).ready = k.ready := by
  rcases n with _ | _ | _ | n <;> rfl

@[simp] theorem Core.setSeat_work (k : Core) (n : Nat) (x : Seat) : (k.setSeat n x).work = k.work := by
  rcases n with _ | _ | _ | n <;> rfl

@[simp] theorem Core.setSeat_tookMsg (k : Core) (n : Nat) (x : Seat) : (k.setSeat n x).tookMsg = k.tookMsg := by
  rcases n with _ | _ | _ | n <;> rfl

@[simp] theorem Core.setSeat_served (k : Core) (n : Nat) (x : Seat) : (k.setSeat n x).served = k.served := by
  rcases n with _ | _ | _ | n <;> rfl

@[simp] theorem Core.setSeat_pulling (k : Core) (n : Nat) (x : Seat) : (k.setSeat n x).pulling = k.pulling := by
  rcases n with _ | _ | _ | n <;> rfl

@[simp] theorem Core.setSeat_priority (k : Core) (n : Nat) (x : Seat) : (k.setSeat n x).priority = k.priority := by
  rcases n with _ | _ | _ | n <;> rfl

@[simp] theorem Core.setSeat_priorityQueue (k : Core) (n : Nat) (x : Seat) : (k.setSeat n x).priorityQueue = k.priorityQueue := by
  rcases n with _ | _ | _ | n <;> rfl

@[simp] theorem Core.setSeat_rafters (k : Core) (n : Nat) (x : Seat) : (k.setSeat n x).rafters = k.rafters := by
  rcases n with _ | _ | _ | n <;> rfl

@[simp] theorem Core.setSeat_table (k : Core) (n : Nat) (x : Seat) : (k.setSeat n x).table = k.table := by
  rcases n with _ | _ | _ | n <;> rfl

@[simp] theorem Core.setSeat_cbValid (k : Core) (n : Nat) (x : Seat) : (k.setSeat n x).cbValid = k.cbValid := by
  rcases n with _ | _ | _ | n <;> rfl

@[simp] theorem Core.setSeat_cbLoads (k : Core) (n : Nat) (x : Seat) : (k.setSeat n x).cbLoads = k.cbLoads := by
  rcases n with _ | _ | _ | n <;> rfl

@[simp] theorem Core.setSeat_cbPending (k : Core) (n : Nat) (x : Seat) : (k.setSeat n x).cbPending = k.cbPending := by
  rcases n with _ | _ | _ | n <;> rfl

@[simp] theorem Core.setSeat_groups (k : Core) (n : Nat) (x : Seat) : (k.setSeat n x).groups = k.groups := by
  rcases n with _ | _ | _ | n <;> rfl

@[simp] theorem Core.setSeat_meets (k : Core) (n : Nat) (x : Seat) : (k.setSeat n x).meets = k.meets := by
  rcases n with _ | _ | _ | n <;> rfl

@[simp] theorem Core.setSeat_iface (k : Core) (n : Nat) (x : Seat) : (k.setSeat n x).iface = k.iface := by
  rcases n with _ | _ | _ | n <;> rfl

@[simp] theorem Core.setSeat_experts (k : Core) (n : Nat) (x : Seat) : (k.setSeat n x).experts = k.experts := by
  rcases n with _ | _ | _ | n <;> rfl

@[simp] theorem Core.setSeat_routes (k : Core) (n : Nat) (x : Seat) : (k.setSeat n x).routes = k.routes := by
  rcases n with _ | _ | _ | n <;> rfl

@[simp] theorem Core.setSeat_msgCounts (k : Core) (n : Nat) (x : Seat) : (k.setSeat n x).msgCounts = k.msgCounts := by
  rcases n with _ | _ | _ | n <;> rfl

@[simp] theorem Core.setSeat_spawnCounts (k : Core) (n : Nat) (x : Seat) : (k.setSeat n x).spawnCounts = k.spawnCounts := by
  rcases n with _ | _ | _ | n <;> rfl

@[simp] theorem Core.setSeat_lines (k : Core) (n : Nat) (x : Seat) : (k.setSeat n x).lines = k.lines := by
  rcases n with _ | _ | _ | n <;> rfl

@[simp] theorem Core.setSeat_lineWaits (k : Core) (n : Nat) (x : Seat) : (k.setSeat n x).lineWaits = k.lineWaits := by
  rcases n with _ | _ | _ | n <;> rfl

@[simp] theorem Core.setSeat_tlb (k : Core) (n : Nat) (x : Seat) : (k.setSeat n x).tlb = k.tlb := by
  rcases n with _ | _ | _ | n <;> rfl

@[simp] theorem Core.setSeat_droops (k : Core) (n : Nat) (x : Seat) : (k.setSeat n x).droops = k.droops := by
  rcases n with _ | _ | _ | n <;> rfl

@[simp] theorem Core.setSeat_power (k : Core) (n : Nat) (x : Seat) : (k.setSeat n x).power = k.power := by
  rcases n with _ | _ | _ | n <;> rfl

@[simp] theorem Core.setSeat_clockStep (k : Core) (n : Nat) (x : Seat) : (k.setSeat n x).clockStep = k.clockStep := by
  rcases n with _ | _ | _ | n <;> rfl

@[simp] theorem Core.setSeat_arrivals (k : Core) (n : Nat) (x : Seat) : (k.setSeat n x).arrivals = k.arrivals := by
  rcases n with _ | _ | _ | n <;> rfl

@[simp] theorem Core.setSeat_clockMoves (k : Core) (n : Nat) (x : Seat) : (k.setSeat n x).clockMoves = k.clockMoves := by
  rcases n with _ | _ | _ | n <;> rfl

@[simp] theorem Core.setSeat_ctx (k : Core) (n : Nat) (x : Seat) : (k.setSeat n x).ctx = k.ctx := by
  rcases n with _ | _ | _ | n <;> rfl

@[simp] theorem Core.setSeat_hold (k : Core) (n : Nat) (x : Seat) : (k.setSeat n x).hold = k.hold := by
  rcases n with _ | _ | _ | n <;> rfl

@[simp] theorem Core.setSeat_haltQuick (k : Core) (n : Nat) (x : Seat) : (k.setSeat n x).haltQuick = k.haltQuick := by
  rcases n with _ | _ | _ | n <;> rfl

@[simp] theorem Core.setSeat_haltSettled (k : Core) (n : Nat) (x : Seat) : (k.setSeat n x).haltSettled = k.haltSettled := by
  rcases n with _ | _ | _ | n <;> rfl


@[simp] theorem State.seat_setSeat (s : State) (c : CoreId) (n : Nat) (x : Seat) : (s.setSeat c n x).seat c n = x := by
  simp [State.seat, State.setSeat]

@[simp] theorem State.setSeat_setSeat (s : State) (c : CoreId) (n : Nat) (x y : Seat) :
    (s.setSeat c n x).setSeat c n y = s.setSeat c n y := by
  simp [State.setSeat]

@[simp] theorem State.core_setSeat (s : State) (c : CoreId) (n : Nat) (x : Seat) :
    (s.setSeat c n x).core c = (s.core c).setSeat n x := by
  simp [State.setSeat]

theorem State.core_setSeat_ne (s : State) (c d : CoreId) (n : Nat) (x : Seat) (h : c ≠ d) :
    (s.setSeat c n x).core d = s.core d := by
  simp [State.setSeat, State.core_setCore_ne _ _ _ _ h]

@[simp] theorem State.me_setMe (s : State) (x : Seat) : (s.setMe x).me = x := by
  simp [State.me, State.setMe]

@[simp] theorem State.setMe_setMe (s : State) (x y : Seat) : (s.setMe x).setMe y = s.setMe y := by
  simp [State.setMe]

@[simp] theorem State.here_setMe (s : State) (x : Seat) : (s.setMe x).here = s.here.setSeat s.curSeat x := by
  simp [State.here, State.setMe]

@[simp] theorem State.me_tick (s : State) : s.tick.me = s.me := rfl

@[simp] theorem State.tick_setMe (s : State) (x : Seat) : (s.setMe x).tick = s.tick.setMe x := rfl

@[simp] theorem State.me_send (s : State) (delay : Nat) (src dst : CoreId) (lid cid seat tag : Nat) (ia cpc : BitVec 48)
    (b : Body) : (s.send delay src dst lid cid seat tag ia cpc b).me = s.me := rfl

/-! ### Seats: the fields an update leaves unchanged -/

@[simp] theorem Seat.put_st (t : Seat) (r : Reg) (val : Vec) : (t.put r val).st = t.st := rfl
@[simp] theorem Seat.put_snap (t : Seat) (r : Reg) (val : Vec) : (t.put r val).snap = t.snap := rfl
@[simp] theorem Seat.put_delivered (t : Seat) (r : Reg) (val : Vec) : (t.put r val).delivered = t.delivered := rfl
@[simp] theorem Seat.put_record (t : Seat) (r : Reg) (val : Vec) : (t.put r val).record = t.record := rfl
@[simp] theorem Seat.put_cid (t : Seat) (r : Reg) (val : Vec) : (t.put r val).cid = t.cid := rfl
@[simp] theorem Seat.put_deferred (t : Seat) (r : Reg) (val : Vec) : (t.put r val).deferred = t.deferred := rfl
@[simp] theorem Seat.put_wbuf (t : Seat) (r : Reg) (val : Vec) : (t.put r val).wbuf = t.wbuf := rfl
@[simp] theorem Seat.put_wtotal (t : Seat) (r : Reg) (val : Vec) : (t.put r val).wtotal = t.wtotal := rfl
@[simp] theorem Seat.put_fe (t : Seat) (r : Reg) (val : Vec) : (t.put r val).fe = t.fe := rfl
@[simp] theorem Seat.put_held (t : Seat) (r : Reg) (val : Vec) : (t.put r val).held = t.held := rfl
@[simp] theorem Seat.put_commitOps (t : Seat) (r : Reg) (val : Vec) : (t.put r val).commitOps = t.commitOps := rfl
@[simp] theorem Seat.put_count (t : Seat) (r : Reg) (val : Vec) : (t.put r val).count = t.count := rfl
@[simp] theorem Seat.put_startAt (t : Seat) (r : Reg) (val : Vec) : (t.put r val).startAt = t.startAt := rfl
@[simp] theorem Seat.put_started (t : Seat) (r : Reg) (val : Vec) : (t.put r val).started = t.started := rfl
@[simp] theorem Seat.put_boundary (t : Seat) (r : Reg) (val : Vec) : (t.put r val).boundary = t.boundary := rfl
@[simp] theorem Seat.put_grantAt (t : Seat) (r : Reg) (val : Vec) : (t.put r val).grantAt = t.grantAt := rfl
@[simp] theorem Seat.put_granted (t : Seat) (r : Reg) (val : Vec) : (t.put r val).granted = t.granted := rfl
@[simp] theorem Seat.put_place (t : Seat) (r : Reg) (val : Vec) : (t.put r val).place = t.place := rfl
@[simp] theorem Seat.put_resumeAt (t : Seat) (r : Reg) (val : Vec) : (t.put r val).resumeAt = t.resumeAt := rfl
@[simp] theorem Seat.put_arriveAt (t : Seat) (r : Reg) (val : Vec) : (t.put r val).arriveAt = t.arriveAt := rfl
@[simp] theorem Seat.put_waitFull (t : Seat) (r : Reg) (val : Vec) : (t.put r val).waitFull = t.waitFull := rfl
@[simp] theorem Seat.put_filter (t : Seat) (r : Reg) (val : Vec) : (t.put r val).filter = t.filter := rfl
@[simp] theorem Seat.put_conflict (t : Seat) (r : Reg) (val : Vec) : (t.put r val).conflict = t.conflict := rfl
@[simp] theorem Seat.put_conflictRow (t : Seat) (r : Reg) (val : Vec) : (t.put r val).conflictRow = t.conflictRow := rfl
@[simp] theorem Seat.put_undo (t : Seat) (r : Reg) (val : Vec) : (t.put r val).undo = t.undo := rfl
@[simp] theorem Seat.put_trap (t : Seat) (r : Reg) (val : Vec) : (t.put r val).trap = t.trap := rfl
@[simp] theorem Seat.put_more (t : Seat) (r : Reg) (val : Vec) : (t.put r val).more = t.more := rfl
@[simp] theorem Seat.put_ticket (t : Seat) (r : Reg) (val : Vec) : (t.put r val).ticket = t.ticket := rfl
@[simp] theorem Seat.put_origin (t : Seat) (r : Reg) (val : Vec) : (t.put r val).origin = t.origin := rfl
@[simp] theorem Seat.put_kept (t : Seat) (r : Reg) (val : Vec) : (t.put r val).kept = t.kept := rfl
@[simp] theorem Seat.put_lentTo (t : Seat) (r : Reg) (val : Vec) : (t.put r val).lentTo = t.lentTo := rfl
@[simp] theorem Seat.put_lastCommit (t : Seat) (r : Reg) (val : Vec) : (t.put r val).lastCommit = t.lastCommit := rfl
@[simp] theorem Seat.put_task (t : Seat) (r : Reg) (val : Vec) : (t.put r val).task = t.task := rfl
@[simp] theorem Seat.put_allocated (t : Seat) (r : Reg) (val : Vec) : (t.put r val).allocated = t.allocated := rfl
@[simp] theorem Seat.put_popped (t : Seat) (r : Reg) (val : Vec) : (t.put r val).popped = t.popped := rfl
@[simp] theorem Seat.put_rerun (t : Seat) (r : Reg) (val : Vec) : (t.put r val).rerun = t.rerun := rfl
@[simp] theorem Seat.put_stop (t : Seat) (r : Reg) (val : Vec) : (t.put r val).stop = t.stop := rfl
@[simp] theorem Seat.put_haltedAt (t : Seat) (r : Reg) (val : Vec) : (t.put r val).haltedAt = t.haltedAt := rfl
@[simp] theorem Seat.put_hall (t : Seat) (r : Reg) (val : Vec) : (t.put r val).hall = t.hall := rfl
@[simp] theorem Seat.put_hallSnap (t : Seat) (r : Reg) (val : Vec) : (t.put r val).hallSnap = t.hallSnap := rfl
@[simp] theorem Seat.put_hallUndo (t : Seat) (r : Reg) (val : Vec) : (t.put r val).hallUndo = t.hallUndo := rfl
@[simp] theorem Seat.put_budget (t : Seat) (r : Reg) (val : Vec) : (t.put r val).budget = t.budget := rfl
@[simp] theorem Seat.put_lastIssue (t : Seat) (r : Reg) (val : Vec) : (t.put r val).lastIssue = t.lastIssue := rfl
@[simp] theorem Seat.put_lastClass (t : Seat) (r : Reg) (val : Vec) : (t.put r val).lastClass = t.lastClass := rfl
@[simp] theorem Seat.result_st (t : Seat) (r : Reg) (val : Vec) (at' : Nat) (nf : BitVec 6) : (t.result r val at' nf).st = t.st := rfl
@[simp] theorem Seat.result_regs (t : Seat) (r : Reg) (val : Vec) (at' : Nat) (nf : BitVec 6) : (t.result r val at' nf).regs = t.regs := rfl
@[simp] theorem Seat.result_snap (t : Seat) (r : Reg) (val : Vec) (at' : Nat) (nf : BitVec 6) : (t.result r val at' nf).snap = t.snap := rfl
@[simp] theorem Seat.result_past (t : Seat) (r : Reg) (val : Vec) (at' : Nat) (nf : BitVec 6) : (t.result r val at' nf).past = t.past := rfl
@[simp] theorem Seat.result_delivered (t : Seat) (r : Reg) (val : Vec) (at' : Nat) (nf : BitVec 6) : (t.result r val at' nf).delivered = t.delivered := rfl
@[simp] theorem Seat.result_record (t : Seat) (r : Reg) (val : Vec) (at' : Nat) (nf : BitVec 6) : (t.result r val at' nf).record = t.record := rfl
@[simp] theorem Seat.result_cid (t : Seat) (r : Reg) (val : Vec) (at' : Nat) (nf : BitVec 6) : (t.result r val at' nf).cid = t.cid := rfl
@[simp] theorem Seat.result_deferred (t : Seat) (r : Reg) (val : Vec) (at' : Nat) (nf : BitVec 6) : (t.result r val at' nf).deferred = t.deferred := rfl
@[simp] theorem Seat.result_wbuf (t : Seat) (r : Reg) (val : Vec) (at' : Nat) (nf : BitVec 6) : (t.result r val at' nf).wbuf = t.wbuf := rfl
@[simp] theorem Seat.result_wtotal (t : Seat) (r : Reg) (val : Vec) (at' : Nat) (nf : BitVec 6) : (t.result r val at' nf).wtotal = t.wtotal := rfl
@[simp] theorem Seat.result_fe (t : Seat) (r : Reg) (val : Vec) (at' : Nat) (nf : BitVec 6) : (t.result r val at' nf).fe = t.fe := rfl
@[simp] theorem Seat.result_held (t : Seat) (r : Reg) (val : Vec) (at' : Nat) (nf : BitVec 6) : (t.result r val at' nf).held = t.held := rfl
@[simp] theorem Seat.result_commitOps (t : Seat) (r : Reg) (val : Vec) (at' : Nat) (nf : BitVec 6) : (t.result r val at' nf).commitOps = t.commitOps := rfl
@[simp] theorem Seat.result_count (t : Seat) (r : Reg) (val : Vec) (at' : Nat) (nf : BitVec 6) : (t.result r val at' nf).count = t.count := rfl
@[simp] theorem Seat.result_startAt (t : Seat) (r : Reg) (val : Vec) (at' : Nat) (nf : BitVec 6) : (t.result r val at' nf).startAt = t.startAt := rfl
@[simp] theorem Seat.result_started (t : Seat) (r : Reg) (val : Vec) (at' : Nat) (nf : BitVec 6) : (t.result r val at' nf).started = t.started := rfl
@[simp] theorem Seat.result_boundary (t : Seat) (r : Reg) (val : Vec) (at' : Nat) (nf : BitVec 6) : (t.result r val at' nf).boundary = t.boundary := rfl
@[simp] theorem Seat.result_grantAt (t : Seat) (r : Reg) (val : Vec) (at' : Nat) (nf : BitVec 6) : (t.result r val at' nf).grantAt = t.grantAt := rfl
@[simp] theorem Seat.result_granted (t : Seat) (r : Reg) (val : Vec) (at' : Nat) (nf : BitVec 6) : (t.result r val at' nf).granted = t.granted := rfl
@[simp] theorem Seat.result_place (t : Seat) (r : Reg) (val : Vec) (at' : Nat) (nf : BitVec 6) : (t.result r val at' nf).place = t.place := rfl
@[simp] theorem Seat.result_resumeAt (t : Seat) (r : Reg) (val : Vec) (at' : Nat) (nf : BitVec 6) : (t.result r val at' nf).resumeAt = t.resumeAt := rfl
@[simp] theorem Seat.result_arriveAt (t : Seat) (r : Reg) (val : Vec) (at' : Nat) (nf : BitVec 6) : (t.result r val at' nf).arriveAt = t.arriveAt := rfl
@[simp] theorem Seat.result_waitFull (t : Seat) (r : Reg) (val : Vec) (at' : Nat) (nf : BitVec 6) : (t.result r val at' nf).waitFull = t.waitFull := rfl
@[simp] theorem Seat.result_filter (t : Seat) (r : Reg) (val : Vec) (at' : Nat) (nf : BitVec 6) : (t.result r val at' nf).filter = t.filter := rfl
@[simp] theorem Seat.result_conflict (t : Seat) (r : Reg) (val : Vec) (at' : Nat) (nf : BitVec 6) : (t.result r val at' nf).conflict = t.conflict := rfl
@[simp] theorem Seat.result_conflictRow (t : Seat) (r : Reg) (val : Vec) (at' : Nat) (nf : BitVec 6) : (t.result r val at' nf).conflictRow = t.conflictRow := rfl
@[simp] theorem Seat.result_undo (t : Seat) (r : Reg) (val : Vec) (at' : Nat) (nf : BitVec 6) : (t.result r val at' nf).undo = t.undo := rfl
@[simp] theorem Seat.result_trap (t : Seat) (r : Reg) (val : Vec) (at' : Nat) (nf : BitVec 6) : (t.result r val at' nf).trap = t.trap := rfl
@[simp] theorem Seat.result_more (t : Seat) (r : Reg) (val : Vec) (at' : Nat) (nf : BitVec 6) : (t.result r val at' nf).more = t.more := rfl
@[simp] theorem Seat.result_ticket (t : Seat) (r : Reg) (val : Vec) (at' : Nat) (nf : BitVec 6) : (t.result r val at' nf).ticket = t.ticket := rfl
@[simp] theorem Seat.result_origin (t : Seat) (r : Reg) (val : Vec) (at' : Nat) (nf : BitVec 6) : (t.result r val at' nf).origin = t.origin := rfl
@[simp] theorem Seat.result_kept (t : Seat) (r : Reg) (val : Vec) (at' : Nat) (nf : BitVec 6) : (t.result r val at' nf).kept = t.kept := rfl
@[simp] theorem Seat.result_lentTo (t : Seat) (r : Reg) (val : Vec) (at' : Nat) (nf : BitVec 6) : (t.result r val at' nf).lentTo = t.lentTo := rfl
@[simp] theorem Seat.result_lastCommit (t : Seat) (r : Reg) (val : Vec) (at' : Nat) (nf : BitVec 6) : (t.result r val at' nf).lastCommit = t.lastCommit := rfl
@[simp] theorem Seat.result_task (t : Seat) (r : Reg) (val : Vec) (at' : Nat) (nf : BitVec 6) : (t.result r val at' nf).task = t.task := rfl
@[simp] theorem Seat.result_allocated (t : Seat) (r : Reg) (val : Vec) (at' : Nat) (nf : BitVec 6) : (t.result r val at' nf).allocated = t.allocated := rfl
@[simp] theorem Seat.result_popped (t : Seat) (r : Reg) (val : Vec) (at' : Nat) (nf : BitVec 6) : (t.result r val at' nf).popped = t.popped := rfl
@[simp] theorem Seat.result_rerun (t : Seat) (r : Reg) (val : Vec) (at' : Nat) (nf : BitVec 6) : (t.result r val at' nf).rerun = t.rerun := rfl
@[simp] theorem Seat.result_stop (t : Seat) (r : Reg) (val : Vec) (at' : Nat) (nf : BitVec 6) : (t.result r val at' nf).stop = t.stop := rfl
@[simp] theorem Seat.result_haltedAt (t : Seat) (r : Reg) (val : Vec) (at' : Nat) (nf : BitVec 6) : (t.result r val at' nf).haltedAt = t.haltedAt := rfl
@[simp] theorem Seat.result_hall (t : Seat) (r : Reg) (val : Vec) (at' : Nat) (nf : BitVec 6) : (t.result r val at' nf).hall = t.hall := rfl
@[simp] theorem Seat.result_hallSnap (t : Seat) (r : Reg) (val : Vec) (at' : Nat) (nf : BitVec 6) : (t.result r val at' nf).hallSnap = t.hallSnap := rfl
@[simp] theorem Seat.result_hallUndo (t : Seat) (r : Reg) (val : Vec) (at' : Nat) (nf : BitVec 6) : (t.result r val at' nf).hallUndo = t.hallUndo := rfl
@[simp] theorem Seat.result_budget (t : Seat) (r : Reg) (val : Vec) (at' : Nat) (nf : BitVec 6) : (t.result r val at' nf).budget = t.budget := rfl
@[simp] theorem Seat.result_lastIssue (t : Seat) (r : Reg) (val : Vec) (at' : Nat) (nf : BitVec 6) : (t.result r val at' nf).lastIssue = t.lastIssue := rfl
@[simp] theorem Seat.result_lastClass (t : Seat) (r : Reg) (val : Vec) (at' : Nat) (nf : BitVec 6) : (t.result r val at' nf).lastClass = t.lastClass := rfl
@[simp] theorem Seat.buffer_st (t : Seat) (a : Nat) (bs : List Byte) : (t.buffer a bs).st = t.st := rfl
@[simp] theorem Seat.buffer_regs (t : Seat) (a : Nat) (bs : List Byte) : (t.buffer a bs).regs = t.regs := rfl
@[simp] theorem Seat.buffer_snap (t : Seat) (a : Nat) (bs : List Byte) : (t.buffer a bs).snap = t.snap := rfl
@[simp] theorem Seat.buffer_past (t : Seat) (a : Nat) (bs : List Byte) : (t.buffer a bs).past = t.past := rfl
@[simp] theorem Seat.buffer_delivered (t : Seat) (a : Nat) (bs : List Byte) : (t.buffer a bs).delivered = t.delivered := rfl
@[simp] theorem Seat.buffer_record (t : Seat) (a : Nat) (bs : List Byte) : (t.buffer a bs).record = t.record := rfl
@[simp] theorem Seat.buffer_cid (t : Seat) (a : Nat) (bs : List Byte) : (t.buffer a bs).cid = t.cid := rfl
@[simp] theorem Seat.buffer_results (t : Seat) (a : Nat) (bs : List Byte) : (t.buffer a bs).results = t.results := rfl
@[simp] theorem Seat.buffer_deferred (t : Seat) (a : Nat) (bs : List Byte) : (t.buffer a bs).deferred = t.deferred := rfl
@[simp] theorem Seat.buffer_fe (t : Seat) (a : Nat) (bs : List Byte) : (t.buffer a bs).fe = t.fe := rfl
@[simp] theorem Seat.buffer_held (t : Seat) (a : Nat) (bs : List Byte) : (t.buffer a bs).held = t.held := rfl
@[simp] theorem Seat.buffer_commitOps (t : Seat) (a : Nat) (bs : List Byte) : (t.buffer a bs).commitOps = t.commitOps := rfl
@[simp] theorem Seat.buffer_count (t : Seat) (a : Nat) (bs : List Byte) : (t.buffer a bs).count = t.count := rfl
@[simp] theorem Seat.buffer_startAt (t : Seat) (a : Nat) (bs : List Byte) : (t.buffer a bs).startAt = t.startAt := rfl
@[simp] theorem Seat.buffer_started (t : Seat) (a : Nat) (bs : List Byte) : (t.buffer a bs).started = t.started := rfl
@[simp] theorem Seat.buffer_boundary (t : Seat) (a : Nat) (bs : List Byte) : (t.buffer a bs).boundary = t.boundary := rfl
@[simp] theorem Seat.buffer_grantAt (t : Seat) (a : Nat) (bs : List Byte) : (t.buffer a bs).grantAt = t.grantAt := rfl
@[simp] theorem Seat.buffer_granted (t : Seat) (a : Nat) (bs : List Byte) : (t.buffer a bs).granted = t.granted := rfl
@[simp] theorem Seat.buffer_place (t : Seat) (a : Nat) (bs : List Byte) : (t.buffer a bs).place = t.place := rfl
@[simp] theorem Seat.buffer_resumeAt (t : Seat) (a : Nat) (bs : List Byte) : (t.buffer a bs).resumeAt = t.resumeAt := rfl
@[simp] theorem Seat.buffer_arriveAt (t : Seat) (a : Nat) (bs : List Byte) : (t.buffer a bs).arriveAt = t.arriveAt := rfl
@[simp] theorem Seat.buffer_waitFull (t : Seat) (a : Nat) (bs : List Byte) : (t.buffer a bs).waitFull = t.waitFull := rfl
@[simp] theorem Seat.buffer_filter (t : Seat) (a : Nat) (bs : List Byte) : (t.buffer a bs).filter = t.filter := rfl
@[simp] theorem Seat.buffer_conflict (t : Seat) (a : Nat) (bs : List Byte) : (t.buffer a bs).conflict = t.conflict := rfl
@[simp] theorem Seat.buffer_conflictRow (t : Seat) (a : Nat) (bs : List Byte) : (t.buffer a bs).conflictRow = t.conflictRow := rfl
@[simp] theorem Seat.buffer_undo (t : Seat) (a : Nat) (bs : List Byte) : (t.buffer a bs).undo = t.undo := rfl
@[simp] theorem Seat.buffer_trap (t : Seat) (a : Nat) (bs : List Byte) : (t.buffer a bs).trap = t.trap := rfl
@[simp] theorem Seat.buffer_more (t : Seat) (a : Nat) (bs : List Byte) : (t.buffer a bs).more = t.more := rfl
@[simp] theorem Seat.buffer_ticket (t : Seat) (a : Nat) (bs : List Byte) : (t.buffer a bs).ticket = t.ticket := rfl
@[simp] theorem Seat.buffer_origin (t : Seat) (a : Nat) (bs : List Byte) : (t.buffer a bs).origin = t.origin := rfl
@[simp] theorem Seat.buffer_kept (t : Seat) (a : Nat) (bs : List Byte) : (t.buffer a bs).kept = t.kept := rfl
@[simp] theorem Seat.buffer_lentTo (t : Seat) (a : Nat) (bs : List Byte) : (t.buffer a bs).lentTo = t.lentTo := rfl
@[simp] theorem Seat.buffer_lastCommit (t : Seat) (a : Nat) (bs : List Byte) : (t.buffer a bs).lastCommit = t.lastCommit := rfl
@[simp] theorem Seat.buffer_task (t : Seat) (a : Nat) (bs : List Byte) : (t.buffer a bs).task = t.task := rfl
@[simp] theorem Seat.buffer_allocated (t : Seat) (a : Nat) (bs : List Byte) : (t.buffer a bs).allocated = t.allocated := rfl
@[simp] theorem Seat.buffer_popped (t : Seat) (a : Nat) (bs : List Byte) : (t.buffer a bs).popped = t.popped := rfl
@[simp] theorem Seat.buffer_rerun (t : Seat) (a : Nat) (bs : List Byte) : (t.buffer a bs).rerun = t.rerun := rfl
@[simp] theorem Seat.buffer_stop (t : Seat) (a : Nat) (bs : List Byte) : (t.buffer a bs).stop = t.stop := rfl
@[simp] theorem Seat.buffer_haltedAt (t : Seat) (a : Nat) (bs : List Byte) : (t.buffer a bs).haltedAt = t.haltedAt := rfl
@[simp] theorem Seat.buffer_hall (t : Seat) (a : Nat) (bs : List Byte) : (t.buffer a bs).hall = t.hall := rfl
@[simp] theorem Seat.buffer_hallSnap (t : Seat) (a : Nat) (bs : List Byte) : (t.buffer a bs).hallSnap = t.hallSnap := rfl
@[simp] theorem Seat.buffer_hallUndo (t : Seat) (a : Nat) (bs : List Byte) : (t.buffer a bs).hallUndo = t.hallUndo := rfl
@[simp] theorem Seat.buffer_budget (t : Seat) (a : Nat) (bs : List Byte) : (t.buffer a bs).budget = t.budget := rfl
@[simp] theorem Seat.buffer_lastIssue (t : Seat) (a : Nat) (bs : List Byte) : (t.buffer a bs).lastIssue = t.lastIssue := rfl
@[simp] theorem Seat.buffer_lastClass (t : Seat) (a : Nat) (bs : List Byte) : (t.buffer a bs).lastClass = t.lastClass := rfl
@[simp] theorem Seat.retire_snap (t : Seat) (sw : Bool) (pc : BitVec 48) (cycle : Nat) : (t.retire sw pc cycle).snap = t.snap := rfl
@[simp] theorem Seat.retire_past (t : Seat) (sw : Bool) (pc : BitVec 48) (cycle : Nat) : (t.retire sw pc cycle).past = t.past := rfl
@[simp] theorem Seat.retire_delivered (t : Seat) (sw : Bool) (pc : BitVec 48) (cycle : Nat) : (t.retire sw pc cycle).delivered = t.delivered := rfl
@[simp] theorem Seat.retire_record (t : Seat) (sw : Bool) (pc : BitVec 48) (cycle : Nat) : (t.retire sw pc cycle).record = t.record := rfl
@[simp] theorem Seat.retire_cid (t : Seat) (sw : Bool) (pc : BitVec 48) (cycle : Nat) : (t.retire sw pc cycle).cid = t.cid := rfl
@[simp] theorem Seat.retire_results (t : Seat) (sw : Bool) (pc : BitVec 48) (cycle : Nat) : (t.retire sw pc cycle).results = t.results := rfl
@[simp] theorem Seat.retire_deferred (t : Seat) (sw : Bool) (pc : BitVec 48) (cycle : Nat) : (t.retire sw pc cycle).deferred = t.deferred := rfl
@[simp] theorem Seat.retire_wbuf (t : Seat) (sw : Bool) (pc : BitVec 48) (cycle : Nat) : (t.retire sw pc cycle).wbuf = t.wbuf := rfl
@[simp] theorem Seat.retire_wtotal (t : Seat) (sw : Bool) (pc : BitVec 48) (cycle : Nat) : (t.retire sw pc cycle).wtotal = t.wtotal := rfl
@[simp] theorem Seat.retire_fe (t : Seat) (sw : Bool) (pc : BitVec 48) (cycle : Nat) : (t.retire sw pc cycle).fe = t.fe := rfl
@[simp] theorem Seat.retire_held (t : Seat) (sw : Bool) (pc : BitVec 48) (cycle : Nat) : (t.retire sw pc cycle).held = t.held := rfl
@[simp] theorem Seat.retire_commitOps (t : Seat) (sw : Bool) (pc : BitVec 48) (cycle : Nat) : (t.retire sw pc cycle).commitOps = t.commitOps := rfl
@[simp] theorem Seat.retire_startAt (t : Seat) (sw : Bool) (pc : BitVec 48) (cycle : Nat) : (t.retire sw pc cycle).startAt = t.startAt := rfl
@[simp] theorem Seat.retire_started (t : Seat) (sw : Bool) (pc : BitVec 48) (cycle : Nat) : (t.retire sw pc cycle).started = t.started := rfl
@[simp] theorem Seat.retire_boundary (t : Seat) (sw : Bool) (pc : BitVec 48) (cycle : Nat) : (t.retire sw pc cycle).boundary = t.boundary := rfl
@[simp] theorem Seat.retire_grantAt (t : Seat) (sw : Bool) (pc : BitVec 48) (cycle : Nat) : (t.retire sw pc cycle).grantAt = t.grantAt := rfl
@[simp] theorem Seat.retire_granted (t : Seat) (sw : Bool) (pc : BitVec 48) (cycle : Nat) : (t.retire sw pc cycle).granted = t.granted := rfl
@[simp] theorem Seat.retire_place (t : Seat) (sw : Bool) (pc : BitVec 48) (cycle : Nat) : (t.retire sw pc cycle).place = t.place := rfl
@[simp] theorem Seat.retire_resumeAt (t : Seat) (sw : Bool) (pc : BitVec 48) (cycle : Nat) : (t.retire sw pc cycle).resumeAt = t.resumeAt := rfl
@[simp] theorem Seat.retire_waitFull (t : Seat) (sw : Bool) (pc : BitVec 48) (cycle : Nat) : (t.retire sw pc cycle).waitFull = t.waitFull := rfl
@[simp] theorem Seat.retire_filter (t : Seat) (sw : Bool) (pc : BitVec 48) (cycle : Nat) : (t.retire sw pc cycle).filter = t.filter := rfl
@[simp] theorem Seat.retire_conflict (t : Seat) (sw : Bool) (pc : BitVec 48) (cycle : Nat) : (t.retire sw pc cycle).conflict = t.conflict := rfl
@[simp] theorem Seat.retire_conflictRow (t : Seat) (sw : Bool) (pc : BitVec 48) (cycle : Nat) : (t.retire sw pc cycle).conflictRow = t.conflictRow := rfl
@[simp] theorem Seat.retire_undo (t : Seat) (sw : Bool) (pc : BitVec 48) (cycle : Nat) : (t.retire sw pc cycle).undo = t.undo := rfl
@[simp] theorem Seat.retire_trap (t : Seat) (sw : Bool) (pc : BitVec 48) (cycle : Nat) : (t.retire sw pc cycle).trap = t.trap := rfl
@[simp] theorem Seat.retire_more (t : Seat) (sw : Bool) (pc : BitVec 48) (cycle : Nat) : (t.retire sw pc cycle).more = t.more := rfl
@[simp] theorem Seat.retire_ticket (t : Seat) (sw : Bool) (pc : BitVec 48) (cycle : Nat) : (t.retire sw pc cycle).ticket = t.ticket := rfl
@[simp] theorem Seat.retire_origin (t : Seat) (sw : Bool) (pc : BitVec 48) (cycle : Nat) : (t.retire sw pc cycle).origin = t.origin := rfl
@[simp] theorem Seat.retire_kept (t : Seat) (sw : Bool) (pc : BitVec 48) (cycle : Nat) : (t.retire sw pc cycle).kept = t.kept := rfl
@[simp] theorem Seat.retire_lentTo (t : Seat) (sw : Bool) (pc : BitVec 48) (cycle : Nat) : (t.retire sw pc cycle).lentTo = t.lentTo := rfl
@[simp] theorem Seat.retire_lastCommit (t : Seat) (sw : Bool) (pc : BitVec 48) (cycle : Nat) : (t.retire sw pc cycle).lastCommit = t.lastCommit := rfl
@[simp] theorem Seat.retire_task (t : Seat) (sw : Bool) (pc : BitVec 48) (cycle : Nat) : (t.retire sw pc cycle).task = t.task := rfl
@[simp] theorem Seat.retire_allocated (t : Seat) (sw : Bool) (pc : BitVec 48) (cycle : Nat) : (t.retire sw pc cycle).allocated = t.allocated := rfl
@[simp] theorem Seat.retire_popped (t : Seat) (sw : Bool) (pc : BitVec 48) (cycle : Nat) : (t.retire sw pc cycle).popped = t.popped := rfl
@[simp] theorem Seat.retire_rerun (t : Seat) (sw : Bool) (pc : BitVec 48) (cycle : Nat) : (t.retire sw pc cycle).rerun = t.rerun := rfl
@[simp] theorem Seat.retire_stop (t : Seat) (sw : Bool) (pc : BitVec 48) (cycle : Nat) : (t.retire sw pc cycle).stop = t.stop := rfl
@[simp] theorem Seat.retire_haltedAt (t : Seat) (sw : Bool) (pc : BitVec 48) (cycle : Nat) : (t.retire sw pc cycle).haltedAt = t.haltedAt := rfl
@[simp] theorem Seat.retire_hall (t : Seat) (sw : Bool) (pc : BitVec 48) (cycle : Nat) : (t.retire sw pc cycle).hall = t.hall := rfl
@[simp] theorem Seat.retire_hallSnap (t : Seat) (sw : Bool) (pc : BitVec 48) (cycle : Nat) : (t.retire sw pc cycle).hallSnap = t.hallSnap := rfl
@[simp] theorem Seat.retire_hallUndo (t : Seat) (sw : Bool) (pc : BitVec 48) (cycle : Nat) : (t.retire sw pc cycle).hallUndo = t.hallUndo := rfl
@[simp] theorem Seat.retire_budget (t : Seat) (sw : Bool) (pc : BitVec 48) (cycle : Nat) : (t.retire sw pc cycle).budget = t.budget := rfl
@[simp] theorem Seat.retire_lastClass (t : Seat) (sw : Bool) (pc : BitVec 48) (cycle : Nat) : (t.retire sw pc cycle).lastClass = t.lastClass := rfl

/-! ### Registers -/

@[simp] theorem Regs.write_pc (g : Regs) (r : Reg) (val : Vec) : (g.write r val).pc = g.pc := by
  unfold Regs.write
  repeat' split
  all_goals rfl

@[simp] theorem Regs.write_nf (g : Regs) (r : Reg) (val : Vec) : (g.write r val).nf = g.nf := by
  unfold Regs.write
  repeat' split
  all_goals rfl

@[simp] theorem Regs.write_rmode (g : Regs) (r : Reg) (val : Vec) : (g.write r val).rmode = g.rmode := by
  unfold Regs.write
  repeat' split
  all_goals rfl

@[simp] theorem Regs.write_seed (g : Regs) (r : Reg) (val : Vec) : (g.write r val).seed = g.seed := by
  unfold Regs.write
  repeat' split
  all_goals rfl

@[simp] theorem Regs.write_fin (g : Regs) (r : Reg) (val : Vec) : (g.write r val).fin = g.fin := by
  unfold Regs.write
  repeat' split
  all_goals rfl

@[simp] theorem Regs.write_woke (g : Regs) (r : Reg) (val : Vec) : (g.write r val).woke = g.woke := by
  unfold Regs.write
  repeat' split
  all_goals rfl

@[simp] theorem Regs.write_wrap (g : Regs) (r : Reg) (val : Vec) : (g.write r val).wrap = g.wrap := by
  unfold Regs.write
  repeat' split
  all_goals rfl

/-- x[r] reads back what was written, and x0 reads 0 (R39). -/
theorem Regs.write_x_same (g : Regs) (r : BitVec 6) (w : Word) (h : r ≠ 0) :
    (g.write (.x r) (w.setWidth 1024)).x[r.toFin] = w := by
  simp only [Regs.write, if_neg h]
  simp

/-- A write of one x register leaves the others (R39). -/
theorem Regs.write_x_other (g : Regs) (r q : BitVec 6) (val : Vec) (h : r ≠ q) :
    (g.write (.x r) val).x[q.toFin] = g.x[q.toFin] := by
  have hn : r.toNat ≠ q.toNat := fun e => h (BitVec.eq_of_toNat_eq e)
  by_cases h0 : r = 0
  · simp [Regs.write, h0]
  · simp only [Regs.write, if_neg h0]
    simp [hn]

/-- x0 keeps nothing (R39). -/
@[simp] theorem Regs.write_x_zero (g : Regs) (val : Vec) : g.write (.x 0) val = g := rfl

/-- q0 keeps nothing (R39). -/
@[simp] theorem Regs.write_q_zero (g : Regs) (val : Vec) : g.write (.q 0) val = g := rfl

@[simp] theorem Seat.x_zero (t : Seat) : t.x 0 = 0 := rfl

@[simp] theorem Seat.q_zero (t : Seat) : t.q 0 = BitVec.allOnes 128 := rfl

/-! ### The end of an instruction -/

/-- What `settle` answers: the next state of a completed body is the body's state with the seat retired. -/
@[simp] theorem settle_ok (sw : Bool) (s t : State) :
    settle sw s (.ok t) = .next (t.setMe (t.me.retire sw (nextAddr s.here s.me.regs.pc) t.cycle)) := rfl

/-- What `settle` answers: a trap is the shared exception entry, with the instruction's own address. -/
@[simp] theorem settle_trap (sw : Bool) (s : State) (cause : Nat) (arg : Word) :
    settle sw s (.error (.trap cause arg)) = .next (s.issued.fault s.curCore s.curSeat cause arg s.me.regs.pc) := rfl

/-- What `settle` answers: a stall keeps the instruction for later. -/
@[simp] theorem settle_stall (sw : Bool) (s : State) :
    settle sw s (.error .stall) = .next (s.setMe { s.me with st := .stalled }) := rfl

/-- Every outcome of a body is a next state. -/
theorem settleTo_next (sw : Bool) (pc : State → BitVec 48) (s : State) (r : Except Stop State) :
    ∃ t, settleTo sw pc s r = .next t := by
  unfold settleTo
  split <;> exact ⟨_, rfl⟩

/-- Every event is a next state, the same one where its condition does not hold. -/
@[simp] theorem event_some (s t : State) : event s (some t) = .next t := rfl

@[simp] theorem event_none (s : State) : event s none = .next s := rfl

end Sys2Proof.Machine
end

