-- ==== Sys2Proof/Laws/Ops.lean ====
section
/-!
SUPPORT. What the shared operations of Machine/Ops.lean and Machine/Operands.lean can do: one lemma for each, for meanings
that use them.
-/
namespace Sys2Proof.Machine

/-! ### Outcomes -/

/-- Settling always goes on. -/
theorem settle_next (sw : Bool) (s : State) (r : Except Stop State) : ∃ t, settle sw s r = .next t := by
  unfold settle settleTo
  split <;> exact ⟨_, rfl⟩

/-- An event that is due gives its state, and one that is not leaves the state as it is. -/
theorem event_next (s : State) (r : Option State) : event s r = .next (r.getD s) := rfl

/-! ### Checks -/

/-- A check that passes holds. -/
theorem check_ok {c : Bool} {cause : Nat} {arg : Word} {u : Unit} (h : check c cause arg = .ok u) : c = true := by
  cases c with
  | true => rfl
  | false => cases h

/-- A check that fails gives its trap. -/
theorem check_error {c : Bool} {cause : Nat} {arg : Word} {e : Stop} (h : check c cause arg = .error e) :
    c = false ∧ e = .trap cause arg := by
  cases c with
  | true => cases h
  | false => exact ⟨rfl, (Except.error.inj h).symm⟩

/-- A meaning goes on past a format check exactly where the check holds. -/
theorem checkFormat_then {β : Type} (c : Bool) (arg : Nat) (f : Unit → Except Stop β) (r : β) :
    (checkFormat c arg >>= f) = .ok r ↔ c = true ∧ f () = .ok r := by
  cases c <;> simp [checkFormat, check, bind, Except.bind]

/-- What a home-space operand that passes its checks is (R49, R51). -/
theorem checkHome_ok {p : Word} {n : Nat} {accept : Nat → Bool} {r : HomeRange} :
    checkHome p n accept = .ok r ↔
      codeKnown (ptrFmt p) = true ∧ accept (ptrFmt p) = true ∧ ptrBlog p = 0 ∧ codeBlocked (ptrFmt p) = false ∧ ptrSpace p = 0 ∧ rangeOf (ptrAddr p) n = some r := by
  cases h : rangeOf (ptrAddr p) n <;> simp [checkHome, checkFormat_then, h, and_assoc]

/-- What a local-store operand that passes its checks is. -/
theorem checkLocal_ok {p : Word} {n align a : Nat} (h : checkLocal p n align = .ok a) :
    a = ptrAddr p ∧ ptrSpace p = 0 ∧ ptrBlog p = 0 ∧ rangeOf a n = some .localStore ∧ a % align = 0 := by
  rw [checkLocal] at h
  rcases e : checkHome p n unblocked with x | r
  · simp [e, bind, Except.bind] at h
  · have hp := checkHome_ok.1 e
    rw [e] at h
    obtain ⟨hr, hz, ha⟩ : r = .localStore ∧ ptrAddr p % align = 0 ∧ ptrAddr p = a := by
      simpa [checkFormat_then] using show (checkFormat (r == .localStore) 5 >>= fun _ => _) = .ok a from h
    exact ha ▸ ⟨rfl, hp.2.2.2.2.1, hp.2.2.1, hr ▸ hp.2.2.2.2.2, hz⟩

/-! ### A chunk's limits -/

/-- A held effect joins the end of the chunk's list, which had a place (R196); nothing else changes. -/
theorem hold_ok {s t : State} {e : Held} {tag : Nat} (h : hold s e tag = .ok t) :
    s.me.held.length < 32 ∧ t = s.setMe { s.me with held := s.me.held ++ [{ ia := s.me.regs.pc, tag := tag, body := e }] } := by
  unfold hold at h
  split at h
  · next hl => exact ⟨hl, (Except.ok.inj h).symm⟩
  · cases h

/-- A thirty-third effect ends the chunk first. -/
theorem hold_error {s : State} {e : Held} {tag : Nat} {x : Stop} (h : hold s e tag = .error x) :
    32 ≤ s.me.held.length ∧ x = .boundary := by
  unfold hold at h
  split at h
  · cases h
  · next hl => exact ⟨by omega, (Except.error.inj h).symm⟩

/-- A deferred result has a place, or its register is x0 (R37). -/
theorem awaitRoom_ok {s : State} {d : BitVec 6} {u : Unit} (h : awaitRoom s d = .ok u) :
    d = 0 ∨ s.me.deferred.length < 24 := by
  unfold awaitRoom at h
  split at h
  · next g => simpa using g
  · next g =>
    split at h
    · split at h <;> cases h
    · next e => simp [e] at g

/-- A held effect with a deferred result: both have a place, and the tag is a fresh one. -/
theorem holdFor_ok {s t : State} {d : BitVec 6} {e : Held} (h : holdFor s d e = .ok t) :
    (d = 0 ∨ s.me.deferred.length < 24) ∧ s.me.held.length < 32 ∧
      ∃ u, hold s e s.fresh = .ok u ∧ t = (u.setMe (u.me.await (.x d) e.unit s.fresh)).tick := by
  unfold holdFor at h
  cases ha : awaitRoom s d with
  | error x => rw [ha] at h; cases h
  | ok v =>
    rw [ha] at h
    cases hh : hold s e s.fresh with
    | error x => rw [hh] at h; cases h
    | ok u =>
      rw [hh] at h
      exact ⟨awaitRoom_ok ha, (hold_ok hh).1, u, rfl, (Except.ok.inj h).symm⟩

/-- A store's bytes fit what is left of the chunk's buffer (R195). -/
theorem room_ok {s : State} {n : Nat} {u : Unit} (h : room s n = .ok u) : s.me.wtotal + n ≤ 16384 := by
  unfold room at h
  split at h
  · next g => exact g
  · cases h

/-! ### Registers -/

/-- A write of an x register leaves every other one, and x0 keeps nothing (R39). -/
theorem Regs.write_x (g : Regs) (d r : BitVec 6) (v : Vec) :
    (g.write (.x d) v).x[r.toFin] = if d = r ∧ d ≠ 0 then v.setWidth 64 else g.x[r.toFin] := by
  by_cases h0 : d = 0
  · subst h0
    simp [Regs.write]
  · have e : g.write (.x d) v = { g with x := g.x.set d.toFin (v.setWidth 64) } := if_neg h0
    rw [e]
    by_cases hr : d = r
    · subst hr
      simp only [true_and, ne_eq, h0, not_false_eq_true, if_true]
      exact Vector.getElem_set_self _
    · have hn : d.toNat ≠ r.toNat := fun e => hr (BitVec.eq_of_toNat_eq e)
      simp [hr, hn]

/-! ### Bytes that land -/

/-- Bytes that land stand where they landed. -/
theorem Core.land_get_inside (k : Core) (a : Nat) (bs : List Byte) (i : Nat) (hk : k.store.wf = true) (h : i < bs.length) :
    (k.land a bs).store.get (a + i) = bs.getD i 0 := by
  have e : (k.land a bs).store = k.store.write a bs := by
    unfold Core.land Core.clearPoison Core.fillWords
    split <;> rfl
  rw [e]
  rw [Mem.get_write_inside k.store a bs i hk h, List.getD_eq_getElem?_getD, List.getElem?_eq_getElem h]
  rfl

/-- Bytes that land leave every other byte. -/
theorem Core.land_get_outside (k : Core) (a c : Nat) (bs : List Byte) (h : c < a ∨ a + bs.length ≤ c) :
    (k.land a bs).store.get c = k.store.get c := by
  have e : (k.land a bs).store = k.store.write a bs := by
    unfold Core.land Core.clearPoison Core.fillWords
    split <;> rfl
  rw [e]
  exact Mem.get_write_outside k.store a c bs h

end Sys2Proof.Machine
end

