-- ==== Sys2Proof/Tests/Slice0.lean ====
section
/-!
SUPPORT. Tests: words written out from the encoding tables, terms that a check refuses, the worked examples of the spec, and for
every statement a state and operands that meet the hypotheses of each of its clauses.
-/
namespace Sys2Proof.Tests
set_option Elab.async false
open Sys2Proof Sys2Proof.Machine Sys2Proof.Spec

/-! ### Small states -/

/-- Registers with some x registers set. -/
def regs (l : List (Nat × Word)) : Regs :=
  l.foldl (fun g p => { g with x := g.x.setIfInBounds p.1 p.2 }) (Regs.init 0)

/-- A running seat of launch 1 with core c as its home. -/
def seat (c : Nat) (l : List (Nat × Word)) : Seat :=
  { Seat.init c 0 with st := .running, regs := regs l, snap := regs l, cid := 9, budget := 4000,
                       record := { Record.zero with w1 := BitVec.ofNat 64 (c + 2 ^ 11) } }

/-- Launch 1 of context 1, over columns 0 to 7 of row 0. -/
def launch1 : Launch :=
  let d : LaunchDescriptor :=
    { code := 0, htab := 0, rect := scopeForm 0 0 7 0, init := 0, ninit := 0, prio := 3, flags := 0, res0 := 0, energy := 5,
      levint := 1024, window := 0, res1 := 0 }
  Launch.start 1 1 d [] [] 0

/-- Context 1 of function 1, made by requester 7. -/
def context1 : Context :=
  { id := 1, vf := 1, prio := 3, requester := 7, budget := 0, save := 0, trq := 0, ringNext := 0, root := 0, nextRoot := none,
    directory := [], saved := [], pausedGroups := [], hallSeats := [] }

/-- Function 1, which has the rectangle of launch 1. -/
def vf1 : VirtualFunction :=
  { vf := 1, rects := [scopeForm 0 0 7 0], tcMask := 1, isSealed := false, key := none, credential := none, active := true, lp := [] }

/-- A package at cc 5,000 with context 1 and launch 1. -/
def base : State :=
  { State.reset with cycle := 5000, fresh := 100, contexts := [context1], launches := [launch1], vfs := [vf1], curCore := 3 }

/-- A core of the launch with its seat 0. -/
def core (c : Nat) (x : Seat) : Core := { Core.init c with seat0 := x, ctx := 1 }

/-- Seat 0 of core c issues. -/
def on (c : Nat) (k : Core) : State := { base with curCore := c, cores := [(c, k)] }

/-- Seat 0 of core 3 issues, with some x registers set. -/
def at3 (l : List (Nat × Word)) : State := on 3 (core 3 (seat 3 l))

/-- Seat 0 of hall core 0.0 issues. -/
def hall (l : List (Nat × Word)) : State := on 2048 { Core.init 2048 with seat0 := { seat 2048 l with hall := { HallRegs.zero with hctx := 1 } } }

/-- A line of NOPs at address 0, with the PC at its second head. -/
def nops (s : State) : State :=
  let t := s.placeOn s.curCore (packLine (List.replicate 4 ⟨1, 0⟩))
  t.setMe { t.me with regs := { t.me.regs with pc := 2 } }

/-- A flight that is due, from core 3 to core c. -/
def flight (c : Nat) (b : Body) : Flight :=
  { id := 5, due := 4000, src := 3, dst := c, lid := 1, cid := 9, seat := 0, tag := 21, ia := 16, cpc := 8, backoff := 64, body := b }

/-- The package with core k and one flight to it. -/
def arriving (k : Core) (c : Nat) (b : Body) : State := { on c k with flights := [flight c b] }

/-- An answer that is computed is that answer. -/
theorem ok_of {ε α : Type} [DecidableEq α] {e : Except ε α} {v : α}
    (h : (match e with | .ok a => decide (a = v) | .error _ => false) = true) : e = .ok v := by
  cases e with
  | ok a => simpa using h
  | error _ => cases h

/-- A refusal that is computed is that refusal. -/
theorem error_of {ε α : Type} [DecidableEq ε] {e : Except ε α} {v : ε}
    (h : (match e with | .error a => decide (a = v) | .ok _ => false) = true) : e = .error v := by
  cases e with
  | error a => simpa using h
  | ok _ => cases h

/-! ### Decoding -/

/-- Words of group control, written out from the fields of R24 to R29 and the numbers of R89 to R99. -/
theorem test_decode_control :
    decode 0x8001 0x0 = .ok (.nop true) ∧
    decode 0x2001 0xbeef = .ok (.nopT1 false 0xBEEF) ∧
    decode 0x4001 0xdeadbeef = .ok (.nopT2 false 0xDEADBEEF) ∧
    decode 0xe001 0x8000000000000001 = .ok (.nopT3 true 0x8000000000000001) ∧
    decode 0x4040 0xfffffff0 = .ok (.j false 0xFFFFFFF0) ∧
    decode 0xc0bf 0x100 = .ok (.jal true 63 0x00000100) ∧
    decode 0xff 0x0 = .ok (.jr false 63) ∧
    decode 0x410a 0x53ffffe0 = .ok (.beq false 10 20 33554416) ∧
    decode 0x414b 0x57ffffe2 = .ok (.bne false 11 21 33554417) ∧
    decode 0x418c 0x5bffffe4 = .ok (.blt false 12 22 33554418) ∧
    decode 0x41cd 0x5fffffe6 = .ok (.bge false 13 23 33554419) ∧
    decode 0x420e 0x63ffffe8 = .ok (.bltn false 14 24 33554420) ∧
    decode 0x424f 0x67ffffea = .ok (.bgen false 15 25 33554421) ∧
    decode 0x2289 0xfffe = .ok (.loop false 9 0xFFFE) ∧
    decode 0x82c0 0x0 = .ok (.hend true) ∧
    decode 0x300 0x0 = .ok (.chunk false) ∧
    decode 0x369 0x0 = .ok (.trap false 41) ∧
    decode 0x237f 0x1234 = .ok (.trapArg false 63 0x1234) ∧
    decode 0x380 0x0 = .ok (.sysret false) :=
  by and_intros <;> rfl

/-- Words of group integer registers, written out from the fields of R24 to R29 and the numbers of R89 to R99. -/
theorem test_decode_integer_registers :
    decode 0x2401 0x830 = .ok (.addR false 1 2 3 false) ∧
    decode 0x2442 0xc44 = .ok (.subR false 2 3 4 true) ∧
    decode 0x2483 0x1050 = .ok (.mulR false 3 4 5 false) ∧
    decode 0x24c4 0x1465 = .ok (.mulhR false 4 5 6 true true) ∧
    decode 0x2505 0x1870 = .ok (.divR false 5 6 7 false false) ∧
    decode 0x2546 0x1c84 = .ok (.remR false 6 7 8 true false) ∧
    decode 0x2587 0x2090 = .ok (.andR false 7 8 9 false) ∧
    decode 0x25c8 0x24a4 = .ok (.orR false 8 9 10 true) ∧
    decode 0x2609 0x28b0 = .ok (.xorR false 9 10 11 false) ∧
    decode 0x264a 0x2cc4 = .ok (.andnR false 10 11 12 true) ∧
    decode 0x268b 0x30d0 = .ok (.shlR false 11 12 13 false) ∧
    decode 0x26cc 0x34e4 = .ok (.shrR false 12 13 14 true) ∧
    decode 0x270d 0x38f0 = .ok (.sraR false 13 14 15 false) ∧
    decode 0x274e 0x3d04 = .ok (.minR false 14 15 16 true false) ∧
    decode 0x278f 0x4110 = .ok (.maxR false 15 16 17 false false) :=
  by and_intros <;> rfl

/-- Words of group integer immediates, written out from the fields of R24 to R29 and the numbers of R89 to R99. -/
theorem test_decode_integer_immediates :
    decode 0xc43c 0xc9200000 = .ok (.addI true 60 50 true 2097152) ∧
    decode 0xc47b 0xc4200001 = .ok (.subI true 59 49 false 2097153) ∧
    decode 0xc4ba 0xc1200002 = .ok (.mulI true 58 48 true 2097154) ∧
    decode 0xc4f9 0xbc600003 = .ok (.mulhI true 57 47 false true 2097155) ∧
    decode 0xc538 0xb9200004 = .ok (.divI true 56 46 true false 2097156) ∧
    decode 0xc577 0xb4200005 = .ok (.remI true 55 45 false false 2097157) ∧
    decode 0xc5b6 0xb1200006 = .ok (.andI true 54 44 true 2097158) ∧
    decode 0xc5f5 0xac200007 = .ok (.orI true 53 43 false 2097159) ∧
    decode 0xc634 0xa9200008 = .ok (.xorI true 52 42 true 2097160) ∧
    decode 0xc673 0xa4200009 = .ok (.andnI true 51 41 false 2097161) ∧
    decode 0xc6b2 0xa120000a = .ok (.shlI true 50 40 true 2097162) ∧
    decode 0xc6f1 0x9c20000b = .ok (.shrI true 49 39 false 2097163) ∧
    decode 0xc730 0x9920000c = .ok (.sraI true 48 38 true 2097164) ∧
    decode 0xc76f 0x9420000d = .ok (.minI true 47 37 false false 2097165) ∧
    decode 0xc7ae 0x9120000e = .ok (.maxI true 46 36 true false 2097166) ∧
    decode 0x47c5 0x18720000 = .ok (.sel false 5 6 7 8) :=
  by and_intros <;> rfl

/-- Words of group scalars, written out from the fields of R24 to R29 and the numbers of R89 to R99. -/
theorem test_decode_scalars :
    decode 0x2805 0xfffe = .ok (.li16 false 5 0xFFFE) ∧
    decode 0x4806 0x80000000 = .ok (.li32 false 6 0x80000000) ∧
    decode 0xe807 0x123456789abcdef = .ok (.li64 true 7 0x0123456789ABCDEF) ∧
    decode 0x4848 0xcafe0001 = .ok (.lih false 8 0xCAFE0001) ∧
    decode 0x2881 0x835 = .ok (.cmpR false 1 2 3 5) ∧
    decode 0x4881 0x93fffff = .ok (.cmpI false 1 2 4 0x3FFFFF) ∧
    decode 0x28c1 0x830 = .ok (.clz false 1 2 3) ∧
    decode 0x28c1 0x801 = .ok (.ctz false 1 2 0) ∧
    decode 0x28c3 0x1012 = .ok (.popc false 3 4 1) ∧
    decode 0x28c5 0x1823 = .ok (.sext false 5 6 2) ∧
    decode 0x28c7 0x2014 = .ok (.zext false 7 8 1) ∧
    decode 0x4901 0x8002000 = .ok (.bfx false 1 2 0 0 true) ∧
    decode 0x4941 0xa17c000 = .ok (.bfi false 1 2 33 31) ∧
    decode 0x2981 0x830 = .ok (.paddR false 1 2 3) ∧
    decode 0x4981 0x83ffff0 = .ok (.paddI false 1 2 0x3FFFF0) ∧
    decode 0x29c4 0x1460 = .ok (.psubR false 4 5 6) ∧
    decode 0x49c4 0x14000040 = .ok (.psubI false 4 5 64) ∧
    decode 0x4a01 0x9570000 = .ok (.ptag false 1 2 0x15 7) ∧
    decode 0x2a41 0x803 = .ok (.pget false 1 2 3) :=
  by and_intros <;> rfl

/-- Words of group scalar floats, written out from the fields of R24 to R29 and the numbers of R89 to R99. -/
theorem test_decode_scalar_floats :
    decode 0x6a81 0x830046400000000 = .ok (.fadd false 1 2 3 true 6 true) ∧
    decode 0x6a81 0x830081000000000 = .ok (.fsub false 1 2 3 false 1 false) ∧
    decode 0x6a81 0x830102400000000 = .ok (.fmul false 1 2 3 false 2 true) ∧
    decode 0x6a81 0x8301c0000000000 = .ok (.fmin false 1 2 3 true) ∧
    decode 0x6a81 0x830200000000000 = .ok (.fmax false 1 2 3 false) ∧
    decode 0x6ac1 0x831003000000000 = .ok (.ffma false 1 2 3 4 false 3 false) ∧
    decode 0x6b01 0x830040000000000 = .ok (.fdiv false 1 2 3 true 0 false) ∧
    decode 0x6b01 0x800084400000000 = .ok (.fsqrt false 1 2 false 4 true) ∧
    decode 0x2b41 0x835 = .ok (.fcmp false 1 2 3 2 true) ∧
    decode 0x6b81 0x80010140000000a = .ok (.fcvt false 1 2 4 1 true 10) ∧
    decode 0x2bc1 0x800 = .ok (.fclass false 1 2 false) :=
  by and_intros <;> rfl

/-- Words of group scalar memory, written out from the fields of R24 to R29 and the numbers of R89 to R99. -/
theorem test_decode_scalar_memory :
    decode 0x4c01 0x9800008 = .ok (.ld false 1 2 6 8) ∧
    decode 0x4c41 0x8fffff8 = .ok (.st false 1 2 3 0x3FFFF8) ∧
    decode 0x4c83 0x10000010 = .ok (.ldf false 3 4 16) ∧
    decode 0x4cc3 0x10000018 = .ok (.ldfe false 3 4 24) ∧
    decode 0x4d03 0x10000020 = .ok (.stf false 3 4 32) ∧
    decode 0x2d41 0x800 = .ok (.sete false 1 2) ∧
    decode 0x2d41 0x801 = .ok (.setf false 1 2) :=
  by and_intros <;> rfl

/-- Words of group counters, written out from the fields of R24 to R29 and the numbers of R89 to R99. -/
theorem test_decode_counters :
    decode 0x2d81 0x800 = .ok (.caddR false 1 2) ∧
    decode 0x4d81 0x1fffff = .ok (.caddI false 1 0x1FFFFF) ∧
    decode 0x2dc1 0x800 = .ok (.cread false 1 2) ∧
    decode 0x2e01 0x800 = .ok (.waitc false 1 2) ∧
    decode 0x2e41 0x800 = .ok (.cexpectR false 1 2) ∧
    decode 0x4e41 0x5 = .ok (.cexpectI false 1 5) ∧
    decode 0x2e81 0x800 = .ok (.bainitR false 1 2) ∧
    decode 0x4e81 0x6 = .ok (.bainitI false 1 6) ∧
    decode 0x2ec1 0x800 = .ok (.barrive false 1 2) ∧
    decode 0x2f01 0x800 = .ok (.badrop false 1 2) ∧
    decode 0x6f7f 0x420c00000000000 = .ok (.trigarm false 63 1 2 3) ∧
    decode 0x6f7e 0x40000000000 = .ok (.trigdis false 62) ∧
    decode 0x6f80 0x420c00000000000 = .ok (.mbcfg false 1 2 3) ∧
    decode 0x6f80 0x420040000000000 = .ok (.mbpost false 1 2) ∧
    decode 0x6f84 0x400080000000000 = .ok (.mbtake false 4 1) ∧
    decode 0x6fc1 0x831140000000000 = .ok (.lsamo false 1 2 3 4 5) :=
  by and_intros <;> rfl

/-- Words of group vector arithmetic, written out from the fields of R24 to R29 and the numbers of R89 to R99. -/
theorem test_decode_vector_arithmetic :
    decode 0x5001 0x83a9580 = .ok (.vadd false 1 2 3 10 4 5 true true) ∧
    decode 0x5041 0x83a9580 = .ok (.vsub false 1 2 3 10 4 5 true true) ∧
    decode 0x5081 0x83a9580 = .ok (.vmul false 1 2 3 10 4 5 true true) ∧
    decode 0x70c1 0x83122e000000080 = .ok (.vfma false 1 2 3 4 8 5 6 false true) ∧
    decode 0x5101 0x8378000 = .ok (.vmin false 1 2 3 7 4 false) ∧
    decode 0x515f 0x8308080 = .ok (.vmax false 31 2 3 0 4 true) ∧
    decode 0x5181 0x8006100 = .ok (.vabs false 1 2 0 3 true false) ∧
    decode 0x5181 0x80a6081 = .ok (.vneg false 1 2 10 3 false true) ∧
    decode 0x51c1 0x8372900 = .ok (.vdiv false 1 2 3 7 1 2 true false) ∧
    decode 0x5201 0x8082800 = .ok (.vrcp false 1 2 8 1 2 false false) ∧
    decode 0x5201 0x8092881 = .ok (.vrsq false 1 2 9 1 2 false true) ∧
    decode 0x5201 0x80a2902 = .ok (.vsqrt false 1 2 10 1 2 true false) ∧
    decode 0x5241 0x8080000 = .ok (.vexp2 false 1 2 8 0 0 false false) ∧
    decode 0x5241 0x8080001 = .ok (.vlog2 false 1 2 8 0 0 false false) ∧
    decode 0x5281 0x8368080 = .ok (.vand false 1 2 3 6 4 true) ∧
    decode 0x5281 0x8368081 = .ok (.vor false 1 2 3 6 4 true) ∧
    decode 0x5281 0x8368082 = .ok (.vxor false 1 2 3 6 4 true) ∧
    decode 0x5281 0x8368083 = .ok (.vandn false 1 2 3 6 4 true) ∧
    decode 0x52c1 0x8358000 = .ok (.vshl false 1 2 3 5 4 false) ∧
    decode 0x52c1 0x8358001 = .ok (.vshr false 1 2 3 5 4 false) ∧
    decode 0x52c1 0x8358002 = .ok (.vsra false 1 2 3 5 4 false) ∧
    decode 0x5307 0x83a8006 = .ok (.vcmp false 7 2 3 10 4 6) ∧
    decode 0x5341 0x83e8000 = .ok (.vsel false 1 2 3 14 4) ∧
    decode 0x53bc 0x80a9900 = .ok (.vred false 60 2 10 4 6 true 0) ∧
    decode 0x53c1 0x8046082 = .ok (.vscan false 1 2 4 3 0 false true 2) :=
  by and_intros <;> rfl

/-- Words of group vector data, written out from the fields of R24 to R29 and the numbers of R89 to R99. -/
theorem test_decode_vector_data :
    decode 0x5401 0xa0000080 = .ok (.vld false 1 40 128) ∧
    decode 0x5441 0xa03fff80 = .ok (.vst false 1 40 0x3FFF80) ∧
    decode 0x5481 0xa0000000 = .ok (.vldf false 1 40 0) ∧
    decode 0x54df 0xa0000100 = .ok (.vstf false 31 40 256) ∧
    decode 0x7501 0xa0302a0000000080 = .ok (.vgath false 1 40 3 10 4 true) ∧
    decode 0x7541 0xa030260000000000 = .ok (.vscat false 1 40 3 9 4) ∧
    decode 0x5581 0xfc0a4080 = .ok (.vbcast false 1 63 10 2 true) ∧
    decode 0x35ff 0x7fea = .ok (.vextr false 63 31 62 10) ∧
    decode 0x5601 0x83d8080 = .ok (.vperm false 1 2 3 13 4 true) ∧
    decode 0x5681 0xbfa8480 = .ok (.vscale false 1 2 63 10 4 1 false true) ∧
    decode 0x7641 0x80029d400000b83 = .ok (.vcvt false 1 2 10 3 5 true 11 true 3) ∧
    decode 0x76c1 0x800ec0000005a00 = .ok (.vqnt false 1 2 3 11 0 5 10) ∧
    decode 0x7701 0x800f61400006980 = .ok (.vdqnt false 1 2 3 13 4 1 true 6 9 true) ∧
    decode 0x7741 0x800019400380880 = .ok (.vcbdec false 1 2 3 1 true 56 8 true) ∧
    decode 0x7740 0x8400040000000000 = .ok (.vcbdecLoad false 33) ∧
    decode 0x5785 0x80d806a = .ok (.vclass false 5 2 13 4 true 0x2A) ∧
    decode 0x37c1 0x830 = .ok (.qand false 1 2 3) ∧
    decode 0x37c1 0x831 = .ok (.qor false 1 2 3) ∧
    decode 0x37c1 0x832 = .ok (.qxor false 1 2 3) ∧
    decode 0x37c1 0x803 = .ok (.qnot false 1 2) ∧
    decode 0x37c1 0x804 = .ok (.qmov false 1 2) ∧
    decode 0x37ff 0x805 = .ok (.qcnt false 63 2) :=
  by and_intros <;> rfl

/-- Words of group matrix, written out from the fields of R24 to R29 and the numbers of R89 to R99. -/
theorem test_decode_matrix :
    decode 0x580f 0x2bbf8000 = .ok (.mma false 15 1 2 14 63 true) ∧
    decode 0x5843 0xf8005000 = .ok (.mmag false 3 7 6 0 0 false 5) ∧
    decode 0x588e 0x29c10000 = .ok (.dmma false 7 1 2 1 false) ∧
    decode 0x38c7 0x400 = .ok (.ringcfg false 7 1) ∧
    decode 0x3906 0x800 = .ok (.rpub false 6 2) ∧
    decode 0x397f 0x5 = .ok (.rstat false 63 5) ∧
    decode 0x1984 0x0 = .ok (.rreset false 4) ∧
    decode 0x19cf 0x0 = .ok (.accz false 15) ∧
    decode 0x5a1f 0x3c0001e = .ok (.accrd false 31 15 30) ∧
    decode 0x5a5e 0x380001f = .ok (.accwr false 30 14 31) ∧
    decode 0x3a8f 0xfc00 = .ok (.accscl false 15 63) ∧
    decode 0x1acf 0x0 = .ok (.mwake false 15) ∧
    decode 0x3b09 0xf800 = .ok (.mgate false 9 62) ∧
    decode 0x3b41 0xa = .ok (.sclcfg false 1 true 2) ∧
    decode 0x1bbf 0x0 = .ok (.mwait false 63) :=
  by and_intros <;> rfl

/-- Words of group engines, written out from the fields of R24 to R29 and the numbers of R89 to R99. -/
theorem test_decode_engines :
    decode 0x5c01 0xed40003f = .ok (.send false 1 59 5 63) ∧
    decode 0x7c41 0x8310000feff0000 = .ok (.bqfetch false 1 2 3 4 254 255) ∧
    decode 0x7c41 0x831040000010000 = .ok (.bqstore false 1 2 3 4 0 1) ∧
    decode 0x7c41 0x831080005060000 = .ok (.bqtile false 1 2 3 4 5 6) ∧
    decode 0x7c41 0x8310c0005060000 = .ok (.bqgath false 1 2 3 4 5 6) ∧
    decode 0x7c41 0x830100004050007 = .ok (.bqamo false 1 2 3 4 5 7) ∧
    decode 0x7c41 0x831140005060000 = .ok (.bqcas false 1 2 3 4 5 6) ∧
    decode 0x7c80 0x831000005060000 = .ok (.lscopy false 2 3 4 5 6) ∧
    decode 0x7c80 0x831040005060abc = .ok (.xcopy false 2 3 4 5 6 0xABC) ∧
    decode 0x3cc0 0x5fe0 = .ok (.fence false 2 3 63) ∧
    decode 0x3d01 0x800 = .ok (.tagalloc false 1 2) ∧
    decode 0x3d00 0x831 = .ok (.tagfree false 2 3) ∧
    decode 0x3d01 0x802 = .ok (.tagbind false 1 2) ∧
    decode 0x7d41 0x7000100000000000 = .ok (.meet false 1 28 4) ∧
    decode 0x7f40 0x14000c0000000210 = .ok (.rfcfg false 5 3 2 16) ∧
    decode 0x7fc7 0x420c0000000000f = .ok (.winset false 7 1 2 3 15) ∧
    decode 0x7fc6 0x40000000000 = .ok (.winclr false 6) :=
  by and_intros <;> rfl

/-- Words of group experts groups tasks, written out from the fields of R24 to R29 and the numbers of R89 to R99. -/
theorem test_decode_experts_groups_tasks :
    decode 0x7d81 0x831000000000000 = .ok (.exroute false 1 2 3 4) ∧
    decode 0x7d81 0x830040000000000 = .ok (.exrepl0 false 1 2 3) ∧
    decode 0x7d81 0x831040000000001 = .ok (.exrepl1 false 1 2 3 4) ∧
    decode 0x7d81 0x830080000000000 = .ok (.exretire0 false 1 2 3) ∧
    decode 0x7d81 0x830080000000001 = .ok (.exretire1 false 1 2 3) ∧
    decode 0x7d81 0x8000c0000000000 = .ok (.exstep0 false 1 2) ∧
    decode 0x7d81 0x8300c0000000001 = .ok (.exstep1 false 1 2 3) ∧
    decode 0x7d81 0x830100000000000 = .ok (.exstat false 1 2 3) ∧
    decode 0x7d81 0x830140000000000 = .ok (.exlook false 1 2 3) ∧
    decode 0x7dc1 0x830000000000000 = .ok (.gfork false 1 2 3) ∧
    decode 0x7dc0 0x830040000000000 = .ok (.greward false 2 3) ∧
    decode 0x7dc0 0x830080000000000 = .ok (.gcancel false 2 3) ∧
    decode 0x7dc1 0x8000c0000000000 = .ok (.gcfgConfigure false 1 2) ∧
    decode 0x7dc1 0x300c0000000000 = .ok (.gcfgRelease false 1 3) ∧
    decode 0x7dc1 0x830100000000000 = .ok (.gstat false 1 2 3) ∧
    decode 0x3e01 0x800 = .ok (.tspawn false 1 2) ∧
    decode 0x3e01 0x831 = .ok (.tspawnat false 1 2 3) ∧
    decode 0x5e41 0x3f = .ok (.qpush false 1 63) ∧
    decode 0x5e41 0x840003e = .ok (.qpop false 1 2 62) ∧
    decode 0x3e81 0x0 = .ok (.wlpush false 1) ∧
    decode 0x3e81 0x801 = .ok (.wlpop false 1 2) :=
  by and_intros <;> rfl

/-- Words of group system, written out from the fields of R24 to R29 and the numbers of R89 to R99. -/
theorem test_decode_system :
    decode 0x5ec1 0x1 = .ok (.sysr false 1 0x001) ∧
    decode 0x5ec1 0x400200 = .ok (.sysw false 1 0x200) ∧
    decode 0x5ec1 0x400207 = .ok (.sysw false 1 0x207) ∧
    decode 0x5ec1 0x400009 = .ok (.seedWrite false 1) ∧
    decode 0x5f01 0x5 = .ok (.capr false 1 0x005) ∧
    decode 0x3f81 0x800 = .ok (.tlbinv false 1 2) ∧
    decode 0x3f81 0x831 = .ok (.ctxsave false 1 2 3) ∧
    decode 0x3f81 0x832 = .ok (.ctxload false 1 2 3) ∧
    decode 0x3f81 0x833 = .ok (.lpmap false 1 2 3) ∧
    decode 0x3f81 0x834 = .ok (.vfcfgConfigure false 1 2 3) :=
  by and_intros <;> rfl

/-! ### Terms that a check refuses -/

/-- A term that each check of an instruction's fields refuses (R27, R30, R87): each check once, the reserved rounding code in
every form, and the limits of every range. -/
theorem test_ill_formed_terms :
    [ (.cmpR false 1 2 3 6 : Instr), .cmpI false 1 2 7 0, .sext false 1 2 3, .zext false 1 2 3, .bfx false 1 2 63 2 false,
      .bfi false 1 2 1 0, .fadd false 1 2 3 false 7 false, .ffma false 1 2 3 4 false 7 false, .fsqrt false 1 2 false 7 false,
      .fcvt false 1 2 4 0 false 3, .fcvt false 1 2 10 7 false 7, .ld false 1 2 7 0, .lsamo false 1 2 3 4 0, .lsamo false 1 2 3 0 11,
      .vadd false 1 2 3 11 0 0 false false, .vadd false 1 2 3 10 0 7 false false, .vmin false 1 2 3 11 0 false,
      .vabs false 1 2 1 0 false false, .vdiv false 1 2 3 6 0 0 false false, .vrcp false 1 2 7 0 0 false false,
      .vexp2 false 1 2 11 0 0 false false ].map Instr.wf = List.replicate 21 false ∧
    [ (.vand false 1 2 3 7 0 false : Instr), .vcmp false 1 2 3 11 0 0, .vcmp false 1 2 3 0 0 6, .vsel false 1 2 3 15 0,
      .vred false 1 2 11 0 0 false 0, .vscan false 1 2 0 0 0 false false 3, .vgath false 1 2 3 11 0 false, .vscat false 1 2 3 11 0,
      .vbcast false 1 2 11 0 false, .vextr false 1 2 3 11, .vperm false 1 2 3 15 0 false, .vcvt false 1 2 15 0 0 false 10 false 0,
      .vcvt false 1 2 9 0 7 false 10 false 0, .vscale false 1 2 3 6 0 0 false false, .vqnt false 1 2 1 11 0 4 10,
      .vqnt false 1 2 3 10 0 4 10, .vqnt false 1 2 3 0 1 4 10, .vdqnt false 1 2 3 11 0 7 false 4 10 false,
      .vdqnt false 1 2 3 0 0 6 false 4 10 false, .vcbdec false 1 2 0 0 false 63 8 false,
      .vcbdec false 1 2 0 0 false 0 11 false, .vclass false 1 2 6 0 false 0 ].map Instr.wf = List.replicate 22 false ∧
    [ (.mma false 1 2 3 7 1 false : Instr), .mmag false 1 2 3 0 1 false 6, .send false 1 57 9 0, .bqamo false 1 2 3 4 5 5,
      .fence false 6 0 0, .fence false 0 0 1, .meet false 1 30 3, .gcfgConfigure false 1 0, .gcfgRelease false 1 0,
      .sysr false 1 0x00C, .sysw false 1 9, .capr false 1 7, .rfcfg false 1 0 1 1, .rfcfg false 1 0 0 17, .parkPoint 2064 0, .parkPoint 0 4,
      .coreSave 2064 ].map Instr.wf = List.replicate 17 false := by
  decide +kernel

/-! ### The worked examples of the spec -/

/-- x[d] after an instruction. -/
def written (i : Instr) (s : State) (d : BitVec 6) : Option Word :=
  match exec i s with
  | .next t => some (t.x d)
  | _ => none

/-- The group result of an instruction: its value and the flags it brings. -/
def result (i : Instr) (s : State) : Option (Nat × Nat) :=
  match exec i s with
  | .next t => t.me.results.getLast?.map (fun r => (r.val.toNat, r.nf.toNat))
  | _ => none

/-- Seat 0 of core 7, which has F64, with x5, x6 and x7. -/
def at7 (a b c : Word) : State := on 7 (core 7 (seat 7 [(5, a), (6, b), (7, c)]))

/-- A vector of lanes of w bits. -/
def lanes (w : Nat) (l : List Nat) : Vec := BitVec.ofNat 1024 (l.foldr (fun a r => a + r * 2 ^ w) 0)

/-- The same seat with v1, v2 and q3. -/
def with7 (a b : Vec) (q : Mask) : State :=
  let s := at7 0 0 0
  s.setMe { s.me with regs := { s.me.regs with v := (s.me.regs.v.set 1 a).set 2 b, q := s.me.regs.q.set 3 q } }

/-- The lanes of a value. -/
def split (w n : Nat) (v : Nat) : List Nat := (List.range n).map (fun i => v / 2 ^ (w * i) % 2 ^ w)

/-- The lanes of an instruction's group result, with its flags. -/
def laneResult (w n : Nat) (i : Instr) (s : State) : Option (List Nat × Nat) := (result i s).map (fun r => (split w n r.1, r.2))

/-- "Integer edge cases" (R114 to R117), the immediate ones. -/
theorem test_integer_edges :
    written (.addI false 4 5 true 1) (at7 0x7FFFFFFF 0 0) 4 = some 0xFFFFFFFF80000000 ∧
    written (.subR false 4 5 6 false) (at7 0 1 0) 4 = some (BitVec.allOnes 64) ∧
    written (.shrI false 4 5 true 4) (at7 0x80000000 0 0) 4 = some 0x08000000 ∧
    written (.sraI false 4 5 true 4) (at7 0x80000000 0 0) 4 = some 0xFFFFFFFFF8000000 ∧
    written (.shlR false 4 5 6 false) (at7 3 64 0) 4 = some 3 ∧
    written (.minR false 4 5 6 false false) (at7 (-1) 5 0) 4 = some (-1) ∧
    written (.minR false 4 5 6 false true) (at7 (-1) 5 0) 4 = some 5 ∧
    written (.maxI false 4 5 false true 0x3FFFFF) (at7 7 0 0) 4 = some (BitVec.allOnes 64) := by decide +kernel

/-- The same, the group results. -/
theorem test_integer_group_edges :
    result (.mulhR false 4 5 6 false false) (at7 0x8000000000000000 2 0) = some (2 ^ 64 - 1, 0) ∧
    result (.mulhR false 4 5 6 false true) (at7 0x8000000000000000 2 0) = some (1, 0) ∧
    result (.mulR false 4 5 6 true) (at7 0x1234567800010000 0x00010000 0) = some (0, 0) ∧
    result (.divR false 4 5 6 false false) (at7 (-7) 2 0) = some (2 ^ 64 - 3, 0) ∧
    result (.remR false 4 5 6 false false) (at7 (-7) 2 0) = some (2 ^ 64 - 1, 0) ∧
    result (.divR false 4 5 6 false false) (at7 0x8000000000000000 (-1) 0) = some (2 ^ 63, 0) ∧
    result (.divR false 4 5 6 false true) (at7 5 0 0) = some (2 ^ 64 - 1, 0) ∧
    result (.remR false 4 5 6 false true) (at7 5 0 0) = some (5, 0) := by decide +kernel

/-- "One field out, one field in" (R121, R122). -/
theorem test_bit_fields :
    written (.bfx false 4 5 8 12 true) (at7 0xABCDEF 0 0) 4 = some 0xFFFFFFFFFFFFFBCD ∧
    written (.bfx false 4 5 8 12 false) (at7 0xABCDEF 0 0) 4 = some 0xBCD ∧
    written (.bfi false 6 5 4 8) (at7 0xABCDEF 0 0) 6 = some 0xEF0 ∧
    written (.bfx false 4 5 0 0 false) (at7 0xABCDEF 0 0) 4 = some 0xABCDEF := by decide +kernel

/-- "Three pointers" (R47, R52), and PGET of the second (R125). -/
theorem test_pointers :
    chipPtr 133 1 0x70 = 0x00110A2000000070 ∧
    (List.range 4).map (fun k => written (.pget false 4 5 (BitVec.ofNat 2 k)) (at7 0x4960000000008000 0 0) 4) =
      [some 0x12, some 5, some 2, some 0x8000] ∧
    written (.addR false 4 5 6 false) (at7 0x000FFFFFFFFFFFF0 0x20 0) 4 = some 0x0010000000000010 := by decide +kernel

/-- The state of the seat after an instruction. -/
def seatState (i : Instr) (s : State) : Option SeatState :=
  match exec i s with
  | .next t => some t.me.st
  | _ => none

/-- PADD past the end of a space raises pointer-overflow: the seat is trapped, and nothing is written (R50, R210). -/
theorem test_pointer_overflow :
    seatState (.paddR false 4 5 6) (at7 0x000FFFFFFFFFFFF0 0x20 0) = some .trapped ∧
    written (.paddR false 4 5 6) (at7 0x000FFFFFFFFFFFF0 0x20 0) 4 = some 0 := by decide +kernel

/-- "Fused against separate" (R127, R128). -/
theorem test_fused :
    result (.ffma false 4 5 6 7 false 0 false) (at7 0x3F800800 0x3F800800 0xBF801000) = some (0x33800000, 0) ∧
    result (.fmul false 4 5 6 false 0 false) (at7 0x3F800800 0x3F800800 0) = some (0x3F801000, 16) ∧
    result (.fadd false 4 5 6 false 0 false) (at7 0x3F801000 0xBF801000 0) = some (0, 0) := by decide +kernel

/-- "Float to integer" (R70, R131). -/
theorem test_float_to_integer :
    result (.fcvt false 4 5 4 1 false 7) (at7 0xC004000000000000 0 0) = some (2 ^ 64 - 2, 16) ∧
    result (.fcvt false 4 5 4 0 false 7) (at7 0xC004000000000000 0 0) = some (2 ^ 64 - 2, 16) ∧
    result (.fcvt false 4 5 4 4 false 7) (at7 0xC004000000000000 0 0) = some (2 ^ 64 - 3, 16) ∧
    result (.fcvt false 4 5 4 1 false 7) (at7 0x41EB917364000000 0 0) = some (0x7FFFFFFF, 1) ∧
    result (.fcvt false 4 5 4 1 false 7) (at7 0x7FF8000000000000 0 0) = some (0, 1) := by decide +kernel

/-- "Stochastic rounding of F32 to BF16" (R67), after one step of SEED from 1. -/
theorem test_stochastic_rounding :
    seedStep 1 = 0x40822041 ∧
    convertLane 10 9 ⟨5, false, 1⟩ 0x3F80E000 1 = ⟨0x3F81, 16, 0x40822041⟩ := by decide +kernel

/-- "F32 to E4M3" (R68, R69, R71), sat 0 and then 1. -/
theorem test_f32_to_e4m3 :
    [0x43960000, 0x43E00000, 0x43FA0000, 0x7F800000, 0x3A000000].map (fun b =>
      [false, true].map (fun sat =>
        let o := convertLane 10 11 ⟨0, sat, 0⟩ b 0
        (o.bits, o.flags.toNat))) =
    [[(0x79, 16), (0x79, 16)], [(0x7E, 0), (0x7E, 0)], [(0x7F, 20), (0x7E, 20)], [(0x7F, 1), (0x7E, 1)], [(0, 24), (0, 24)]] := by
  decide +kernel

/-- "Decoding a CB16 word" (R64): the eight weights in F32. -/
theorem test_cb16_word :
    let table : List Byte :=
      List.replicate 20 0 ++ [0x17, 0x32, 0x54, 0x76] ++ List.replicate 2024 0 ++ [0, 0x30, 0x38, 0x3C, 0x40, 0x44, 0x48, 0x4C] ++
        List.replicate 8 0
    (List.range 8).map (fun j => nearest f32 (weight table 0x0283 j).asInput) =
      [0xC0C00000, 0xBF000000, 0x3F800000, 0x3FC00000, 0x40000000, 0x40400000, 0x40800000, 0x40C00000] := by decide +kernel

/-- "The sticky bit" (R83): the cell of a BF16 step, and one of 32 products of 1.0 and 0.5. -/
theorem test_matrix_cells :
    (stepCell 9 0x3F800000 [decodeFp bf16 0x3980, decodeFp bf16 0x2E00] [decodeFp bf16 0x3980, decodeFp bf16 0xAE00]).1 =
      0x3F800001 ∧
    (stepCell 9 0 (List.replicate 32 (decodeFp bf16 0x3F80)) (List.replicate 32 (decodeFp bf16 0x3F00))).1 = 0x41800000 := by
  decide +kernel

/-- "Tree against sequence" (R75, R76, R148, R149). -/
theorem test_tree_and_sequence :
    let s := with7 0 (lanes 32 [0x4B800000, 0x3F800000, 0x3F800000, 0xCB800000]) 0xF
    result (.vred false 4 2 10 3 0 false 0) s = some (0x3F800000, 16) ∧
    laneResult 32 4 (.vscan false 5 2 10 3 0 false false 0) s = some ([0x4B800000, 0x4B800000, 0x4B800000, 0], 16) := by
  decide +kernel

/-- "Wrapping and saturating lanes" (R55, R137 to R142). -/
theorem test_saturating_lanes :
    [false, true].map (fun sat => [
        laneResult 8 1 (.vadd false 3 1 2 0 0 0 sat false) (with7 0x64 0x64 0),
        laneResult 8 1 (.vadd false 3 1 2 1 0 0 sat false) (with7 0xC8 0x64 0),
        laneResult 8 1 (.vsub false 3 1 2 1 0 0 sat false) (with7 0x05 0x0A 0),
        laneResult 16 1 (.vmul false 3 1 2 2 0 0 sat false) (with7 0x012C 0x012C 0),
        laneResult 8 1 (.vabs false 3 1 0 0 sat false) (with7 0x80 0 0)]) =
      [[some ([0xC8], 0), some ([0x2C], 0), some ([0xFB], 0), some ([0x5F90], 0), some ([0x80], 0)],
       [some ([0x7F], 0), some ([0xFF], 0), some ([0x00], 0), some ([0x7FFF], 0), some ([0x7F], 0)]] := by decide +kernel

/-- "Quantising two blocks to E4M3" (R162, R163), and back. -/
theorem test_quantising :
    let b0 := [0x447A0000, 0x40400000, 0xBDCCCCCD] ++ List.replicate 13 0
    let s := with7 (lanes 32 (b0 ++ [0x3F400000])) 0 0
    (match exec (.vqnt false 3 1 4 11 0 4 10) s with
     | .next t => t.me.results.map (fun r => (r.reg, split 8 17 r.val.toNat, r.nf.toNat))
     | _ => []) =
      [(some (.v 3), [0x7E, 0x3C, 0x95] ++ List.replicate 13 0 ++ [0x7C], 20),
       (some (.v 4), [0x80, 0x76] ++ List.replicate 15 0, 0)] ∧
    laneResult 32 17 (.vdqnt false 3 1 2 11 0 0 false 4 10 false)
        (with7 (lanes 8 ([0x7E, 0x3C, 0x95] ++ List.replicate 13 0 ++ [0x7C])) 0x7680 0) =
      some ([0x44600000, 0x40400000, 0xBDD00000] ++ List.replicate 13 0 ++ [0x3F400000], 0) := by decide +kernel

/-- A barrier counter after operations, as value, next, pending and early; none after a refused one. -/
def phases : Counter → List CounterOp → List (Option (Nat × Nat × Nat × Nat))
  | _, [] => []
  | c, op :: r =>
    match c.apply op with
    | .ok d => some (d.value.toNat, d.next, d.pending, d.early) :: phases d r
    | .error _ => none :: phases c r

/-- "Three members, an early drop and a late arrival" (R231). -/
theorem test_barrier_phases :
    phases ⟨0, 0⟩ [.bainit 3, .arrive 0, .arrive 1, .arrive 0, .drop 1, .arrive 0, .arrive 1, .drop 2, .drop 2, .arrive 3] =
      [some (0, 3, 3, 0), some (0, 3, 2, 0), some (0, 3, 2, 1), some (0, 3, 1, 1), some (0, 2, 1, 1), some (1, 2, 1, 0),
       some (2, 2, 2, 0), some (2, 1, 1, 0), some (3, 0, 0, 0), none] := by decide +kernel

/-- "An add and a swap meeting at one word" (R255). -/
theorem test_owner_atomics :
    amoResult 1 0x3F800000 0x3F000000 0 = 0x3FC00000 ∧ amoResult 5 0x3FC00000 0x40000000 0x3F800000 = 0x3FC00000 ∧
    amoResult 5 0x3F800000 0x40000000 0x3F800000 = 0x40000000 ∧ amoResult 1 0x40000000 0x3F000000 0 = 0x40200000 := by decide +kernel

/-- "An ordered join against its arrival order" (R314, R321): the router, and the folds in party order. -/
theorem test_ordered_join :
    routerOf (scopeForm 0 0 7 3) 0x123 = 64 + 7 ∧
    meetFold 0 (meetFold 0 0x4B800000 0x3F800000) 0x3F800000 = 0x4B800000 := by decide +kernel

/-- "A group with a cancel and an infinite reward" (R356, R357): its words, its status and its handle. -/
theorem test_group_advantages :
    let g : GroupSlot :=
      { GroupSlot.free with
        state := 2, c3 := 6 * 256 + 4 * 65536 + 7, nonFinite := true,
        siblings := [(1, 0x40000000), (1, 0x40800000), (1, 0x40800000), (1, 0x40C00000), (2, 0), (3, 0)] }
    g.words = [0xBFB504F3, 0, 0, 0x3FB504F3, 0x100000000, 0x300000000] ∧ g.status 0 = 0x0000040002800000 ∧ groupHandle 66 0 0 = 0x0000000400000042 := by decide +kernel

/-- "A line filled to the brim" (R20, R21): eight heads and no END, and a malformed eighth. -/
theorem test_full_line :
    let six : List Words := List.replicate 6 ⟨0x6001, 0x1122334455667788⟩
    let full := packLine (six ++ [⟨1, 0⟩, ⟨1, 0⟩])
    (lineSlot full 10 = some (.words ⟨0x6001, 0x1122334455667788⟩)) ∧ (lineSlot full 14 = some (.words ⟨1, 0⟩)) ∧
    lineSlot full 16 = none ∧
    lineSlot ((full.take 14) ++ [0x01, 0x20] ++ full.drop 16) 14 = some (.malformed 0x2001) := by decide +kernel

/-- "A call, a divide and a return" (R18 to R20): the heads and tails of its line, byte by byte. -/
theorem test_packed_line :
    packLine [⟨0x2801, 0xFFF9⟩, ⟨0x2802, 2⟩, ⟨0x2809, 0x400⟩, ⟨0x40BF, 8⟩, ⟨0x4C43, 0x24C00000⟩, ⟨0x4C44, 0x24C00008⟩, ⟨0x02C0, 0⟩,
        ⟨0x2503, 0x0420⟩, ⟨0xA544, 0x0420⟩, ⟨0x00FF, 0⟩] =
      [0x01, 0x28, 0x02, 0x28, 0x09, 0x28, 0xBF, 0x40, 0x43, 0x4C, 0x44, 0x4C, 0xC0, 0x02, 0x03, 0x25, 0x44, 0xA5, 0xFF, 0x00] ++
      List.replicate 22 0 ++
      [0x20, 0x04, 0x20, 0x04, 0x08, 0x00, 0xC0, 0x24, 0x00, 0x00, 0xC0, 0x24, 0x08, 0x00, 0x00, 0x00, 0x00, 0x04, 0x02, 0x00,
       0xF9, 0xFF] ∧
    decode 0x00FF 0 = .ok (.jr false 63) ∧ decode 0x4C44 0x24C00008 = .ok (.st false 4 9 3 8) := ⟨by decide +kernel, rfl, rfl⟩

/-- "Retiring (5,3)" (R466, R470): the nearest free spare of its die. -/
theorem test_nearest_spare : State.reset.spareFor (physicalOf 197) = some (16 * 32 + 5) := by decide +kernel

/-- A block under a key of 32 bytes and back, from the published example of the cipher that R482 names (PRESUMED log 103). -/
theorem test_cipher :
    let keys := roundKeys ((List.range 32).map (BitVec.ofNat 8))
    let plain := (List.range 16).map (fun i => BitVec.ofNat 8 (17 * i))
    let secret : List Byte := [0x8E, 0xA2, 0xB7, 0xCA, 0x51, 0x67, 0x45, 0xBF, 0xEA, 0xFC, 0x49, 0x90, 0x4B, 0x49, 0x60, 0x89]
    encryptBlock keys plain = secret ∧ decryptBlock keys secret = plain := by decide +kernel

/-! ### More small states, and witnesses of the hypotheses of every statement -/

/-- Ring 2 with one published slot of 2,048 bytes that ends at 0x8000. -/
def ringed : Vector Ring 8 :=
  (Vector.replicate 8 Ring.init).setIfInBounds 2 { Ring.init with base := 0x7800, shape := 1, cfg := true, ready := 1, tail := 1, pubs := 1 }

/-- An ACCZ in the matrix queue, of a seat. -/
def accz (n : Nat) : MatrixEntry := { id := 1, seat := n, ia := 0, op := .accz 2, done := 0, gang := 0, readyAt := 0 }

/-- A store with some bytes at address 64 of core 3, all of whose words are full. -/
def filled (n : Nat) : Core :=
  { core 3 (seat 3 [(5, 64)]) with store := [(64, 1), (71, 0x80)], full := (List.range n).map (fun k => 64 + 8 * k) }

/-- The seat with the read filter of a load of n bytes at its pointer (R275). -/
def loaded (s : State) (a n : Nat) : State :=
  match noteRead s a n with
  | .ok t => t
  | .error _ => s

/-- Core 3 with a store that holds some words from address 64 on. -/
def words (l : List Word) (x : Seat) : Core := { core 3 x with store := Mem.write [] 64 (l.flatMap wordBytes) }

/-- A valid handle of a sample group of core 3, slot 1. -/
def handle : Word := BitVec.ofNat 64 (2 ^ 34 + 2 ^ 27 + 3)

/-- The undecided trap of seat 3 of core 3. -/
def ticket3 : Ticket := { id := 1, core := 3, seat := 3, ctx := 1, record := none }

/-- The hall thread of context 1, which has still to start. -/
def thread1 : HallThread :=
  { ctx := 1, prio := 3, cid := 0, ready := true, record := none, kept := none, saved := [], place := none, since := 0 }

/-- The same thread where it runs. -/
def thread2 : HallThread := { thread1 with cid := 9, ready := false, place := some (2048, 3) }

/-- A record of launch 1 that starts at address 64. -/
def rec (w0 : Word) : Record := { Record.zero with w0 := w0 + 64, w1 := 2048 }

/-- A seat in some state, for core 3. -/
def seatIn (st : SeatState) : Seat := { seat 3 [] with st := st }

/-- A chunk at its boundary, before its grant. -/
def ending : Seat := { seatIn .committing with started := true, startAt := 4999, boundary := some .chunk }

/-- A finished speculative task, the least of its launch. -/
def finishedTask : Seat :=
  { ending with boundary := some .hend,
                task := some { stamp := 1, spawnId := 0, inPlace := false, finished := true, readSig := 0, writeSig := 0 } }

/-- A chunk whose place has been granted. -/
def granted (b : Boundary) : Seat := { seatIn .committing with granted := true, startAt := 4999, boundary := some b }

/-- An idle core of the launch. -/
def idle (c : Nat) : Core := { Core.init c with ctx := 1 }

/-- Launch 1 with n records in the priority queue of larder 0. -/
def fullLarder (n : Nat) : Launch := { launch1 with prio0 := List.replicate n { larder := 0, record := rec 0 } }

/-- Its length at larder 0. -/
theorem fullLarder_queue (n : Nat) : (fullLarder n).queue 0 none = n := by simp [fullLarder, Launch.queue, launch1, Launch.start]

/-- A message of launch 1 for handler 0. -/
def message1 : Message := { hid := 0, words := [7], src := 4, seq := 1, lid := 1, clip := none }

/-- Launch 1 with handler 0 at address 128, and a record in the first priority class. -/
def launch2 : Launch :=
  { launch1 with handlers := [128], prio0 := [{ larder := 0, record := rec 0 }], fifos := [((0, 63), [rec 0])] }

/-- A seat transfer between core 3 and core 7. -/
def transfer (retired : Bool) : Transfer :=
  { regs := regs [], record := rec 0, cid := 9, deferred := [], core := 3, seat := 0, target := 7, lastCommit := none, task := none,
    retired := retired, trap := none, more := 0 }

/-- A barrier counter: value, early, pending, next (R228). -/
def barrierAt (v : Word) (early pending next : Nat) : Counter :=
  { value := v, shadow := BitVec.ofNat 64 (2 ^ 60 + early * 2 ^ 40 + pending * 2 ^ 20 + next) }

/-- Core 3 with counter 254 at a value. -/
def counting (v : Counter) : Core := { core 3 (seat 3 []) with counters := (Vector.replicate 256 ⟨0, 0⟩).setIfInBounds 254 v }

/-- Trigger 63 armed on counter 1. -/
def armed : Vector Trigger 64 :=
  (Vector.replicate 64 ⟨false, 0, 0, 0, 0⟩).setIfInBounds 63 { armed := true, idx := 1, thr := 9, record := 64, lid := 1 }

/-- A record parked on counter 1. -/
def awaiting : Record := rec 0

/-- An engine command of core 3. -/
def command (kind : EngineKind) (b c d : Word) : EngineCmd := { kind := kind, b := b, c := c, d := d, dc := 254, sc := 254, home := 3 }

/-- A packet that has its place and its time. -/
def packet (src dst : Place) (data : Option (List Nat)) (code : Option Nat) : Packet :=
  { key := 1, moves := [{ src := src, dst := dst, bits := 64, got := none }], page := some 0, frame := some 0, data := data, sentAt := 0,
    late := false, waiting := false, begun := false, code := code, bits := 64, due := 0 }

/-- An entry of core 3 with some packets. -/
def entry (cmd : EngineCmd) (added : Bool) (ps : List Packet) : BqEntry :=
  { id := 6, cmd := cmd, tag := 21, cid := 9, seat := 0, lid := 1, ctx := 1, mig := false, ia := 0, cpc := 0, packets := ps, entryCode := none,
    clipped := false, clip := none, owner := 3, srcAdded := added }

/-- Core 3 with an entry in its block queue. -/
def queueing (e : BqEntry) : Core := { core 3 (seat 3 []) with bq := [e] }

/-- A command with its device pointer. -/
def fetchCmd : EngineCmd := command .fetch 0x0020000000000000 64 8

/-- A read packet that is yet to read. -/
def toRead : Packet := packet (.ptr 0x0020000000000000 0) (.ptr 64 0) none none

/-- The same once it has read. -/
def toLand : Packet := packet (.ptr 0x0020000000000000 0) (.ptr 0x7FFF8 0) (some [7]) none

/-- A packet that has landed. -/
def landed' : Packet := packet (.ptr 0x0020000000000000 0) (.ptr 64 0) (some [7]) (some 0)

/-- A streamer atomic on a word of device memory. -/
def atomic : BqEntry := entry (command (.amo 0) 0x0020000000000000 1 0) false [packet (.ptr 0x0020000000000000 0) .zero none none]

/-- The same once its line has been mended. -/
def mended : BqEntry :=
  { atomic with packets := [{ packet (.ptr 0x0020000000000000 0) .zero none none with data := some [], late := true }] }

/-- A leaf for the lowest page: valid, readable, writable and executable. -/
def leaf : Word := 0x1D

/-- Core 3 with the lowest page in its cache, waiting for the head at 72, with the time at which its line is there. -/
def fetching (due : Nat) : Core :=
  { core 3 { seat 3 [] with st := .stalled } with lineWaits := [⟨0, 72, some 64, due⟩], tlb := [{ ctx := 1, vf := 1, base := 0, size := 4096, entry := leaf }] }

/-- The line that core 3 waits for fails its check, in a guarded region. -/
def failing : State := { on 3 (fetching 4000) with badLines := [64], guards := [0] }

/-- A walk for packet 1 of entry 6, with page tables at address 0 whose every level is one page. -/
def walk1 : Walk := { id := 8, core := 3, ctx := 1, vf := 1, va := 0, access := 0, purpose := .packet 3 6 1, held := false, readyAt := 5000 }

/-- The package in which it runs: three table levels and a leaf. -/
def walking : State :=
  { on 3 (queueing (entry fetchCmd false [{ toRead with frame := none }])) with
    walks := [walk1], dram := [(0, 3), (1, 0x10), (4096, 3), (4097, 0x20), (8192, 3), (8193, 0x30), (12288, 0x1D)] }

/-- A round of two members whose result is due. -/
def round1 : Round := { id := 4, ctx := 1, rect := scopeForm 0 0 1 0, members := [0, 1], items := [(0, (0, 0, 16), []), (1, (0, 0, 16), [])], dueAt := some 5000 }

/-- A package with one flight has none before it. -/
theorem alone {k : Core} {c d : Nat} {b b' : Body} {p : Flight → Prop} :
    ∀ g ∈ (arriving k c b).flights, g.id < (flight d b').id → p g := by
  intro g hg h
  simp only [arriving, List.mem_singleton] at hg
  subst hg
  exact absurd h (Nat.lt_irrefl 5)

/-- A bind for a meeting of two parties whose targets are on core 3. -/
def bind1 (tmo : Nat) : Bind :=
  { dest := chipPtr 3 0 0, stat := chipPtr 3 0 128, ctr := 0, mask := 3, tmo := tmo, cnt := 2, op := 0 }

/-- A meeting of tag 5, generation 0, that party 0 has reached. -/
def meet (b : Option Bind) (checked : Bool) : MeetEntry :=
  { State.reset.newMeet 1 5 0 1 with live := true, bind := b, arrived := 1, waiting := [(0, [0])], checked := checked }

/-- A full meeting unit: an entry of fourteen waiting operands and its own slot, and the meeting of tag 5. -/
def other : MeetEntry := { State.reset.newMeet 1 6 0 1 with live := true, waiting := List.replicate 14 (0, [0]) }

/-- Core 3 with some meetings. -/
def router (l : List MeetEntry) : Core := { idle 3 with meets := l }

/-- An operand of party p for tag 5. -/
def operand (p : Nat) : MeetOperand :=
  { lid := 1, id := 5, gen := 0, party := p, data := [0], op := 7, router := 3, backoff := 64, retryAt := 5000, expiry := none, inFlight := false }

/-- Launch 1 with a block of eight tags from 0. -/
def launch3 : Launch := { launch1 with tagBlocks := [(0, 8)] }

/-- Core 3 with some meetings, in launch 3's place. -/
def meetingIn (l : Launch) (k : Core) : State := { on 3 k with launches := [l] }

/-- A directory entry of owner 3, open, with a live slot 1 on core 3. -/
def entry1 : DirEntry :=
  { w0 := dirWord0 4 1 true false 9, w1 := 0, w2 := 1 + 2 ^ 26,
    slots := #v[slotOf 3 2 0 0 0 false 0, slotOf 3 2 254 64 0 false 0, 0, 0, 0, 0, 0, 0] }

/-- A route of expert 9 in a stage. -/
def route (st : RouteStage) (row : Word) : Route :=
  { id := 6, name := 9, row := row, mword := 0, tag := 21, cid := 9, seat := 0, home := 3, lid := 1, ia := 0, cpc := 0, mig := false, refresh := 0,
    entry := entry1, cand := [], claimNo := 0, frames := [], due := 0, stage := st, spec := false, aborted := false }

/-- Core 3 with a route. -/
def routing (r : Route) : Core := { idle 3 with routes := [r] }

/-- A bounded counter of generation 4 below its bound. -/
def bounded (v : Word) : Counter := { value := v, shadow := BitVec.ofNat 64 (2 ^ 61 + 4 * 2 ^ 20 + 2) }

/-- Context 1 with expert 9 in its directory. -/
def directed (b : Body) : State := { arriving (idle 3) 3 b with contexts := [{ context1 with directory := [(9, entry1)] }] }

/-- A slot of core 3 in a state, of two siblings with quorum 2. -/
def slotIn (state : Nat) (sibs : List (Nat × BitVec 32)) : GroupSlot :=
  { GroupSlot.free with state := state, c3 := 2 * 2 ^ 16 + 2 * 2 ^ 8 + 254, lid := 1, siblings := sibs }

/-- Core 3 with a slot in place 1. -/
def grouped (g : GroupSlot) : Core := (idle 3).setGroup 1 g

/-- Slot 1 of core 3 receives an operation. -/
def asked (g : GroupSlot) (op : GroupOp) : State := arriving (grouped g) 3 (.effect (.group 3 op))

/-- The flight that brings it. -/
def asks (op : GroupOp) : Flight := flight 3 (.effect (.group 3 op))

/-- The first siblings of an open slot. -/
def siblings2 : List (Nat × BitVec 32) := [(1, 0), (0, 0)]

/-- The handle of sibling 1. -/
def handle1 : Word := BitVec.ofNat 64 (2 ^ 35) ||| handle

/-- A trap record with eight words. -/
def trapped : TrapRecord := ⟨1, [1, 2, 3, 4, 5, 6, 7, 8]⟩

/-- A record of an uncorrectable word of core 5's store. -/
def faulty : TrapRecord := ⟨1, [2 ^ 48 + 2 ^ 32 + 2 ^ 16 + 0x29, 0, 5 * 2 ^ 48, 0x2000, 0, 5, 0, 0]⟩

/-- Its arrival, 24 hours on, with the earlier ones. -/
def failed (l : List (Nat × Nat)) : State :=
  { base with cycle := 5000 + 24 * 3600 * 4000000000, flights := [flight 2048 (.trap faulty)], storeFaults := l }

/-- A negative acknowledgement. -/
def negative : DeferredTrap := { cause := 0x20, arg := 7, ia := 16, cpc := 8 }

/-- Core 3, whose seat 0 runs continuation 9, perhaps with a trap noted. -/
def noted (d : Option DeferredTrap) : Core := core 3 { seat 3 [] with trap := d }

/-- The lowest half TB mapped to the same physical addresses, with some rights. -/
def mappedCore (k : Core) (rights : Word) : Core := { k with tlb := [{ ctx := 1, vf := 1, base := 0, size := 2 ^ 39, entry := rights }] }

/-- Core 3 stopping, with nothing to wait for. -/
def stopping : Core := { idle 3 with hold := .stopping }

/-- A load of context 1 onto cores 3 and 4. -/
def loading : SaveJob := { id := 2, ctx := 1, hall := 2048, idx := 1, load := true, cores := [3, 4], waiting := [3, 4], storing := [] }

/-- Core 3 saved, with its area stored at cc 5,000. -/
def stored3 : State :=
  { on 3 { Core.init 3 with hold := .saved } with
    saveJobs := [{ loading with load := false, cores := [3], waiting := [3], storing := [(3, 5000)] }] }

/-- Core 3 empty, waiting to be restored from saved cores. -/
def restoring (l : List (CoreId × Core)) : State :=
  { on 3 (mappedCore (Core.init 3) leaf) with
    flights := [flight 3 (.restore 2)], saveJobs := [loading], contexts := [{ context1 with saved := l }] }

/-- What an answer holds. -/
def answer {ε α : Type} (e : Except ε (List α)) : List α :=
  match e with
  | .ok a => a
  | .error _ => []

/-- An answer that is known to be one is the one it holds. -/
theorem answered {σ ε α : Type} {p : σ × Except ε (List α)}
    (h : (match p.2 with | .ok _ => true | .error _ => false) = true) : p = (p.1, .ok (answer p.2)) := by
  obtain ⟨a, b⟩ := p
  cases b with
  | ok _ => rfl
  | error _ => cases h

/-- The save area of core 3, as its pages are found. -/
def found (s : State) (access : Nat) : State × Except Nat (List (Nat × Nat)) := s.savePages 3 1 access saveOffsets

/-- The restoring package once its flight has been taken. -/
def taken : State := (restoring [(3, idle 3)]).dropFlight 5

/-- The saved image that core 3 reads. -/
def image3 : State × Except Nat (List Byte) := (found taken 0).1.readImage ((found taken 0).1.vfOf loading.ctx) (answer (found taken 0).2)

/-- The pages of a save area that can be written are found. -/
theorem pages_to_write :
    found (on 3 (mappedCore stopping leaf)) 1 =
      ((found (on 3 (mappedCore stopping leaf)) 1).1, .ok (answer (found (on 3 (mappedCore stopping leaf)) 1).2)) :=
  answered (by decide +kernel)

/-- The first page of one that cannot is where a save fails. -/
theorem page_not_writable : found (on 3 (mappedCore stopping 0x15)) 1 = (on 3 (mappedCore stopping 0x15), .error 0) := by rfl

/-- The pages of a save area are found again. -/
theorem pages_to_read : found taken 0 = ((found taken 0).1, .ok (answer (found taken 0).2)) := answered (by decide +kernel)

/-- The image in them can be read. -/
theorem image_read : image3 = (image3.1, .ok (answer image3.2)) := answered (by decide +kernel)

/-- An XCOPY of 8 bytes from core 3 to byte 64 by entry 9 of package p, on stream 5. -/
def xcopy (p : Nat) : EngineCmd :=
  command (.xcopy 5) 0x7FFF8 (BitVec.ofNat 64 (3 * 2 ^ 52 + p * 2 ^ 40 + 9 * 2 ^ 32 + 64)) 8

/-- The flight that brings a command to the edge. -/
def leaving (cmd : EngineCmd) : Flight := flight 3 (.stream cmd none 0)

/-- Stream 5 is valid, function 1's, of class 0, with one set that sends on port 11 and accepts from port 11. -/
def stream5 : TableEntry := { w0 := 2 ^ 6 + 1, w1 := BitVec.ofNat 64 (2 ^ 11 + 2 ^ 23), w2 := 0, w3 := 0 }

/-- Port 11 alone is up, or every port is down. -/
def ports (up : Bool) : Vector Bool 12 := (Vector.replicate 12 false).setIfInBounds 11 up

/-- A package at the edge of which an item waits. -/
def edge (x : Flight) (up : Bool) : State :=
  { on 3 (core 3 (seat 3 [])) with flights := [x], streams := [(5, stream5)], ports := ports up }

/-- Entry 9 lets packages 0 to 2 write 128 bytes from byte 64 of core 3 on, for function 1. -/
def entry9 : TableEntry :=
  { w0 := chipPtr 3 0 64, w1 := BitVec.ofNat 64 (2 * 2 ^ 44 + 128), w2 := BitVec.ofNat 64 (2 ^ 17 + 3), w3 := 1 }

/-- A packet of four bytes for byte 124 of entry 9, or for a byte past its end. -/
def packet9 (b : Nat) : EdgePacket :=
  { xid := 5, index := 0, total := 1, stream := 5, set := 0, port := none, source := 2, tc := 0,
    dst := BitVec.ofNat 64 (3 * 2 ^ 52 + 9 * 2 ^ 32 + b), data := [1, 2, 3, 4], marker := false, dc := 254 }

/-- A package at which a packet arrives. -/
def landing (p : EdgePacket) : State := { edge (flight 3 (.packet p)) false with exports := [(9, entry9)] }

/-- An XCOPY with n packets still to settle. -/
def outgoing1 (n : Nat) : Outgoing :=
  { xid := 4, tag := 21, cid := 9, core := 3, seat := 0, lid := 1, ctx := 1, home := 3, ia := 16, cpc := 8, mig := false, sc := 254, toLeave := 0,
    toSettle := n }

/-- A package whose XCOPY gets an acknowledgement. -/
def settling (n : Nat) : State := { edge (flight 3 (.xack 4 0 (some (0x28, 7)))) false with outgoing := [outgoing1 n] }

/-- The flight that brings a command which a trigger fired from the record at 64. -/
def fired (cmd : EngineCmd) : Flight := flight 3 (.stream cmd (some 64) 0)

/-- The one item at the edge has none before it. -/
theorem atEdge {b b' : Body} {up : Bool} {p : Flight → Prop} :
    ∀ g ∈ (edge (flight 3 b) up).flights, g.id < (flight 3 b').id → p g := by
  intro g hg h
  simp only [edge, List.mem_singleton] at hg
  subst hg
  exact absurd h (Nat.lt_irrefl 5)

/-- Page tables for page 0, a launch descriptor at address 64 and its one record at 128. -/
def launchMemory : Mem :=
  (walking.dram.write 64 ([0, 0, scopeForm 0 0 7 0, 128, 1, 0, 0, 0].flatMap wordBytes)).write 128 ([0, 3, 0].flatMap wordBytes)

/-- A package with that memory. -/
def mapped : State := { on 7 (idle 7) with dram := launchMemory }

/-- A tag of requester 7. -/
def tag7 : Nat := 7 * 2 ^ 32 + 1

/-- An entry of four words. -/
def words4 (w0 w1 w2 w3 : Nat) : BitVec 256 := BitVec.ofNat 256 (w0 + w1 * 2 ^ 64 + w2 * 2 ^ 128 + w3 * 2 ^ 192)

/-- Core 7 with counter 255 at 9. -/
def counted : State :=
  on 7 { idle 7 with counters := (Vector.replicate 256 ⟨0, 0⟩).setIfInBounds 255 ⟨9, 0⟩ }

/-- A session of requester 7 that halts its own cores. -/
def session (notice : Bool) (settled : List CoreId) : Session :=
  { id := 4, requester := 7, level := 2, ctx := 1, quick := [7], settled := settled, notice := notice, vfCredential := false,
    sampleAt := none, samples := [], halting := [] }

/-- Core 7 in a session. -/
def debugged (x : Session) : State := { on 7 { idle 7 with haltSettled := some 4 } with sessions := [x] }

/-- A parity update of the stripe of line 0x1000. -/
def update : ParityUpdate := { id := 3, line := parityLine 0x1000, offset := 8, delta := [1, 2] }

/-- A core that has not issued for 65,536 cc. -/
def parked (p : CorePower) (h : CoreHold) : State := { on 7 { idle 7 with power := p, hold := h } with cycle := 65536 }

/-- No line of device memory fails its check. -/
def sound (s : State) : Prop := s.weakLines = [] ∧ s.badLines = [] ∧ s.poisonLines = []

/-- Nothing lies in the empty list. -/
theorem filter_none (l : List Nat) : l.filter ([] : List Nat).contains = [] := by simp [List.filter_eq_nil_iff]

/-- Sound memory is read as it stands. -/
theorem sound_read {s : State} (h : sound s) (vf pa n : Nat) : s.readUnder none vf pa n = (s, some (s.dram.bytes pa n, false)) := by
  obtain ⟨hw, hb, hp⟩ := h
  cases s
  subst hw hb hp
  simp [State.readUnder, State.plainBytes, State.correct, State.mend, filter_none]

/-- Sound memory takes a write. -/
theorem sound_write {s : State} (h : sound s) (vf pa : Nat) (bs : List Byte) : (s.writeUnder none vf pa bs).2 = true := by
  obtain ⟨hw, hb, hp⟩ := h
  cases s
  subst hw hb hp
  have e (l : List Nat) : l.filter ([] : List Nat).contains = [] := filter_none l
  have a (l : List Nat) : l.any ([] : List Nat).contains = false := by simp
  simp [State.writeUnder, State.admitWrite, State.correct, e, a]

/-- A mirror of granule 2 that is not clean. -/
def copying : State := { base with mirrors := [⟨2, 0x10000000000, false⟩] }

/-- No line of it fails its check. -/
theorem copying_sound : sound copying := ⟨rfl, rfl, rfl⟩

/-- Rings 1 and 2 hold one I8 tile each. -/
def tiled : Vector Ring 8 :=
  let r (a : Nat) : Ring := { Ring.init with base := BitVec.ofNat 64 (2 ^ 58 + a), shape := 1, cfg := true, ready := 1, tail := 1, pubs := 1 }
  ((Vector.replicate 8 Ring.init).setIfInBounds 1 (r 0)).setIfInBounds 2 (r 0x7F800)

/-- Sub-arrays that are awake, or one that is about to wake. -/
def subs (awake : Bool) (idle : Nat) : Vector SubArray 4 :=
  (Vector.replicate 4 { awake := awake, wakeAt := none, idle := idle, idleSince := 4992 }).setIfInBounds 3
    { awake := awake, wakeAt := if awake then none else some 5000, idle := idle, idleSince := 4992 }

/-- A step of fmt 0 into tile 15, alone or in a gang. -/
def mma (id steps wc : Nat) : MatrixEntry :=
  { id := id, seat := 3, ia := 0, op := .mma 15 1 2 0 steps false wc, done := 0, gang := 0, readyAt := 5000 }

/-- An accumulator instruction of seat 3. -/
def accumulator (op : MatrixOp) : MatrixEntry := { id := 6, seat := 3, ia := 0, op := op, done := 0, gang := 0, readyAt := 0 }

/-- Core c with some matrix instructions queued. -/
def matrixCore (c : Nat) (l : List MatrixEntry) : Core := { idle c with matrix := l, rings := tiled, subs := subs true 9 }

/-- Cores 2 and 3 with a gang instruction each. -/
def gang (steps : Nat) : State :=
  { base with cores := [(2, matrixCore 2 [mma 6 1 1]), (3, matrixCore 3 [mma 7 steps 1])] }

/-- A step that runs, on tiles of zeros. -/
def running8 : MatrixStep :=
  { id := 6, endAt := 5000, a := List.replicate 2048 0, b := List.replicate 2048 0, sa := [], sb := [], blogA := 0, blogB := 0,
    fmtA := 1, fmtB := 1 }

/-- A result that waits for matrix instruction 6. -/
def awaited : GroupResult := { reg := some (.v 31), val := 0, readyAt := 0, waits := 6, live := true, nf := 0 }

/-- A codebook load. -/
def codebook (started : Bool) : CodebookLoad := { issued := 5, started := started, dueAt := 5000, data := List.replicate 128 7 }

/-- Core 3 with a codebook load at the front. -/
def codebooks (started : Bool) : State := on 3 { idle 3 with cbPending := [codebook started] }

/-- A seat of core 3 at an LI that has no tail. -/
def short : State := (at3 []).placeOn 3 (packLine [⟨0x0801, 0⟩])

/-- A cell with no products is no NaN where it is an infinity. -/
theorem no_nan {v : Val} (h : v.isNan = false) :
    ¬ (v.isNan = true ∨ ∃ p ∈ ([] : List Val).zip ([] : List Val), (p.1.times p.2).isNan = true ∨ zeroByInf p.1 p.2) := by
  rw [h]
  rintro (h | ⟨p, h, _⟩) <;> cases h

/-- A package whose next turn is seat 0 of core 3, at a line of NOPs. -/
def turning : State := { nops (at3 []) with agenda := [.issue 1 3 0] }

/-- The same at a line whose head is of no major. -/
def lost : State :=
  let t := (at3 []).placeOn 3 (packLine [⟨0x03C0, 0⟩])
  { t with agenda := [.issue 1 3 0] }

/-- The seat of its turn exists. -/
theorem turning_exists : ∀ gap c n r, turning.agenda = .issue gap c n :: r → coreExists c = true ∧ seatExists n = true := by
  intro gap c n r h
  injection h with h _
  injection h with _ hc hn
  subst hc hn
  exact ⟨rfl, rfl⟩

/-- A group slot that a configure operation has reserved. -/
def reservedSlot : GroupSlot := { slotIn 0 [] with reserved := 21 }

/-- A chunk before its grant with one effect held. -/
def endingWith (h : Held) : Seat := { ending with held := [⟨16, 21, h⟩] }

/-- A granted chunk with an addition to a counter held. -/
def adding (addr : Word) (c : CoreId) : Seat := { granted .chunk with held := [⟨16, 21, .counter addr c 254 (.add 1)⟩] }

/-- Expert 9 is in core 3's entry cache, and a route of it begins. -/
def cached (row : Word) (e : DirEntry) : State := on 3 { routing (route .queued row) with experts := [⟨9, e, Vector.replicate 8 0⟩] }

/-- An entry no core has a slot of. -/
def slotless : DirEntry := { entry1 with slots := Vector.replicate 8 0 }

/-- An entry that is not valid. -/
def invalid1 : DirEntry := { entry1 with w0 := dirWord0 4 1 false false 9 }

/-- The flight that brings core 3 an answer to a claim. -/
def answers (n : Option Nat) (stale : Bool) : Flight := flight 3 (.claimReply 6 n stale)

/-- Core 3 with a route that has asked for slot 1 some times, and the answer. -/
def answering (refresh : Nat) (n : Option Nat) (stale : Bool) : State :=
  arriving (routing { route (.claim 1) 64 with refresh := refresh }) 3 (.claimReply 6 n stale)

/-- The route in it. -/
def asking (refresh : Nat) : Route := { route (.claim 1) 64 with refresh := refresh }

/-- The same walk for the line that seat 0 waits for. -/
def walk2 : Walk := { walk1 with va := 64, access := 3, purpose := .line 3 0 }

/-- The package in which it runs. -/
def walking2 : State :=
  { on 3 { fetching 0 with tlb := [], lineWaits := [⟨0, 72, none, 0⟩] } with walks := [walk2], dram := walking.dram }

/-- A bind whose operation folds, for two parties. -/
def bindOp : Bind := { bind1 9 with op := 1, cnt := 1 }

/-- A bound meeting whose party 0 has been folded in. -/
def joined (checked : Bool) : MeetEntry :=
  { meet (some bindOp) checked with included := 1, waiting := [], folded := [0] }

/-- A pair is that of its parts. -/
theorem pair_parts {σ τ : Type} (p : σ × τ) : p = (p.1, p.2) := by cases p; rfl

/-- A seat of core 3's that runs on core 7, at a pointer to byte 64. -/
def lentTo7 (k : Core) : State := { on 7 (core 7 (seat 3 [(5, 64)])) with cores := [(7, core 7 (seat 3 [(5, 64)])), (3, k)] }

/-- A seat on core 7, whose home is core h, with its pointer and full predicates. -/
def gathering (h : Nat) : State :=
  on 7 (core 7 { seat h [(5, 64)] with regs := { regs [(5, 64)] with q := Vector.replicate 8 1 } })

/-- A thread whose slice has ended, with its seat's place. -/
def endedThread : HallThread := { thread1 with cid := 9, ready := false, place := some (2048, 0) }

/-- Its package: every seat of the hall cores is taken, and another thread is ready. -/
def fullHalls : State :=
  let x : Seat := { seat 2048 [] with hall := { HallRegs.zero with sliceEnd := true } }
  let k (c : Nat) : Core := { Core.init c with seat0 := x, seat1 := x, seat2 := x, seat3 := x }
  { base with cores := (List.range 16).map (fun n => (2048 + n, k (2048 + n))), runQueue := [endedThread, { thread1 with ctx := 2 }] }

/-- A hall core that takes no more work, with a thread at its boundary. -/
def retiring : State :=
  { on 2049 { Core.init 2049 with seat0 := { granted .implicit with record := Record.zero } } with
    retired := [2049 + 2048], runQueue := [{ endedThread with place := some (2049, 0) }] }

/-- Hall core 0.0 with seat 1 free and a vector, and a thread that is ready. -/
def readied (h : HallThread) : State :=
  { on 2048 { Core.init 2048 with seat1 := { Seat.init 2048 1 with hall := { HallRegs.zero with hvec := 64 } } } with runQueue := [h] }

/-- A packet that has read, and a read request that was sent at cc 4,000. -/
def sentLand : Packet := { toLand with sentAt := 4000 }

/-- Core 3, whose seat 0 waits for a line that has still to be translated. -/
def asking3 : State := on 3 { fetching 0 with lineWaits := [⟨0, 72, none, 0⟩] }

/-- How the walk in it ends. -/
def ended1 : State × WalkEnd :=
  ({ walking with walks := walking.walks.filter (· != walk1) } : State).endWalk walk1.core walk1.ctx walk1.va

/-- How the walk for a line ends. -/
def ended2 : State × WalkEnd :=
  ({ walking2 with walks := walking2.walks.filter (· != walk2) } : State).endWalk walk2.core walk2.ctx walk2.va

/-- The first end as the pair of its parts. -/
theorem ended1_parts : ({ walking with walks := walking.walks.filter (· != walk1) } : State).endWalk walk1.core walk1.ctx walk1.va =
    (ended1.1, ended1.2) := by
  show ended1 = _
  exact pair_parts _

/-- The second end as the pair of its parts. -/
theorem ended2_parts : ({ walking2 with walks := walking2.walks.filter (· != walk2) } : State).endWalk walk2.core walk2.ctx walk2.va =
    (ended2.1, ended2.2) := by
  show ended2 = _
  exact pair_parts _

/-- A bound meeting that both parties have been folded into. -/
def whole : MeetEntry := { joined true with arrived := 3, included := 3 }

/-- An XCOPY whose destination is no remote pointer. -/
def badCopy : EngineCmd := command (.xcopy 5) 0x7FFF8 64 8

/-- The same package where core 3 holds another context. -/
def landingAway (p : EdgePacket) : State := (landing p).setCore 3 { idle 3 with ctx := 2 }

/-- Where the service finds bytes 4,088 on of the mapped memory. -/
def pieces1 : State × Option (List (Nat × Nat)) := mapped.awaken.mappedPieces 1 (rangePieces 4088 8)

/-- They lie in its first page. -/
theorem pieces1_found : mapped.awaken.mappedPieces 1 (rangePieces 4088 8) = (pieces1.1, some [(4088, 8)]) := by
  show pieces1 = (pieces1.1, some [(4088, 8)])
  rw [← show pieces1.2 = some [(4088, 8)] by decide +kernel]

/-- Bytes past its end are not mapped. -/
def pieces2 : State × Option (List (Nat × Nat)) := mapped.awaken.mappedPieces 1 (rangePieces 4092 8)

/-- They are not found. -/
theorem pieces2_lost : mapped.awaken.mappedPieces 1 (rangePieces 4092 8) = (pieces2.1, none) := by
  show pieces2 = (pieces2.1, none)
  rw [← show pieces2.2 = none by decide +kernel]

/-- A session with a halt of core 7 that has still to be reported. -/
def asked7 : Session := { session false [7] with halting := [(tag7, scopeForm 7 0 7 0, true)] }

/-- The core is halted and settled, and the session has its turn. -/
def halted7 : State :=
  { on 7 { idle 7 with haltQuick := true, haltSettled := some 4 } with sessions := [asked7], agenda := [.session 1 4] }

/-- A line of granule 2 that fails its check, and the clean copy of the granule in the cellar. -/
def mirrored : State := { base with mirrors := [⟨2, 0x10000000000, true⟩], badLines := [0x20040] }

/-- Core 0 saved, with its retirement at that step. -/
def replacing : State :=
  { base with cores := [(0, { Core.init 0 with hold := .saved })], contexts := [{ context1 with saved := [(0, idle 0)] }],
              retireDue := [⟨0, some [(1, [0])]⟩] }

/-- Core 3 with an ACCRD of row 15 of tile 15, and its result. -/
def reading : State :=
  on 3 { matrixCore 3 [accumulator (.accrd 15 15)] with seat3 := { seatIn .running with results := [awaited] } }

/-- The hypotheses of each clause of TransfersGoToTheirTarget can be met. -/
theorem witness_TransfersGoToTheirTarget :
    (∃ (s : State) (off : BitVec 32), headAt s (pcOf s + off.toInt)) ∧
    (∃ (s : State) (t : BitVec 6), headAt s ((s.x t).toNat % 2 ^ 48 : Nat)) ∧
    (∃ (s : State) (a b : BitVec 6) (off : BitVec 25),
      let u := s.x a
      let v := s.x b
      let target := pcOf s + 2 * off.toInt
      u = v ∧ headAt s target) ∧
    (∃ (s : State) (a b : BitVec 6) (off : BitVec 25),
      let u := s.x a
      let v := s.x b
      let target := pcOf s + 2 * off.toInt
      u ≠ v ∧ headAt s target) ∧
    (∃ (s : State) (a b : BitVec 6) (off : BitVec 25),
      let u := s.x a
      let v := s.x b
      let target := pcOf s + 2 * off.toInt
      u.toInt < v.toInt ∧ headAt s target) ∧
    (∃ (s : State) (a b : BitVec 6) (off : BitVec 25),
      let u := s.x a
      let v := s.x b
      let target := pcOf s + 2 * off.toInt
      v.toInt ≤ u.toInt ∧ headAt s target) ∧
    (∃ (s : State) (a b : BitVec 6) (off : BitVec 25),
      let u := s.x a
      let v := s.x b
      let target := pcOf s + 2 * off.toInt
      u.toNat < v.toNat ∧ headAt s target) ∧
    (∃ (s : State) (a b : BitVec 6) (off : BitVec 25),
      let u := s.x a
      let v := s.x b
      let target := pcOf s + 2 * off.toInt
      v.toNat ≤ u.toNat ∧ headAt s target) ∧
    (∃ (s : State) (c : BitVec 6) (o : BitVec 16),
      let back := pcOf s - (o.toNat : Int)
      let count := s.x c - 1
      count ≠ 0 ∧ headAt s back) ∧
    (∃ (s : State) (c : BitVec 6),
      let count := s.x c - 1
      count = 0) ∧
    (∃ (s : State) (off : BitVec 32), noHeadAt s (pcOf s + off.toInt)) ∧
    (∃ (s : State) (off : BitVec 32), 0 ≤ pcOf s + off.toInt ∧ pcOf s + off.toInt < 2 ^ 48 ∧ s.here.line (pcOf s +
      off.toInt).toNat = none) :=
  ⟨⟨nops (at3 []), 4, by decide +kernel⟩,
  ⟨nops (at3 [(5, 0xFFFF000000000004)]), 5, by decide +kernel⟩,
  ⟨nops (at3 []), 1, 2, 2, by decide +kernel⟩,
  ⟨nops (at3 [(1, 7)]), 1, 2, 2, by decide +kernel⟩,
  ⟨nops (at3 [(1, -1)]), 1, 2, 2, by decide +kernel⟩,
  ⟨nops (at3 []), 1, 2, -1, by decide +kernel⟩,
  ⟨nops (at3 [(2, -1)]), 1, 2, 2, by decide +kernel⟩,
  ⟨nops (at3 [(1, -1)]), 1, 2, -1, by decide +kernel⟩,
  ⟨nops (at3 [(5, 2)]), 5, 2, by decide +kernel⟩,
  ⟨nops (at3 [(5, 1)]), 5, by decide +kernel⟩,
  ⟨nops (at3 []), -4, by decide +kernel⟩,
  ⟨nops (at3 []), 64, by decide +kernel⟩⟩

/-- The hypotheses of each clause of BoundariesParkTheSeat can be met. -/
theorem witness_BoundariesParkTheSeat :
    (∃ (s : State) (c : BitVec 6) (core : CoreId) (idx : BitVec 8), counterOperand s (s.x c) = .ok (core, idx)) ∧
    (∃ (s : State) (r : BitVec 6) (scope : BitVec 3), (scope = 2 → checkRect s (s.x r) = .ok ())) :=
  ⟨⟨at3 [(5, 0x80FF0)], 5, 3, 255, rfl⟩,
  ⟨at3 [(5, scopeForm 0 0 7 0)], 5, 2, fun _ => rfl⟩⟩

/-- The hypotheses of AnExceptionTrapsTheSeat can be met. -/
theorem witness_AnExceptionTrapsTheSeat :
    ∃ (s : State) (c : CoreId) (n : Nat), c < 2048 ∧ n < 4 ∧ s.tickets.length < 65535 :=
  ⟨at3 [], 3, 0, by decide +kernel⟩

/-- The hypotheses of each clause of TheServiceIsEnteredAndLeft can be met. -/
theorem witness_TheServiceIsEnteredAndLeft :
    (∃ (s : State) (c : CoreId) (n : Nat), 2048 ≤ c ∧ n < 4 ∧ (s.seat c n).hallSnap.service = false) ∧
    (∃ (s : State), isHall s.curCore = true ∧ headAt s (s.me.hall.hepc.toNat : Int)) :=
  ⟨⟨hall [], 2048, 3, by decide +kernel⟩,
  ⟨nops (hall []), by decide +kernel⟩⟩

/-- The hypotheses of each clause of ScalarResultsRoundOnce can be met. -/
theorem witness_ScalarResultsRoundOnce :
    (∃ (p : Bool) (s : State), precisionOk s p) ∧
    (∃ (p : Bool) (s : State), precisionOk s p) ∧
    (∃ (dst src : BitVec 4) (s : State), scalarConvertOk dst src = true ∧ formatOk s dst ∧ formatOk s src ∧ 7 ≤ dst.toNat) ∧
    (∃ (dst src : BitVec 4) (s : State), scalarConvertOk dst src = true ∧ formatOk s dst ∧ formatOk s src ∧ dst.toNat < 7) :=
  ⟨⟨true, on 7 (core 7 (seat 7 [])), by decide⟩,
  ⟨true, on 7 (core 7 (seat 7 [])), by decide⟩,
  ⟨7, 10, on 7 (core 7 (seat 7 [])), by decide +kernel, fun _ => rfl, fun _ => rfl, by decide +kernel⟩,
  ⟨6, 10, at3 [], by decide +kernel, by decide, by decide, by decide +kernel⟩⟩

/-- The hypotheses of F64ChunksMigrate can be met. -/
theorem witness_F64ChunksMigrate :
    ∃ (s : State) (l : Launch) (target : CoreId), isHall s.curCore = false ∧ hasF64 s.curCore = false ∧ s.curSeat < 4 ∧
      s.launch s.me.lid = some l ∧ l.noMig = false ∧ s.me.record.w0.bit 51 = false ∧ nearestF64 s.curCore (rectCores l.rect)
      = some target :=
  ⟨at3 [], launch1, 7, by decide +kernel⟩

/-- The hypotheses of each clause of VectorArithmeticGoesByLanes can be met. -/
theorem witness_VectorArithmeticGoesByLanes :
    (∃ (fmt : BitVec 4) (s : State), formatOk s fmt) ∧
    (∃ (fmt : BitVec 4), fmt.toNat < 7) ∧
    (∃ (fmt : BitVec 4) (s : State), formatOk s fmt) :=
  ⟨⟨7, on 7 (core 7 (seat 7 [])), by decide⟩,
  ⟨6, by decide +kernel⟩,
  ⟨7, on 7 (core 7 (seat 7 [])), by decide⟩⟩

/-- The hypotheses of each clause of ComparisonsReductionsAndSums can be met. -/
theorem witness_ComparisonsReductionsAndSums :
    (∃ (fmt : BitVec 4) (s : State), formatOk s fmt) ∧
    (∃ (fmt : BitVec 4), fmt.toNat < 7) :=
  ⟨⟨7, on 7 (core 7 (seat 7 [])), by decide⟩,
  ⟨6, by decide +kernel⟩⟩

/-- The hypotheses of each clause of VectorMovesAndQuantising can be met. -/
theorem witness_VectorMovesAndQuantising :
    (∃ (fmt src : BitVec 4) (s : State), formatOk s fmt ∧ formatOk s src) ∧
    (∃ (s : State), isHall s.curCore = false ∧ ∃ table, (s.core s.home).tableReady = .ok table) ∧
    (∃ (bx : BitVec 6) (s : State), isHall s.curCore = false ∧ (∃ a, checkLocal (s.x bx) 2064 16 = .ok a) ∧ s.me.held.length
      < 32) :=
  ⟨⟨7, 10, on 7 (core 7 (seat 7 [])), fun _ => rfl, fun _ => rfl⟩,
  ⟨on 3 { core 3 (seat 3 []) with cbValid := true }, by decide +kernel, [], rfl⟩,
  ⟨5, at3 [(5, 0x7F7F0)], by decide +kernel, ⟨0x7F7F0, rfl⟩, by decide +kernel⟩⟩

/-- The hypotheses of each clause of VectorAndMaskLogic can be met. -/
theorem witness_VectorAndMaskLogic :
    (∃ (fmt : BitVec 4) (s : State), formatOk s fmt) ∧
    (∃ (fmt : BitVec 4) (s : State), formatOk s fmt) :=
  ⟨⟨7, on 7 (core 7 (seat 7 [])), by decide⟩,
  ⟨7, on 7 (core 7 (seat 7 [])), by decide⟩⟩

/-- The hypotheses of each clause of LoadsReadTheHomeStore can be met. -/
theorem witness_LoadsReadTheHomeStore :
    (∃ (b : BitVec 6) (w : BitVec 3) (imm : BitVec 22) (s t : State) (p : Word), memOperand s b imm = .ok p ∧
      let n := 2 ^ (w.toNat / 2)
      mayLoad s p n (widthCode (8 * n)) t ∧ s.home = s.curCore) ∧
    (∃ (b : BitVec 6) (w : BitVec 3) (imm : BitVec 22) (s t : State) (p : Word), memOperand s b imm = .ok p ∧
      let n := 2 ^ (w.toNat / 2)
      mayLoad s p n (widthCode (8 * n)) t ∧ s.home ≠ s.curCore) ∧
    (∃ (b : BitVec 6) (imm : BitVec 22) (s t : State) (p : Word), memOperand s b imm = .ok p ∧ (mayLoad s p 128 (fun c =>
      !codeBlocked c) t) ∧ s.home = s.curCore) ∧
    (∃ (b : BitVec 6) (imm : BitVec 22) (s t : State) (p : Word), memOperand s b imm = .ok p ∧ (mayLoad s p 128 (fun c =>
      !codeBlocked c) t) ∧ s.home ≠ s.curCore) ∧
    (∃ (b : BitVec 6) (imm : BitVec 22) (s t : State) (p : Word), memOperand s b imm = .ok p ∧ waitPointer p 8 ∧ mayLoad s p
      8 wordCode t ∧ mayTest s ∧ s.testsFull (ptrAddr p) = true) ∧
    (∃ (b : BitVec 6) (imm : BitVec 22) (s t : State) (p : Word), memOperand s b imm = .ok p ∧ waitPointer p 8 ∧ mayLoad s p
      8 wordCode t ∧ mayTest s ∧ s.testsFull (ptrAddr p) = false) ∧
    (∃ (b : BitVec 6) (imm : BitVec 22) (s t : State) (p : Word), memOperand s b imm = .ok p ∧ waitPointer p 8 ∧ mayLoad s p
      8 wordCode t ∧ readsTaken s = .ok () ∧ s.home ≠ s.curCore ∧ s.me.arriveAt = none) ∧
    (∃ (b : BitVec 6) (imm : BitVec 22) (s t : State) (p : Word), memOperand s b imm = .ok p ∧
      let words := (List.range 16).map (fun k => ptrAddr p + 8 * k)
      waitPointer p 128 ∧ (mayLoad s p 128 (fun c => !codeBlocked c) t) ∧ mayTest s ∧ words.all s.testsFull = true) ∧
    (∃ (b : BitVec 6) (imm : BitVec 22) (s t : State) (p : Word), memOperand s b imm = .ok p ∧
      let words := (List.range 16).map (fun k => ptrAddr p + 8 * k)
      waitPointer p 128 ∧ (mayLoad s p 128 (fun c => !codeBlocked c) t) ∧ mayTest s ∧ words.all s.testsFull = false) :=
  ⟨⟨5, 7, 0, on 3 (filled 1), loaded (on 3 (filled 1)) 64 8, 64, rfl, ⟨rfl, rfl, rfl, rfl, by decide, by decide, rfl, rfl, by
    decide⟩, by decide +kernel⟩,
  ⟨5, 7, 0, lentTo7 (filled 1), loaded (lentTo7 (filled 1)) 64 8, 64, rfl, ⟨rfl, rfl, rfl, rfl, by decide, by decide, rfl,
    rfl, by decide⟩, by decide +kernel⟩,
  ⟨5, 0, on 3 (filled 1), loaded (on 3 (filled 1)) 64 128, 64, rfl, ⟨rfl, rfl, rfl, rfl, by decide, by decide, rfl, rfl, by
    decide⟩, by decide +kernel⟩,
  ⟨5, 0, lentTo7 (filled 1), loaded (lentTo7 (filled 1)) 64 128, 64, rfl, ⟨rfl, rfl, rfl, rfl, by decide, by decide, rfl,
    rfl, by decide⟩, by decide +kernel⟩,
  ⟨5, 0, on 3 (filled 1), loaded (on 3 (filled 1)) 64 8, 64, rfl, by decide, ⟨rfl, rfl, rfl, rfl, by decide, by decide, rfl,
    rfl, by decide⟩, ⟨rfl, Or.inl rfl⟩, by decide +kernel⟩,
  ⟨5, 0, on 3 (filled 0), loaded (on 3 (filled 0)) 64 8, 64, rfl, by decide, ⟨rfl, rfl, rfl, rfl, by decide, by decide, rfl,
    rfl, by decide⟩, ⟨rfl, Or.inl rfl⟩, by decide +kernel⟩,
  ⟨5, 0, lentTo7 (filled 0), loaded (lentTo7 (filled 0)) 64 8, 64, rfl, by decide, ⟨rfl, rfl, rfl, rfl, by decide, by decide,
    rfl, rfl, by decide⟩, rfl, by decide +kernel⟩,
  ⟨5, 0, on 3 (filled 16), loaded (on 3 (filled 16)) 64 128, 64, rfl, by decide, ⟨rfl, rfl, rfl, rfl, by decide, by decide,
    rfl, rfl, by decide⟩, ⟨rfl, Or.inl rfl⟩, by decide +kernel⟩,
  ⟨5, 0, on 3 (filled 15), loaded (on 3 (filled 15)) 64 128, 64, rfl, by decide, ⟨rfl, rfl, rfl, rfl, by decide, by decide,
    rfl, rfl, by decide⟩, ⟨rfl, Or.inl rfl⟩, by decide +kernel⟩⟩

/-- The hypotheses of each clause of StoresGoToTheirBytes can be met. -/
theorem witness_StoresGoToTheirBytes :
    (∃ (b : BitVec 6) (w : BitVec 2) (imm : BitVec 22) (s : State) (p : Word), memOperand s b imm = .ok p ∧ mayStore s p (2 ^
      w.toNat) (widthCode (8 * 2 ^ w.toNat))) ∧
    (∃ (b : BitVec 6) (imm : BitVec 22) (s : State) (p : Word), memOperand s b imm = .ok p ∧ mayStore s p 8 wordCode ∧
      wordPointer p 8) ∧
    (∃ (b : BitVec 6) (imm : BitVec 22) (s : State) (p : Word), memOperand s b imm = .ok p ∧
      let at' := ptrAddr p
      let words := (List.range 16).map (fun k => at' + 8 * k)
      (mayStore s p 128 (fun c => !codeBlocked c)) ∧ at' % 8 = 0 ∧ at' + 128 ≤ 0x80000 ∧ words.any s.seesFull = false) ∧
    (∃ (b : BitVec 6) (imm : BitVec 22) (s : State) (p : Word), memOperand s b imm = .ok p ∧
      let at' := ptrAddr p
      let words := (List.range 16).map (fun k => at' + 8 * k)
      (mayStore s p 128 (fun c => !codeBlocked c)) ∧ at' % 8 = 0 ∧ at' + 128 ≤ 0x80000 ∧ words.any s.seesFull = true) ∧
    (∃ (sw : Bool) (a b : BitVec 6) (w : BitVec 2) (imm : BitVec 22) (s t : State) (p : Word), memOperand s b imm = .ok p ∧
      mayStore s p (2 ^ w.toNat) (widthCode (8 * 2 ^ w.toNat)) ∧ exec (.st sw a b w imm) s = .next t) :=
  ⟨⟨5, 3, 0, at3 [(5, 0x7FFF8)], 0x7FFF8, rfl, ⟨rfl, rfl, rfl, rfl, by decide, by decide, by decide, rfl, rfl, by decide⟩⟩,
  ⟨5, 0, at3 [(5, 0x7FFF8)], 0x7FFF8, rfl, ⟨rfl, rfl, rfl, rfl, by decide, by decide, by decide, rfl, rfl, by decide⟩, by
    decide +kernel⟩,
  ⟨5, 0, at3 [(5, 0x7FF80)], 0x7FF80, rfl, ⟨rfl, rfl, rfl, rfl, by decide, by decide, by decide, rfl, rfl, by decide⟩, by
    decide +kernel⟩,
  ⟨5, 0, on 3 (filled 1), 64, rfl, ⟨rfl, rfl, rfl, rfl, by decide, by decide, by decide, rfl, rfl, by decide⟩, by
    decide +kernel⟩,
  ⟨false, 1, 5, 3, 0, at3 [(1, 9), (5, 0x7FFF8)], _, 0x7FFF8, rfl, ⟨rfl, rfl, rfl, rfl, by decide, by decide, by decide, rfl,
    rfl, by decide⟩, rfl⟩⟩

/-- The hypotheses of each clause of BitRangesGathersAndScatters can be met. -/
theorem witness_BitRangesGathersAndScatters :
    (∃ (a l : BitVec 6) (s : State),
      let p := s.x a
      let n := (s.x l).toNat
      wordPointer p n ∧ ptrAddr p < 0x80000 ∧ n % 8 = 0) ∧
    (∃ (c : BitVec 5) (b : BitVec 6) (fmt : BitVec 4) (q : BitVec 3) (s t : State) (l : List (Nat × Nat)), formatOk s fmt ∧
      let f := fmt.toNat
      let n := fmtBits f / 8
      laneAddresses s b c f q false = .ok l ∧ (∀ e ∈ l, tilesReady s e.2 n true = .ok ()) ∧ (l.foldlM (fun t e => noteRead t
        e.2 n) s = .ok t) ∧ (∀ e ∈ l, checkPoison s e.2 n = .ok ()) ∧ s.home ≠ s.curCore) ∧
    (∃ (c : BitVec 5) (b : BitVec 6) (fmt : BitVec 4) (q : BitVec 3) (s t : State) (l : List (Nat × Nat)), formatOk s fmt ∧
      let f := fmt.toNat
      let n := fmtBits f / 8
      laneAddresses s b c f q false = .ok l ∧ (∀ e ∈ l, tilesReady s e.2 n true = .ok ()) ∧ (l.foldlM (fun t e => noteRead t
        e.2 n) s = .ok t) ∧ (∀ e ∈ l, checkPoison s e.2 n = .ok ()) ∧ s.home = s.curCore) ∧
    (∃ (c : BitVec 5) (b : BitVec 6) (fmt : BitVec 4) (q : BitVec 3) (s : State) (l : List (Nat × Nat)), formatOk s fmt ∧
      let f := fmt.toNat
      let n := fmtBits f / 8
      laneAddresses s b c f q true = .ok l ∧ (∀ e ∈ l, tilesReady s e.2 n false = .ok ()) ∧ (∀ e ∈ l, (s.core
        s.home).guardedBy e.2 n = none) ∧ s.me.wtotal + n * l.length ≤ 16384) :=
  ⟨⟨5, 6, at3 [(5, 0x7FFF8), (6, 8)], by decide +kernel⟩,
  ⟨1, 5, 7, 1, gathering 3, loaded (gathering 3) 64 8, [(0, 64)], by decide, ok_of (by decide +kernel), fun e he =>
    by (simp at he; subst he; rfl), rfl, fun e he => by (simp at he; subst he; rfl), by decide +kernel⟩,
  ⟨1, 5, 7, 1, gathering 7, loaded (gathering 7) 64 8, [(0, 64)], by decide, ok_of (by decide +kernel), fun e he =>
    by (simp at he; subst he; rfl), rfl, fun e he => by (simp at he; subst he; rfl), by decide +kernel⟩,
  ⟨1, 5, 10, 1, on 3 (core 3 { seat 3 [(5, 64)] with regs := { regs [(5, 64)] with q := Vector.replicate 8 1 } }), [(0, 64)],
    by decide, ok_of (by decide +kernel), fun e he => by (simp at he; subst he; rfl), by decide +kernel⟩⟩

/-- The hypotheses of each clause of CounterUpdatesAreHeldOrRefused can be met. -/
theorem witness_CounterUpdatesAreHeldOrRefused :
    (∃ (c : BitVec 6) (s : State) (owner : CoreId) (idx : BitVec 8), counterOperand s (s.x c) = .ok (owner, idx) ∧ canHold s) ∧
    (∃ (c : BitVec 6) (s : State), localCounter (s.x c)) ∧
    (∃ (c : BitVec 6) (s : State), (ptrFmt (s.x c) = 0 ∨ ptrFmt (s.x c) = 8) ∧ ptrBlog (s.x c) = 0 ∧ (ptrSpace (s.x c) = 0 ∧
      ptrAddr (s.x c) < 0x80000 ∨ 2 ≤ ptrSpace (s.x c))) ∧
    (∃ (c : BitVec 6) (s : State), (ptrFmt (s.x c) = 0 ∨ ptrFmt (s.x c) = 8) ∧ ptrBlog (s.x c) = 0 ∧ ptrSpace (s.x c) = 1 ∧
      regionSize (chipRegion (ptrAddr (s.x c))) = none) :=
  ⟨⟨5, at3 [(5, 0x80FF0)], 3, 255, rfl, by decide +kernel⟩,
  ⟨5, at3 [(5, 0x80FF0)], by decide +kernel⟩,
  ⟨5, at3 [(5, 0x7FFF0)], by decide +kernel⟩,
  ⟨5, at3 [(5, chipPtr 3 15 0)], by decide +kernel⟩⟩

/-- The hypotheses of each clause of ReadsTriggersMailboxAtomicsAndSends can be met. -/
theorem witness_ReadsTriggersMailboxAtomicsAndSends :
    (∃ (c : BitVec 6) (s : State) (owner : CoreId) (idx : BitVec 8), counterOperand s (s.x c) = .ok (owner, idx) ∧ readsTaken
      s = .ok () ∧
      let now := owner = s.curCore ∧ s.ownTurn owner 1 = true ∧ (s.core owner).counterHeld owner idx = false
      now) ∧
    (∃ (c : BitVec 6) (s : State) (owner : CoreId) (idx : BitVec 8), counterOperand s (s.x c) = .ok (owner, idx) ∧ readsTaken
      s = .ok () ∧
      let now := owner = s.curCore ∧ s.ownTurn owner 1 = true ∧ (s.core owner).counterHeld owner idx = false
      ¬now) ∧
    (∃ (b d : BitVec 6) (s : State), canHold s ∧ localCounter (s.x b) ∧ codeKnown (ptrFmt (s.x d)) = true ∧ codeBlocked
      (ptrFmt (s.x d)) = false ∧ ptrBlog (s.x d) = 0 ∧ ptrSpace (s.x d) = 0 ∧ ptrAddr (s.x d) + 64 ≤ 0x80000 ∧ ptrAddr (s.x
      d) % 64 = 0) ∧
    (∃ (c : BitVec 6) (s : State), canHold s ∧ localCounter (s.x c)) ∧
    (∃ (b : BitVec 6) (s : State), canHold s ∧ codeKnown (ptrFmt (s.x b)) = true ∧ codeBlocked (ptrFmt (s.x b)) = false ∧
      ptrBlog (s.x b) = 0 ∧ ptrSpace (s.x b) = 1 ∧ chipRegion (ptrAddr (s.x b)) = 5 ∧ chipOffset (ptrAddr (s.x b)) = 0) ∧
    (∃ (d : BitVec 6) (s : State), canAwait s d ∧
      let now := s.home = s.curCore ∧ s.ownTurn s.curCore 1 = true
      now) ∧
    (∃ (d : BitVec 6) (s : State), canAwait s d ∧
      let now := s.home = s.curCore ∧ s.ownTurn s.curCore 1 = true
      ¬now ∧ d ≠ 0) ∧
    (∃ (d : BitVec 6) (s : State), canAwait s d ∧ d = 0) ∧
    (∃ (d b : BitVec 6) (op : BitVec 4) (s : State) (owner : CoreId) (counter : Bool) (off : Nat), amoTarget s (s.x b)
      op.toNat = .ok (owner, counter, off) ∧
      let n := if op = 1 ∨ op = 8 ∨ op = 9 then 4 else 8
      let mine := owner = s.curCore ∧ counter = false
      canHold s ∧ canAwait s d ∧ (mine → (s.core owner).guardedBy off n = none)) ∧
    (∃ (b : BitVec 6) (op : BitVec 4) (s : State) (owner : CoreId) (counter : Bool) (off : Nat), amoTarget s (s.x b) op.toNat
      = .ok (owner, counter, off) ∧
      let n := if op = 1 ∨ op = 8 ∨ op = 9 then 4 else 8
      let mine := owner = s.curCore ∧ counter = false
      mine ∧ ∃ g, (s.core owner).guardedBy off n = some g) ∧
    (∃ (a : BitVec 6) (s : State),
      let p := s.x a
      ptrSpace p = 1 ∧ s.inLaunch (chipCore (ptrAddr p)) = true ∧ canHold s) ∧
    (∃ (a : BitVec 6) (s : State),
      let p := s.x a
      ptrSpace p ≠ 1) ∧
    (∃ (a : BitVec 6) (s : State),
      let p := s.x a
      ptrSpace p = 1 ∧ s.inLaunch (chipCore (ptrAddr p)) = false) :=
  ⟨⟨5, at3 [(5, 0x80FF0)], 3, 255, rfl, rfl, by decide +kernel⟩,
  ⟨5, at3 [(5, chipPtr 7 1 0xFE0)], 7, 254, rfl, rfl, by decide +kernel⟩,
  ⟨5, 6, at3 [(5, 0x80FF0), (6, 0x7FFC0)], by decide +kernel⟩,
  ⟨5, at3 [(5, 0x80FF0)], by decide +kernel⟩,
  ⟨5, at3 [(5, chipPtr 4 5 0)], by decide +kernel⟩,
  ⟨1, at3 [], by decide +kernel⟩,
  ⟨1, lentTo7 (idle 3), by decide +kernel⟩,
  ⟨0, at3 [], by decide +kernel⟩,
  ⟨1, 5, 7, at3 [(5, 0x7FFF8)], 3, false, 0x7FFF8, rfl, by decide +kernel, by decide +kernel, fun _ => rfl⟩,
  ⟨5, 7, on 3 { core 3 (seat 3 [(5, 0x7FF8)]) with rings := ringed }, 3, false, 0x7FF8, rfl, ⟨rfl, rfl⟩, 2, by
    decide +kernel⟩,
  ⟨5, at3 [(5, chipPtr 7 0 0)], by decide +kernel⟩,
  ⟨5, at3 [], by decide +kernel⟩,
  ⟨5, at3 [(5, chipPtr 8 0 0)], by decide +kernel⟩⟩

/-- The hypotheses of each clause of EnginesAndWindows can be met. -/
theorem witness_EnginesAndWindows :
    (∃ (a : BitVec 6) (s : State), canHold s ∧ canAwait s a) ∧
    (∃ (b c d : BitVec 6) (s : State) (region base : Nat),
      let len := (s.x c).toNat
      windowBase s (s.x b) = .ok (region, base) ∧ (∃ z, regionSize region = some z ∧ base + len ≤ z) ∧ checkRect s (s.x d) =
        .ok ()) ∧
    (∃ (b : BitVec 6) (s : State), checkRect s (s.x b) = .ok () ∧ canHold s) ∧
    (∃ (b : BitVec 6) (s : State), checkRect s (s.x b) ≠ .ok ()) :=
  ⟨⟨1, at3 [], by decide +kernel⟩,
  ⟨5, 6, 7, at3 [(5, 0x7FF00), (6, 256), (7, scopeForm 0 0 7 0)], 0, 0x7FF00, rfl, ⟨_, rfl, by decide +kernel⟩, rfl⟩,
  ⟨5, at3 [(5, scopeForm 4 0 7 0)], rfl, by decide +kernel⟩,
  ⟨5, at3 [(5, scopeForm 0 0 15 0)], fun h => nomatch h⟩⟩

/-- The hypotheses of each clause of TheMatrixQueueAndItsStatus can be met. -/
theorem witness_TheMatrixQueueAndItsStatus :
    (∃ (fmt : BitVec 4) (wc : BitVec 3) (s : State), matrixRoom s ∧ tableFor s fmt ∧ (wc ≠ 0 → ∃ r, s.myRect = some r ∧
      rectInside (gangRect s.curCore wc.toNat) r = true)) ∧
    (∃ (wc : BitVec 3) (s : State), matrixRoom s ∧ wc ≠ 0 ∧ (∀ r, s.myRect = some r → rectInside (gangRect s.curCore
      wc.toNat) r = false)) ∧
    (∃ (s : State), matrixRoom s ∧ hasF64 s.curCore = true) ∧
    (∃ (s : State), isHall s.curCore = false ∧ s.here.matrix.length = 8) ∧
    (∃ (s : State), isHall s.curCore = true) ∧
    (∃ (s : State), isHall s.curCore = false ∧ (∀ e ∈ s.here.matrix, e.seat ≠ s.curSeat)) ∧
    (∃ (s : State), isHall s.curCore = false ∧ (∃ e ∈ s.here.matrix, e.seat = s.curSeat)) :=
  ⟨⟨14, 3, on 3 { core 3 (seat 3 []) with cbValid := true }, by decide +kernel, by decide +kernel, fun _ => ⟨_, rfl, rfl⟩⟩,
  ⟨4, at3 [], by decide +kernel, by decide +kernel, fun r h => by (cases h; rfl)⟩,
  ⟨on 7 (core 7 (seat 7 [])), by decide +kernel⟩,
  ⟨on 3 { core 3 (seat 3 []) with matrix := List.replicate 8 (accz 1) }, by decide +kernel⟩,
  ⟨hall [], by decide +kernel⟩,
  ⟨on 3 { core 3 (seat 3 []) with matrix := [accz 1] }, by decide +kernel⟩,
  ⟨on 3 { core 3 (seat 3 []) with matrix := [accz 0] }, by decide +kernel⟩⟩

/-- The hypotheses of RingInstructions can be met. -/
theorem witness_RingInstructions :
    ∃ (b : BitVec 6) (s : State), isHall s.curCore = false ∧ canHold s ∧ ∃ a, checkLocal (s.x b) 16 16 = .ok a ∧ checkPoison
      s a 16 = .ok () ∧ checkRing (s.readHomeWord a) (s.readHomeWord (a + 8)) = .ok () :=
  ⟨5, on 3 (words [0x0400000000007800, 1] (seat 3 [(5, 64)])), by decide +kernel, by decide +kernel, 64, rfl, rfl, rfl⟩

/-- The hypotheses of each clause of TagsAndMeetings can be met. -/
theorem witness_TagsAndMeetings :
    (∃ (d n : BitVec 6) (s : State), canAwait s d ∧
      let v := s.settleFrees s.me.lid
      let size := (s.x n).toNat
      ∃ l b, v.launch s.me.lid = some l ∧ 1 ≤ size ∧ size ≤ 4096 ∧ l.findBlock (pow2AtLeast size) = some b) ∧
    (∃ (d n : BitVec 6) (s : State), canAwait s d ∧
      let v := s.settleFrees s.me.lid
      let size := (s.x n).toNat
      (size = 0 ∨ 4096 < size ∨ (∀ l, v.launch s.me.lid = some l → l.findBlock (pow2AtLeast size) = none))) ∧
    (∃ (l : Launch) (k : Nat), ∃ b, l.findBlock (2 ^ k) = some b ∧ ∃ a, a % 2 ^ k = 0 ∧ l.blockFree a (2 ^ k) = true) ∧
    (∃ (l : Launch) (k : Nat), l.findBlock (2 ^ k) = none ∧ ∃ a, a % 2 ^ k = 0) ∧
    (∃ (t r : BitVec 6) (s : State),
      let tag := s.x t
      let size := (s.x r).toNat
      let block := (∃ k, k ≤ 12 ∧ size = 2 ^ k) ∧ tag.field 0 24 % size = 0
      tagOk tag ∧ block) ∧
    (∃ (t r : BitVec 6) (s : State),
      let tag := s.x t
      ∃ dest stat ctr, tagOk tag ∧ recordPointer s (s.x r) 32 ∧
      let w := recordWords s (s.x r) 32
      let control := wordAt w 3
      let n := 128 * (control.field 8 2 + 1)
      bindControl control = true ∧ bindPointer s (wordAt w 0) n 128 = .ok dest ∧ bindPointer s (wordAt w 1) 8 8 = .ok stat ∧
        bindCounter s (wordAt w 2) = .ok ctr ∧ canHold s) ∧
    (∃ (t : BitVec 6) (s : State),
      let tag := s.x t
      tagOk tag ∧ tag.field 32 8 ≤ 15 ∧ canHold s) ∧
    (∃ (t r : BitVec 6) (s : State),
      let tag := s.x t
      let size := (s.x r).toNat
      let block := (∃ k, k ≤ 12 ∧ size = 2 ^ k) ∧ tag.field 0 24 % size = 0
      ¬ (tagOk tag ∧ block)) ∧
    (∃ (t : BitVec 6) (s : State),
      let tag := s.x t
      2 ^ 40 ≤ tag.toNat) ∧
    (∃ (t : BitVec 6) (s : State),
      let tag := s.x t
      (2 ^ 40 ≤ tag.toNat ∨ 15 < tag.field 32 8)) :=
  ⟨⟨1, 5, at3 [(5, 4096)], by decide +kernel, launch1, 0, by decide +kernel⟩,
  ⟨1, 5, at3 [(5, 4097)], by decide +kernel, Or.inr (Or.inl (by decide +kernel))⟩,
  ⟨launch1, 12, 0, by decide +kernel, 4096, by decide +kernel⟩,
  ⟨{ launch1 with tagBlocks := [(0, 2 ^ 24)] }, 24, by decide +kernel, 0, by decide +kernel⟩,
  ⟨5, 6, at3 [(5, 4096), (6, 4096)], by decide +kernel, ⟨⟨12, by decide, by decide +kernel⟩, by decide +kernel⟩⟩,
  ⟨5, 6, on 3 (words [0x7FE00, 0x7FFF8, 0x80FF0, 0xFFFF000100000306] (seat 3 [(5, 7), (6, 64)])), chipPtr 3 0 0x7FE00,
    chipPtr 3 0 0x7FFF8, chipPtr 3 1 0xFF0, by decide +kernel, by decide +kernel, by decide +kernel, rfl, rfl, rfl, by
    decide +kernel⟩,
  ⟨5, at3 [(5, 0x0F00000000)], by decide +kernel⟩,
  ⟨5, 6, at3 [(5, 2 ^ 40)], fun h => absurd h.1 (by decide +kernel)⟩,
  ⟨5, at3 [(5, 0x10000000000)], by decide +kernel⟩,
  ⟨5, at3 [(5, 0x1000000000)], by decide +kernel⟩⟩

/-- The hypotheses of each clause of ExpertInstructionsAreHeld can be met. -/
theorem witness_ExpertInstructionsAreHeld :
    (∃ (a b c : BitVec 6) (s : State), canHold s ∧ canAwait s a ∧
      let p := s.x c
      (s.x b).toNat < 2 ^ 20 ∧ codeKnown (ptrFmt p) = true ∧ codeBlocked (ptrFmt p) = false ∧ ptrBlog p = 0 ∧ (ptrSpace p = 0
        ∧ ptrAddr p < 0x80000 ∨ ptrSpace p = 2)) ∧
    (∃ (a b c : BitVec 6) (s : State), canHold s ∧ canAwait s a ∧
      let p := s.x c
      (s.x b).toNat < 2 ^ 20 ∧ recordPointer s p 32) ∧
    (∃ (a b c : BitVec 6) (s : State), canHold s ∧ canAwait s a ∧
      let p := s.x c
      (s.x b).toNat < 2 ^ 20 ∧ localPointer p 128) ∧
    (∃ (a b : BitVec 6) (s : State), canHold s ∧ canAwait s a ∧ 2 ^ 20 ≤ (s.x b).toNat) :=
  ⟨⟨1, 5, 6, at3 [(5, 0xFFFFF), (6, 0x7FFFF)], by decide +kernel⟩,
  ⟨1, 5, 6, at3 [(5, 0xFFFFF), (6, 0x7FFE0)], by decide +kernel⟩,
  ⟨1, 5, 6, at3 [(5, 0xFFFFF), (6, 0x7FF80)], by decide +kernel⟩,
  ⟨1, 5, at3 [(5, 0x100000)], by decide +kernel⟩⟩

/-- The hypotheses of each clause of GroupsSpawnsAndQueues can be met. -/
theorem witness_GroupsSpawnsAndQueues :
    (∃ (a b c : BitVec 6) (s : State),
      let h := s.x b
      canHold s ∧ handleOk s h ∧ canAwait s a ∧ recordPointer s (s.x c) 64) ∧
    (∃ (a c : BitVec 6) (s : State), canHold s ∧ canAwait s a ∧ handleOk s (s.x c)) ∧
    (∃ (a b : BitVec 6) (s : State),
      let h := s.x b
      canHold s ∧ canAwait s a ∧ recordPointer s h 32 ∧
      let w := recordWords s h 32
      groupConfig w = true ∧ ptrAddr (wordAt w 0) + 8 * (wordAt w 3).field 8 7 ≤ 0x80000) ∧
    (∃ (a : BitVec 6) (s : State), recordPointer s (s.x a) 64 ∧ canHold s) ∧
    (∃ (a b c : BitVec 6) (s : State),
      let w := recordWords s (s.x a) 64
      let home := (wordAt w 1).field 0 11
      recordPointer s (s.x a) 64 ∧ (s.x b).toNat < 2 ^ 63 ∧ s.inLaunch home = true ∧ canHold s ∧ (s.x c).toNat < 2048 ∧
        s.inLaunch (s.x c).toNat = true) ∧
    (∃ (a b c : BitVec 6) (s : State),
      let w := recordWords s (s.x a) 64
      let home := (wordAt w 1).field 0 11
      recordPointer s (s.x a) 64 ∧ (s.x b).toNat < 2 ^ 63 ∧ s.inLaunch home = true ∧ (2048 ≤ (s.x c).toNat ∨ s.inLaunch (s.x
        c).toNat = false)) ∧
    (∃ (a b : BitVec 6) (s : State), recordPointer s (s.x a) 64 ∧ 2 ^ 63 ≤ (s.x b).toNat) ∧
    (∃ (a b : BitVec 6) (s : State),
      let w := recordWords s (s.x a) 64
      let home := (wordAt w 1).field 0 11
      recordPointer s (s.x a) 64 ∧ (s.x b).toNat < 2 ^ 63 ∧ s.inLaunch home = false) ∧
    (∃ (a : BitVec 6) (s : State), localPointer (s.x a) 64 ∧ canHold s) ∧
    (∃ (a b : BitVec 6) (s : State), localPointer (s.x b) 64 ∧ canAwait s a) :=
  ⟨⟨1, 5, 6, at3 [(5, handle), (6, 0x7FFC0)], by decide +kernel⟩,
  ⟨1, 5, at3 [(5, handle)], by decide +kernel⟩,
  ⟨1, 5, on 3 (words [0x7FE00, 0x1000, 0, 0x10000 + 0x4000] (seat 3 [(5, 64)])), by decide +kernel⟩,
  ⟨5, at3 [(5, 0x7FFC0)], by decide +kernel⟩,
  ⟨5, 6, 7, at3 [(5, 0x7FFC0), (7, 7)], by decide +kernel⟩,
  ⟨5, 6, 7, at3 [(5, 0x7FFC0), (7, 8)], by decide +kernel⟩,
  ⟨5, 6, at3 [(5, 0x7FFC0), (6, 2 ^ 63)], by decide +kernel⟩,
  ⟨5, 6, on 3 (words [0, 8, 0, 0, 0, 0, 0, 0] (seat 3 [(5, 64)])), by decide +kernel⟩,
  ⟨5, at3 [(5, 0x7FFC0)], by decide +kernel⟩,
  ⟨1, 5, at3 [(5, 0x7FFC0)], by decide +kernel⟩⟩

/-- The hypotheses of each clause of SystemRegisters can be met. -/
theorem witness_SystemRegisters :
    (∃ (num : BitVec 10),
      let n := num.toNat
      n ≤ 11) ∧
    (∃ (num : BitVec 10) (s : State),
      let h := isHall s.curCore
      let n := num.toNat
      h = true ∧ (n = 0x200 ∨ n = 0x201 ∨ n = 0x202 ∨ n = 0x203 ∨ n = 0x208)) ∧
    (∃ (num : BitVec 10),
      let n := num.toNat
      12 ≤ n ∧ n < 0x200) ∧
    (∃ (num : BitVec 10) (s : State),
      let h := isHall s.curCore
      let n := num.toNat
      h = false ∧ 0x200 ≤ n) ∧
    (∃ (num : BitVec 10),
      let n := num.toNat
      n ≤ 6) ∧
    (∃ (num : BitVec 10),
      let n := num.toNat
      7 ≤ n) ∧
    (∃ (s : State), isHall s.curCore = true) ∧
    (∃ (num : BitVec 10) (s : State), isHall s.curCore = false ∧ 0x200 ≤ num.toNat) ∧
    (∃ (num : BitVec 10), num.toNat < 0x200 ∧ num ≠ 7 ∧ num ≠ 8) :=
  ⟨⟨11, by decide +kernel⟩,
  ⟨0x208, hall [], by decide +kernel⟩,
  ⟨0x1FF, by decide +kernel⟩,
  ⟨0x200, at3 [], by decide +kernel⟩,
  ⟨6, by decide +kernel⟩,
  ⟨7, by decide +kernel⟩,
  ⟨hall [], by decide +kernel⟩,
  ⟨0x200, at3 [], by decide +kernel⟩,
  ⟨0x1FF, by decide +kernel⟩⟩

/-- The hypotheses of each clause of HallDecisionsAndPrivilege can be met. -/
theorem witness_HallDecisionsAndPrivilege :
    (∃ (a : BitVec 6) (s : State), isHall s.curCore = true ∧ s.tickets.find? (·.id == (s.x a).field 0 16) = none) ∧
    (∃ (a : BitVec 6) (s : State), isHall s.curCore = true ∧ ∃ k, s.tickets.find? (·.id == (s.x a).field 0 16) = some k ∧ ∃
      r, k.record = some r) ∧
    (∃ (a : BitVec 6) (s : State), isHall s.curCore = true ∧ ∃ k, s.tickets.find? (·.id == (s.x a).field 0 16) = some k ∧
      k.record = none ∧ k.seat < 4 ∧ s.curSeat < 4 ∧ (k.core ≠ s.curCore ∨ k.seat ≠ s.curSeat) ∧ (∀ c, s.context k.ctx = some
      c → assocGet c.saved k.core = none)) ∧
    (∃ (a : BitVec 6) (s : State), isHall s.curCore = true ∧ ∃ k, s.tickets.find? (·.id == (s.x a).field 0 16) = some k ∧ ∃ c
      j, k.record = none ∧ s.context k.ctx = some c ∧ assocGet c.saved k.core = some j) ∧
    (∃ (a b : BitVec 6) (s : State), isHall s.curCore = true ∧ canHold s ∧ (s.x b).field 0 7 ≤ 95 ∧ (s.x b).field 9 3 ≤ 4 ∧
      (s.x b).toNat < 2 ^ 12 ∧ ((s.x b).getLsbD 8 = true ∨ ptrSpace (s.x a) = 2)) ∧
    (∃ (a b c : BitVec 6) (s : State),
      let rect := s.x c
      let ctx := (s.x b).toNat
      isHall s.curCore = true ∧ canHold s ∧ ∃ idx, counterOperand s (s.x a) = .ok (s.curCore, idx) ∧ 1 ≤ ctx ∧ ctx ≤ 65535 ∧
        rectShape rect = true ∧ (∀ c ∈ rectCores rect, s.inPartition ctx true c = true)) ∧
    (∃ (b c d : BitVec 6) (s : State),
      let vf := (s.x b).field 0 7
      isHall s.curCore = true ∧ canHold s ∧ canAwait s d ∧ vf ≤ 95 ∧ (s.x b).getLsbD 7 = false ∧ (s.x b).toNat < 2 ^ 10 ∧
        (s.x b).field 8 2 ≠ 3 ∧ recordPointer s (s.x c) 64) ∧
    (∃ (s : State), isHall s.curCore = false) :=
  ⟨⟨5, hall [(5, 0x10001)], by decide +kernel⟩,
  ⟨5, { hall [(5, 0x10001)] with tickets := [{ ticket3 with record := some (rec 0) }] }, by decide +kernel,
    { ticket3 with record := some (rec 0) }, by decide +kernel, rec 0, by decide +kernel⟩,
  by refine ⟨5, { hall [(5, 0x10001)] with tickets := [ticket3] }, ?h2_1, ticket3, ?h2_2, ?h2_3, ?h2_4, ?h2_5, ?h2_6, fun c h
    => by (cases h; rfl)⟩ <;> decide +kernel,
  ⟨5, { hall [(5, 0x10001)] with tickets := [ticket3], contexts := [{ context1 with saved := [(3, idle 3)] }] }, by
    decide +kernel, ticket3, by decide +kernel, { context1 with saved := [(3, idle 3)] }, idle 3, by decide +kernel⟩,
  ⟨5, 6, hall [(5, 0), (6, 0x95F)], by decide +kernel⟩,
  ⟨5, 6, 7, hall [(5, 0x80FF0), (6, 1), (7, scopeForm 0 0 7 0)], by decide +kernel, by decide +kernel, 255, rfl, by
    decide +kernel⟩,
  ⟨5, 6, 1, hall [(5, 0x25F), (6, 0x7FFC0)], by decide +kernel⟩,
  ⟨at3 [], by decide +kernel⟩⟩

/-- The hypotheses of each clause of SeatsMoveOn can be met. -/
theorem witness_SeatsMoveOn :
    (∃ (c k : Nat) (s : State),
      let x := s.seat c k
      x.st = .parked ∧ x.haltedAt = none ∧ (∀ g ∈ x.results, g.waits = 0 ∧ g.readyAt ≤ s.cycle) ∧ x.boundary = none) ∧
    (∃ (c k : Nat) (s : State),
      let x := s.seat c k
      x.st = .parked ∧ x.haltedAt = none ∧ (∀ g ∈ x.results, g.waits = 0 ∧ g.readyAt ≤ s.cycle) ∧ x.boundary ≠ none) ∧
    (∃ (c : Nat) (k : Nat) (s : State), ∃ f y tag v d, arrives s f y ∧ y.body = .deferred tag v ∧ (s.dropFlight
      f).seatAwaiting tag = some (c, k, d)) ∧
    (∃ (c k : Nat) (s : State),
      let x := s.seat c k
      let home := seatHome c x
      ∃ l b, x.st = .stalled ∧ x.haltedAt = none ∧ x.waitFull = some (l, b) ∧ (∀ a ∈ l, wordFull (s.core home) c k x a = b) ∧
        s.testsAfter c k home (if b then l else []) = false) ∧
    (∃ (c k : Nat) (s : State),
      let x := s.seat c k
      x.st = .running ∧ (x.count = 512 ∨ ∃ w i, fetchAt (s.core c) x.regs.pc = .words w ∧ decode w.head w.tail = .ok i ∧ gate
        x w i = .boundary)) ∧
    (∃ (c k : Nat) (s : State),
      let x := s.seat c k
      (x.st = .running ∨ x.st = .parked ∨ x.st = .stalled ∨ x.st = .committing) ∧ x.started = true ∧ x.haltedAt = none ∧
        x.budget ≤ s.cycle - x.startAt) ∧
    (∃ (c k : Nat) (s : State),
      let x := s.seat c k
      ∃ l, x.st = .stalled ∧ x.rerun = some l ∧ s.effectsDone l = true) ∧
    (∃ (c k : Nat) (s : State),
      let x := s.seat c k
      ∃ h, s.threadOn c k = some h ∧ x.hall.sliceEnd = false ∧ h.since + 4000000 ≤ s.cycle) ∧
    (∃ (c k : Nat) (s : State),
      let x := s.seat c k
      2048 ≤ c ∧ k < 4 ∧ x.st = .running ∧ x.started = false ∧ x.hall.sliceEnd = true ∧ x.hall.service = false ∧
      let gives (h : HallThread) : Prop := s.hallFull = true ∧ ∃ r ∈ s.runQueue, r.ready = true ∧ r.prio ≤ h.prio
      (∀ h, s.threadOn c k = some h → ¬gives h)) ∧
    (∃ (c k : Nat) (s : State),
      let x := s.seat c k
      2048 ≤ c ∧ k < 4 ∧ x.st = .running ∧ x.started = false ∧ x.hall.sliceEnd = true ∧ x.hall.service = false ∧
      let gives (h : HallThread) : Prop := s.hallFull = true ∧ ∃ r ∈ s.runQueue, r.ready = true ∧ r.prio ≤ h.prio
      ∃ h, s.threadOn c k = some h ∧ gives h) ∧
    (∃ (c k : Nat) (s : State),
      let x := s.seat c k
      x.conflict = true ∧ x.granted = false ∧ x.haltedAt = none ∧ (x.st = .running ∨ x.st = .committing) ∧ k < 4) :=
  ⟨⟨3, 0, on 3 (core 3
    { seatIn .parked with results := [{ reg := some (.x 1), val := 9, readyAt := 5000, waits := 0, live := true, nf := 0 }] }),
    by decide +kernel⟩,
  ⟨3, 0, on 3 (core 3 { seatIn .parked with boundary := some .hend }), by decide +kernel⟩,
  ⟨3, 0, arriving (core 3
    { seatIn .running with deferred := [{ reg := .x 1, unit := .blockQueue, tag := 21, old := true }] }) 3 (.deferred 21 7),
    5, flight 3 (.deferred 21 7), 21, 7, { reg := .x 1, unit := .blockQueue, tag := 21, old := true }, by decide +kernel⟩,
  ⟨3, 0, on 3 { core 3 { seatIn .stalled with waitFull := some ([64], true) } with full := [64] }, [64], true, by
    decide +kernel⟩,
  ⟨3, 0, on 3 (core 3 { seatIn .running with count := 512 }), by decide +kernel, Or.inl rfl⟩,
  ⟨3, 0, on 3 (core 3 { seatIn .committing with started := true, startAt := 1000 }), by decide +kernel⟩,
  ⟨3, 0, on 3 (core 3 { seatIn .stalled with rerun := some [8] }), [8], by decide +kernel⟩,
  ⟨2048, 3, { hall [] with cycle := 4000000, runQueue := [thread2] }, thread2, by decide +kernel⟩,
  by refine ⟨2048, 0, on 2048
    { Core.init 2048 with seat0 := { seat 2048 [] with hall := { HallRegs.zero with sliceEnd := true } } }, ?h8_1, ?h8_2,
    ?h8_3, ?h8_4, ?h8_5, ?h8_6, fun _ h => by cases h⟩ <;> decide +kernel,
  by refine ⟨2048, 0, fullHalls, ?h9_1, ?h9_2, ?h9_3, ?h9_4, ?h9_5, ?h9_6, endedThread, rfl, ⟨by decide +kernel,
    { thread1 with ctx := 2 }, by decide, rfl, by decide⟩⟩ <;> decide +kernel,
  ⟨3, 0, on 3 (core 3 { seatIn .committing with conflict := true }), by decide +kernel⟩⟩

/-- The hypotheses of each clause of ChunksDrainAndEnd can be met. -/
theorem witness_ChunksDrainAndEnd :
    (∃ (c k : Nat) (s : State),
      let x := s.seat c k
      let either (m : Nat) : Bool := s.chunkReady c m && (s.taskMay (s.seat c m) || s.finishedMay (s.seat c m)) && s.checked c m
      c < 2064 ∧ k < 4 ∧ s.chunkReady c k = true ∧ memoriesWf s ∧ s.taskMay x = true ∧ s.grantTurn c k either = true ∧
        s.commitCheck c k = .ok ()) ∧
    (∃ (c k : Nat) (s : State),
      let x := s.seat c k
      let either (m : Nat) : Bool := s.chunkReady c m && (s.taskMay (s.seat c m) || s.finishedMay (s.seat c m)) && s.checked c m
      c < 2064 ∧ k < 4 ∧ s.chunkReady c k = true ∧ memoriesWf s ∧ s.taskMay x = true ∧ s.grantTurn c k either = true ∧
        s.commitCheck c k = .error .wait) ∧
    (∃ (c k : Nat) (s : State),
      let x := s.seat c k
      let either (m : Nat) : Bool := s.chunkReady c m && (s.taskMay (s.seat c m) || s.finishedMay (s.seat c m)) && s.checked c m
      c < 2064 ∧ k < 4 ∧ s.chunkReady c k = true ∧ memoriesWf s ∧ s.taskMay x = true ∧ s.grantTurn c k either = true ∧ ∃ ia
        cause arg, s.commitCheck c k = .error (.trap ia cause arg)) ∧
    (∃ (c k : Nat) (s : State),
      let x := s.seat c k
      let either (m : Nat) : Bool := s.chunkReady c m && (s.taskMay (s.seat c m) || s.finishedMay (s.seat c m)) && s.checked c m
      c < 2064 ∧ k < 4 ∧ s.chunkReady c k = true ∧ memoriesWf s ∧ s.finishedMay x = true ∧ s.grantTurn c k either = true ∧
        s.commitCheck c k = .ok ()) ∧
    (∃ (c k : Nat) (s : State),
      let x := s.seat c k
      let stays : Prop := s.hallRetired c = false ∨ s.threadOn c k = none
      c < 2064 ∧ k < 4 ∧ x.st = .committing ∧ x.granted = true ∧ x.grantAt ≤ s.cycle ∧ s.cycle - x.startAt < x.budget ∧
        x.origin = none ∧ x.trap = none ∧ x.held = [] ∧ (x.boundary = some .chunk ∨ x.boundary = some .implicit ∨ (∃ f,
        x.boundary = some (.fence f))) ∧ stays) ∧
    (∃ (c k : Nat) (s : State),
      let x := s.seat c k
      c < 2064 ∧ k < 4 ∧ x.st = .committing ∧ x.granted = true ∧ x.grantAt ≤ s.cycle ∧ s.cycle - x.startAt < x.budget ∧
        x.origin = none ∧ x.trap = none ∧ x.held = [] ∧ (x.boundary = some .chunk ∨ x.boundary = some .implicit ∨ (∃ f,
        x.boundary = some (.fence f))) ∧ ∃ h, s.hallRetired c = true ∧ s.threadOn c k = some h) ∧
    (∃ (c k : Nat) (s : State),
      let x := s.seat c k
      c < 2064 ∧ k < 4 ∧ x.st = .committing ∧ x.granted = true ∧ x.grantAt ≤ s.cycle ∧ s.cycle - x.startAt < x.budget ∧
        x.origin = none ∧ x.trap = none ∧ x.held = [] ∧ x.boundary = some .hend) ∧
    (∃ (c k : Nat) (s : State),
      let x := s.seat c k
      c < 2064 ∧ k < 4 ∧ x.st = .committing ∧ x.granted = true ∧ x.grantAt ≤ s.cycle ∧ s.cycle - x.startAt < x.budget ∧
        x.origin = none ∧ x.trap = none ∧ x.held = [] ∧ ∃ addr core idx thr ia, x.boundary = some (.waitc addr core idx thr
        ia) ∧ s.pathHeld c x = false ∧ core ≠ c) ∧
    (∃ (c k : Nat) (s : State),
      let x := s.seat c k
      c < 2064 ∧ k < 4 ∧ x.st = .committing ∧ x.granted = true ∧ x.grantAt ≤ s.cycle ∧ s.cycle - x.startAt < x.budget ∧
        x.origin = none ∧ x.trap = none ∧ x.held = [] ∧ ∃ addr core idx thr ia, x.boundary = some (.waitc addr core idx thr
        ia) ∧ s.pathHeld c x = false ∧ core = c ∧ s.ownTurn c 1 = true ∧ (s.core c).counterHeld c idx = false ∧ ((s.core
        c).counters[idx.toFin]).value.toNat < thr.toNat) ∧
    (∃ (c k : Nat) (s : State),
      let x := s.seat c k
      let stays : Prop := s.hallRetired c = false ∨ s.threadOn c k = none
      c < 2064 ∧ k < 4 ∧ x.st = .committing ∧ x.granted = true ∧ x.grantAt ≤ s.cycle ∧ s.cycle - x.startAt < x.budget ∧
        x.origin = none ∧ x.trap = none ∧ ∃ h addr core idx op, x.held = [h] ∧ h.body = .counter addr core idx op ∧
        x.boundary = some .chunk ∧ s.pathHeld c x = false ∧ stays ∧ core ≠ c) ∧
    (∃ (c k : Nat) (s : State),
      let x := s.seat c k
      let stays : Prop := s.hallRetired c = false ∨ s.threadOn c k = none
      c < 2064 ∧ k < 4 ∧ x.st = .committing ∧ x.granted = true ∧ x.grantAt ≤ s.cycle ∧ s.cycle - x.startAt < x.budget ∧
        x.origin = none ∧ x.trap = none ∧ ∃ h addr core idx op, x.held = [h] ∧ h.body = .counter addr core idx op ∧
        x.boundary = some .chunk ∧ s.pathHeld c x = false ∧ stays ∧ core = c ∧ ∃ new, ((s.core c).counters[idx.toFin]).apply
        op = .ok new) :=
  ⟨by refine ⟨3, 0, on 3 (core 3 ending), ?h0_1, ?h0_2, ?h0_3, ?h0_4, ?h0_5, ?h0_6, rfl⟩ <;> decide +kernel,
  by refine ⟨3, 0, on 3 { core 3 (endingWith (.ringPublish 2 1)) with rings := ringed }, ?h1_1, ?h1_2, ?h1_3, ?h1_4, ?h1_5,
    ?h1_6, rfl⟩ <;> decide +kernel,
  by refine ⟨3, 0, on 3 { core 3 (endingWith (.ringPublish 2 2)) with rings := ringed }, ?h2_1, ?h2_2, ?h2_3, ?h2_4, ?h2_5,
    ?h2_6, 16, 0x11, 2, rfl⟩ <;> decide +kernel,
  by refine ⟨3, 0, { on 3 (core 3 finishedTask) with launches := [{ launch1 with horizon := some (1, 0) }] }, ?h3_1, ?h3_2,
    ?h3_3, ?h3_4, ?h3_5, ?h3_6, rfl⟩ <;> decide +kernel,
  by refine ⟨3, 0, on 3 (core 3 (granted .implicit)), ?h4_1, ?h4_2, ?h4_3, ?h4_4, ?h4_5, ?h4_6, ?h4_7, ?h4_8, ?h4_9, Or.inr
    (Or.inl rfl), ?h4_10⟩ <;> decide +kernel,
  by refine ⟨2049, 0, retiring, ?h5_1, ?h5_2, ?h5_3, ?h5_4, ?h5_5, ?h5_6, ?h5_7, ?h5_8, ?h5_9, Or.inr (Or.inl rfl),
    { endedThread with place := some (2049, 0) }, ?h5_10, rfl⟩ <;> decide +kernel,
  ⟨3, 0, on 3 (core 3 (granted .hend)), by decide +kernel⟩,
  by refine ⟨3, 0, on 3 (core 3 (granted (.waitc 0 7 254 5 16))), ?h7_1, ?h7_2, ?h7_3, ?h7_4, ?h7_5, ?h7_6, ?h7_7, ?h7_8,
    ?h7_9, 0, 7, 254, 5, 16, ?h7_10⟩ <;> decide +kernel,
  by refine ⟨3, 0, on 3 (core 3 (granted (.waitc 0x80FE0 3 254 5 16))), ?h8_1, ?h8_2, ?h8_3, ?h8_4, ?h8_5, ?h8_6, ?h8_7,
    ?h8_8, ?h8_9, 0x80FE0, 3, 254, 5, 16, ?h8_10⟩ <;> decide +kernel,
  by refine ⟨3, 0, on 3 (core 3 (adding 0 7)), ?h9_1, ?h9_2, ?h9_3, ?h9_4, ?h9_5, ?h9_6, ?h9_7, ?h9_8, ⟨16, 21, .counter 0 7
    254 (.add 1)⟩, 0, 7, 254, .add 1, ?h9_9⟩ <;> decide +kernel,
  by refine ⟨3, 0, on 3 (core 3 (adding 0x80FE0 3)), ?h10_1, ?h10_2, ?h10_3, ?h10_4, ?h10_5, ?h10_6, ?h10_7, ?h10_8, ⟨16, 21,
    .counter 0x80FE0 3 254 (.add 1)⟩, 0x80FE0, 3, 254, .add 1, ?h10_9, ?h10_10, ?h10_11, ?h10_12, ?h10_13, ?h10_14, ⟨1, 0⟩,
    rfl⟩ <;> decide +kernel⟩

/-- The hypotheses of each clause of RecordsAndTheLarder can be met. -/
theorem witness_RecordsAndTheLarder :
    (∃ (f : Nat) (x : Flight) (s : State) (r : Record), arrives s f x ∧ x.body = .record r ∧ s.nackBefore x = false) ∧
    (∃ (f : Nat) (x : Flight) (s : State) (r : Record), ∃ line, arrives s f x ∧ x.body = .initial r line) ∧
    (∃ (f : Nat) (x : Flight) (s : State) (r : Record), ∃ a bs, arrives s f x ∧ x.body = .initial r (some (a, bs))) ∧
    (∃ (f : Nat) (x : Flight) (s : State) (r : Record), arrives s f x ∧ x.body = .spawned r ∧ isHall x.dst = false) ∧
    (∃ (f : Nat) (x : Flight) (s : State) (r : Record),
      let k := s.core x.dst
      arrives s f x ∧ x.body = .levelled r ∧ k.work.length < 32) ∧
    (∃ (f : Nat) (x : Flight) (s : State) (r : Record),
      let k := s.core x.dst
      arrives s f x ∧ x.body = .levelled r ∧ 32 ≤ k.work.length) ∧
    (∃ (f : Nat) (x : Flight) (s : State), arrives s f x ∧ isHall x.dst = false ∧ ∃ o, x.body = .pulled o) ∧
    (∃ (s : State) (lid : Nat) (l : Launch), s.launch lid = some l ∧ l.pending ≠ [] ∧ l.startAt + 600 ≤ s.cycle) ∧
    (∃ (f : Nat) (x : Flight) (s : State) (l : Launch) (larder : Nat) (r : Record), due s f x ∧ s.launch x.lid = some l ∧
      x.body = .push larder none r ∧ s.extending x.lid larder none x.id = false ∧ l.queue larder none < l.capacity larder
      none) ∧
    (∃ (f : Nat) (x : Flight) (s : State) (l : Launch) (larder : Nat) (r : Record), due s f x ∧ s.launch x.lid = some l ∧
      x.body = .push larder none r ∧ (s.extending x.lid larder none x.id = true ∨ l.capacity larder none ≤ l.queue larder
      none)) ∧
    (∃ (f : Nat) (x : Flight) (s : State) (l : Launch) (larder q : Nat) (r : Record), due s f x ∧ s.launch x.lid = some l ∧
      x.body = .push larder (some q) r ∧ s.extending x.lid larder (some q) x.id = false ∧ l.queue larder (some q) <
      l.capacity larder (some q)) ∧
    (∃ (f : Nat) (x : Flight) (s : State) (l : Launch) (larder q : Nat) (r : Record), s.flight f = some x ∧ s.launch x.lid =
      some l ∧ x.body = .extend larder (some q) r ∧ s.extending x.lid larder (some q) x.id = false) ∧
    (∃ (f : Nat) (x : Flight) (s : State) (l : Launch) (larder : Nat) (q : Nat) (r : Record), ∃ dst home, due s f x ∧
      s.launch x.lid = some l ∧ x.body = .pop larder q dst home ∧ (s.core home).lands f = true ∧ memoriesWf s ∧ ∃ more,
      assocGet l.fifos (larder, q) = some (r :: more)) ∧
    (∃ (f : Nat) (x : Flight) (s : State) (l : Launch) (larder : Nat) (q : Nat), ∃ dst home, due s f x ∧ s.launch x.lid =
      some l ∧ x.body = .pop larder q dst home ∧ (s.core home).lands f = true ∧ memoriesWf s ∧ (assocGet l.fifos (larder,
      q)).getD [] = []) ∧
    (∃ (f : Nat) (x : Flight) (s : State) (larder : Nat), due s f x ∧ x.body = .pull larder ∧ pullFirst larder (s.pullOrder
      x.src) = none) ∧
    (∃ (f : Nat) (x : Flight) (s : State) (larder : Nat) (r : Record), due s f x ∧ x.body = .pull larder ∧ ∃ m, pullFirst
      larder (s.pullOrder x.src) = some (r, m)) ∧
    (∃ (lid : Nat) (s : State) (l : Launch), s.launch lid = some l ∧ l.levelAt ≤ s.cycle) :=
  ⟨⟨5, flight 3 (.record (rec 0)), arriving (core 3 (seat 3 [])) 3 (.record (rec 0)), rec 0, by decide +kernel⟩,
  ⟨5, flight 3 (.initial (rec 0) none), arriving (core 3 (seat 3 [])) 3 (.initial (rec 0) none), rec 0, none, by
    decide +kernel⟩,
  ⟨5, flight 3 (.initial (rec 0) (some (64, [7]))), arriving (core 3 (seat 3 [])) 3 (.initial (rec 0) (some (64, [7]))), rec
    0, 64, [7], by decide +kernel⟩,
  ⟨5, flight 3 (.spawned (rec 0)), arriving (core 3 (seat 3 [])) 3 (.spawned (rec 0)), rec 0, by decide +kernel⟩,
  ⟨5, flight 3 (.levelled (rec 0)), arriving { core 3 (seat 3 []) with work := List.replicate 31 (rec 0) } 3 (.levelled (rec
    0)), rec 0, by decide +kernel⟩,
  ⟨5, flight 3 (.levelled (rec 0)), arriving { core 3 (seat 3 []) with work := List.replicate 32 (rec 0) } 3 (.levelled (rec
    0)), rec 0, by decide +kernel⟩,
  ⟨5, flight 3 (.pulled none), arriving (core 3 (seat 3 [])) 3 (.pulled none), by decide +kernel, by decide +kernel, none, by
    decide +kernel⟩,
  ⟨{ base with cycle := 600, launches := [{ launch1 with pending := [rec 0] }] }, 1, { launch1 with pending := [rec 0] }, by
    decide +kernel⟩,
  ⟨5, flight 3 (.push 0 none (rec 0)), arriving (core 3 (seat 3 [])) 3 (.push 0 none (rec 0)), launch1, 0, rec 0, by
    decide +kernel⟩,
  ⟨5, flight 3 (.push 0 none (rec 0)),
    { arriving (core 3 (seat 3 [])) 3 (.push 0 none (rec 0)) with launches := [fullLarder (2 ^ 24)] }, fullLarder (2 ^ 24),
    0, rec 0, ⟨rfl, by decide⟩, rfl, rfl, Or.inr (Nat.le_of_eq (fullLarder_queue (2 ^ 24)).symm)⟩,
  ⟨5, flight 3 (.push 0 (some 63) (rec 0)), arriving (core 3 (seat 3 [])) 3 (.push 0 (some 63) (rec 0)), launch1, 0, 63, rec
    0, by decide +kernel⟩,
  ⟨5, flight 3 (.extend 0 (some 63) (rec 0)), arriving (core 3 (seat 3 [])) 3 (.extend 0 (some 63) (rec 0)), launch1, 0, 63,
    rec 0, by decide +kernel⟩,
  by refine ⟨5, flight 3 (.pop 0 63 64 3), { arriving (core 3 (seat 3 [])) 3 (.pop 0 63 64 3) with launches := [launch2] },
    launch2, 0, 63, rec 0, 64, 3, ?h12_1, ?h12_2, ?h12_3, ?h12_4, ?h12_5, [], ?h12_6⟩ <;> decide +kernel,
  ⟨5, flight 3 (.pop 0 63 64 3), arriving (core 3 (seat 3 [])) 3 (.pop 0 63 64 3), launch1, 0, 63, 64, 3, by decide +kernel⟩,
  ⟨5, flight 3 (.pull 0), arriving (core 3 (seat 3 [])) 3 (.pull 0), 0, by decide +kernel⟩,
  ⟨5, flight 3 (.pull 0), { arriving (core 3 (seat 3 [])) 3 (.pull 0) with launches := [launch2] }, 0, rec 0, by
    decide +kernel, by decide +kernel, { launch2 with prio0 := [] }, by decide +kernel⟩,
  ⟨1, base, launch1, by decide +kernel⟩⟩

/-- The hypotheses of each clause of SeatsTakeWork can be met. -/
theorem witness_SeatsTakeWork :
    (∃ (c k : Nat) (s : State),
      let core := s.core c
      let thread := if isHall c then s.nextThread else none
      let next := (s.readyFor c k).filter (fun r => !thread.any (fun h => h.prio < s.recordClass r))
      idleSeat s c k ∧ ∃ m rest, core.msgq = m :: rest ∧ (next = none ∨ core.tookMsg = false)) ∧
    (∃ (c k : Nat) (s : State),
      let core := s.core c
      let thread := if isHall c then s.nextThread else none
      let next := (s.readyFor c k).filter (fun r => !thread.any (fun h => h.prio < s.recordClass r))
      idleSeat s c k ∧ ∃ m rest, core.msgq = m :: rest ∧ ∃ r, next = some r ∧ core.tookMsg = true) ∧
    (∃ (c k : Nat) (s : State),
      let core := s.core c
      let thread := if isHall c then s.nextThread else none
      let next := (s.readyFor c k).filter (fun r => !thread.any (fun h => h.prio < s.recordClass r))
      idleSeat s c k ∧ ∃ r, core.msgq = [] ∧ next = some r) ∧
    (∃ (c k : Nat) (s : State),
      let core := s.core c
      let thread := if isHall c then s.nextThread else none
      let next := (s.readyFor c k).filter (fun r => !thread.any (fun h => h.prio < s.recordClass r))
      idleSeat s c k ∧ ∃ r pc, core.msgq = [] ∧ next = none ∧ s.workFor c k = some r ∧ s.entryPc r = some pc) ∧
    (∃ (c k : Nat) (s : State),
      let core := s.core c
      let thread := if isHall c then s.nextThread else none
      let next := (s.readyFor c k).filter (fun r => !thread.any (fun h => h.prio < s.recordClass r))
      idleSeat s c k ∧ core.msgq = [] ∧ next = none ∧ s.workFor c k = none ∧ ∃ h, thread = some h ∧ h.kept = none ∧ h.record
        = none ∧ (s.seat c k).hall.hvec ≠ 0) ∧
    (∃ (c k : Nat) (s : State),
      let core := s.core c
      let thread := if isHall c then s.nextThread else none
      let next := (s.readyFor c k).filter (fun r => !thread.any (fun h => h.prio < s.recordClass r))
      idleSeat s c k ∧ core.msgq = [] ∧ next = none ∧ s.workFor c k = none ∧ ∃ h, thread = some h ∧ h.kept = none ∧ ∃ r pc,
        h.record = some r ∧ s.entryPc r = some pc) ∧
    (∃ (c k : Nat) (s : State),
      let core := s.core c
      let thread := if isHall c then s.nextThread else none
      let next := (s.readyFor c k).filter (fun r => !thread.any (fun h => h.prio < s.recordClass r))
      idleSeat s c k ∧ core.msgq = [] ∧ next = none ∧ s.workFor c k = none ∧ ∃ h y, thread = some h ∧ h.kept = some y ∧
        y.trap = none ∧ h.saved = []) ∧
    (∃ (c k : Nat) (s : State),
      let core := s.core c
      let thread := if isHall c then s.nextThread else none
      let next := (s.readyFor c k).filter (fun r => !thread.any (fun h => h.prio < s.recordClass r))
      idleSeat s c k ∧ core.msgq = [] ∧ next = none ∧ s.workFor c k = none ∧ isHall c = false ∧ core.pulling = false ∧
        s.pullOrder c ≠ []) ∧
    (∃ (c : Nat) (k : Nat) (s : State), ∃ x y, s.transferAt c = some (x, y) ∧ k < 4 ∧ s.mayTake c k = true) ∧
    (∃ (s : State), ∃ f x y, due s f x ∧ x.body = .transferBack y ∧ (s.core y.core).away = false ∧ s.homeOpen y.core y.cid =
      false ∧ (s.seat y.core y.seat).st = .lent ∧ (s.seat y.core y.seat).cid = y.cid ∧ y.retired = true) ∧
    (∃ (s : State), ∃ f x y, due s f x ∧ x.body = .transferBack y ∧ (s.core y.core).away = false ∧ s.homeOpen y.core y.cid =
      false ∧ (s.seat y.core y.seat).st = .lent ∧ (s.seat y.core y.seat).cid = y.cid ∧ y.retired = false ∧ y.trap = none) ∧
    (∃ (s : State), ∃ f x y, due s f x ∧ x.body = .transferBack y ∧ (s.core y.core).away = false ∧ s.homeOpen y.core y.cid =
      false ∧ (s.seat y.core y.seat).st = .lent ∧ (s.seat y.core y.seat).cid = y.cid ∧ y.retired = false ∧ y.trap ≠ none) :=
  ⟨⟨3, 3, { on 3 { idle 3 with msgq := [message1] } with launches := [launch2] }, by decide +kernel, message1, [], by
    decide +kernel, Or.inr rfl⟩,
  ⟨3, 3, { on 3 { idle 3 with msgq := [message1], ready := [rec 0], tookMsg := true } with launches := [launch2] }, by
    decide +kernel, message1, [], by decide +kernel, rec 0, by decide +kernel⟩,
  ⟨3, 3, on 3 { idle 3 with ready := [rec 0] }, by decide +kernel, rec 0, by decide +kernel⟩,
  ⟨3, 3, on 3 { idle 3 with work := [rec 0] }, by decide +kernel, rec 0, 64, by decide +kernel⟩,
  by refine ⟨2048, 1, readied thread1, ?h4_1, ?h4_2, ?h4_3, ?h4_4, thread1, ?h4_5⟩ <;> decide +kernel,
  by refine ⟨2048, 1, readied { thread1 with record := some (rec 0) }, ?h5_1, ?h5_2, ?h5_3, ?h5_4,
    { thread1 with record := some (rec 0) }, ?h5_5, ?h5_6, rec 0, 64, ?h5_7⟩ <;> decide +kernel,
  by refine ⟨2048, 1, readied { thread1 with kept := some (seat 2048 []) }, ?h6_1, ?h6_2, ?h6_3, ?h6_4,
    { thread1 with kept := some (seat 2048 []) }, seat 2048 [], ?h6_5⟩ <;> decide +kernel,
  ⟨3, 3, on 3 (idle 3), by decide +kernel⟩,
  ⟨7, 3, arriving (idle 7) 7 (.transfer (transfer false)), flight 7 (.transfer (transfer false)), transfer false, by
    decide +kernel⟩,
  ⟨arriving (core 3 { seatIn .lent with lentTo := some 7 }) 3 (.transferBack (transfer true)), 5, flight 3 (.transferBack
    (transfer true)), transfer true, by decide +kernel⟩,
  ⟨arriving (core 3 { seatIn .lent with lentTo := some 7 }) 3 (.transferBack (transfer false)), 5, flight 3 (.transferBack
    (transfer false)), transfer false, by decide +kernel⟩,
  ⟨arriving (core 3 { seat 3 [] with st := .lent }) 3 (.transferBack { transfer false with trap := some negative }), 5,
    flight 3 (.transferBack { transfer false with trap := some negative }), { transfer false with trap := some negative }, by
    decide +kernel⟩⟩

/-- The hypotheses of each clause of CounterOperations can be met. -/
theorem witness_CounterOperations :
    (∃ (k : Counter) (v : Word), k.value.toNat + v.toNat < 2 ^ 64) ∧
    (∃ (k : Counter) (v : Word), 2 ^ 64 ≤ k.value.toNat + v.toNat) ∧
    (∃ (v : Word), v.toNat < 2 ^ 20) ∧
    (∃ (v : Word), 2 ^ 20 ≤ v.toNat) ∧
    (∃ (k : Counter), (k.mode ≠ 1 ∨ k.next = 0)) ∧
    (∃ (k : Counter) (v : Word), k.mode = 1 ∧ k.next ≠ 0 ∧ k.next + v.toNat < 2 ^ 20 ∧ k.pending + v.toNat < 2 ^ 20) ∧
    (∃ (k : Counter) (v : Word), k.mode = 1 ∧ k.next ≠ 0 ∧ v.toNat < k.value.toNat) ∧
    (∃ (k : Counter) (v : Word), k.mode = 1 ∧ k.next ≠ 0 ∧ k.value.toNat + 1 < v.toNat) ∧
    (∃ (k : Counter) (v : Word), k.mode = 1 ∧ k.next ≠ 0 ∧ v = k.value ∧ 2 ≤ k.pending) ∧
    (∃ (k : Counter) (v : Word), k.mode = 1 ∧ k.next ≠ 0 ∧ v = k.value ∧ k.pending = 1 ∧ k.early < k.next ∧ k.value ≠
      BitVec.allOnes 64) ∧
    (∃ (k : Counter) (v : Word), k.mode = 1 ∧ k.next ≠ 0 ∧ v.toNat = k.value.toNat + 1 ∧ 1 ≤ k.pending ∧ k.early < k.next) :=
  ⟨⟨⟨1, 0⟩, 0xFFFFFFFFFFFFFFFE, by decide +kernel⟩,
  ⟨⟨1, 0⟩, 0xFFFFFFFFFFFFFFFF, by decide +kernel⟩,
  ⟨0xFFFFF, by decide +kernel⟩,
  ⟨0x100000, by decide +kernel⟩,
  ⟨⟨0, 0⟩, by decide +kernel⟩,
  ⟨barrierAt 5 0 1 1, 0xFFFFE, by decide +kernel⟩,
  ⟨barrierAt 5 0 1 1, 4, by decide +kernel⟩,
  ⟨barrierAt 5 0 1 1, 7, by decide +kernel⟩,
  ⟨barrierAt 5 0 2 2, 5, by decide +kernel⟩,
  ⟨barrierAt 5 1 1 2, 5, by decide +kernel⟩,
  ⟨barrierAt 5 1 1 2, 6, by decide +kernel⟩⟩

/-- The hypotheses of each clause of EffectsReachTheirOwner can be met. -/
theorem witness_EffectsReachTheirOwner :
    (∃ (f : Nat) (x : Flight) (s : State) (addr : Word) (core : CoreId) (idx : BitVec 8) (op : CounterOp),
      let k := s.core core
      let old := k.counters[idx.toFin]
      let admitted := core = x.src ∨ ptrSpace addr = 0 ∨ s.admits core 1 (16 * idx.toNat) 16 30 x.src (s.flightVf x) = true
      effectAt s f x (.counter addr core idx op) ∧ admitted ∧ ∃ new, old.apply op = .ok new) ∧
    (∃ (f : Nat) (x : Flight) (s : State) (addr : Word) (core : CoreId) (idx : BitVec 8) (op : CounterOp),
      let k := s.core core
      let old := k.counters[idx.toFin]
      let admitted := core = x.src ∨ ptrSpace addr = 0 ∨ s.admits core 1 (16 * idx.toNat) 16 30 x.src (s.flightVf x) = true
      effectAt s f x (.counter addr core idx op) ∧ admitted ∧ ∃ cause, old.apply op = .error cause) ∧
    (∃ (f : Nat) (x : Flight) (s : State) (addr : Word) (core : CoreId) (idx : BitVec 8) (op : CounterOp),
      let admitted := core = x.src ∨ ptrSpace addr = 0 ∨ s.admits core 1 (16 * idx.toNat) 16 30 x.src (s.flightVf x) = true
      effectAt s f x (.counter addr core idx op) ∧ ¬ admitted) ∧
    (∃ (f : Nat) (x : Flight) (s : State) (addr : Word) (core : CoreId) (idx : BitVec 8), arrives s f x ∧ x.body = .cread
      addr idx ∧ core = x.dst ∧ (core = x.src ∨ ptrSpace addr = 0 ∨ s.admits core 1 (16 * idx.toNat) 16 28 x.src (s.flightVf
      x) = true)) ∧
    (∃ (f : Nat) (x : Flight) (s : State) (addr : Word) (core : CoreId) (idx : BitVec 8), arrives s f x ∧ x.body = .cread
      addr idx ∧ core = x.dst ∧ core ≠ x.src ∧ ptrSpace addr ≠ 0 ∧ s.admits core 1 (16 * idx.toNat) 16 28 x.src (s.flightVf
      x) = false) ∧
    (∃ (f : Nat) (x : Flight) (s : State), ∃ places n own form, arrives s f x ∧ x.body = .load places n own form ∧ (∀ a ∈
      places, (s.core x.dst).poisonIn a n = none) ∧ ∃ w a, form = .scalar w ∧ places = [a]) ∧
    (∃ (f : Nat) (x : Flight) (s : State), ∃ places n own form, arrives s f x ∧ x.body = .load places n own form ∧ (∀ a ∈
      places, (s.core x.dst).poisonIn a n = none) ∧ ∃ a, form = .vector ∧ places = [a]) ∧
    (∃ (f : Nat) (x : Flight) (s : State), ∃ places n own form, arrives s f x ∧ x.body = .load places n own form ∧ (∀ a ∈
      places, (s.core x.dst).poisonIn a n = none) ∧ ∃ fmt lanes kept, form = .gather fmt lanes kept ∧ fmt ≤ 10 ∧ n = fmtBits
      fmt / 8 ∧ lanes.length = places.length ∧ lanes.Nodup) ∧
    (∃ (f : Nat) (x : Flight) (s : State) (addr : Word) (core : CoreId) (idx : BitVec 8),
      let admitted := core = x.src ∨ ptrSpace addr = 0 ∨ s.admits core 1 (16 * idx.toNat) 16 30 x.src (s.flightVf x) = true
      ∃ v, arrives s f x ∧ x.body = .engineAdd addr idx v ∧ core = x.dst ∧ admitted) ∧
    (∃ (f : Nat) (x : Flight) (s : State) (addr : Word) (core : CoreId) (idx : BitVec 8), ∃ thr r, arrives s f x ∧ x.body =
      .waitc addr idx thr r ∧ core = x.dst ∧
      let readable := core = x.src ∨ ptrSpace addr = 0 ∨ s.admits core 1 (16 * idx.toNat) 16 28 x.src (s.flightVf x) = true
      ¬ readable) ∧
    (∃ (f : Nat) (x : Flight) (s : State) (addr : Word) (core : CoreId) (idx : BitVec 8),
      let k := s.core core
      let old := k.counters[idx.toFin]
      ∃ thr r, arrives s f x ∧ x.body = .waitc addr idx thr r ∧ core = x.dst ∧
      let readable := core = x.src ∨ ptrSpace addr = 0 ∨ s.admits core 1 (16 * idx.toNat) 16 28 x.src (s.flightVf x) = true
      readable ∧ old.value.toNat < thr.toNat) ∧
    (∃ (f : Nat) (x : Flight) (s : State) (addr : Word) (core : CoreId) (idx : BitVec 8),
      let k := s.core core
      let old := k.counters[idx.toFin]
      ∃ thr r, arrives s f x ∧ x.body = .waitc addr idx thr r ∧ core = x.dst ∧
      let readable := core = x.src ∨ ptrSpace addr = 0 ∨ s.admits core 1 (16 * idx.toNat) 16 28 x.src (s.flightVf x) = true
      readable ∧ thr.toNat ≤ old.value.toNat) ∧
    (∃ (f : Nat) (x : Flight) (s : State) (core : CoreId) (idx : BitVec 8),
      let k := s.core core
      let old := k.counters[idx.toFin]
      ∃ e thr rec, effectAt s f x (.trigArm core e idx thr rec) ∧ (k.triggers[e.toFin]).armed = false ∧ old.value.toNat <
        thr.toNat) ∧
    (∃ (f : Nat) (x : Flight) (s : State) (core : CoreId) (idx : BitVec 8),
      let k := s.core core
      let old := k.counters[idx.toFin]
      ∃ e thr rec, effectAt s f x (.trigArm core e idx thr rec) ∧ (k.triggers[e.toFin]).armed = false ∧ thr.toNat ≤
        old.value.toNat) ∧
    (∃ (f : Nat) (x : Flight) (s : State) (core : CoreId) (idx : BitVec 8),
      let k := s.core core
      let old := k.counters[idx.toFin]
      ∃ e thr rec, effectAt s f x (.trigArm core e idx thr rec) ∧ (k.triggers[e.toFin]).armed = true ∧ old.value.toNat <
        thr.toNat) ∧
    (∃ (f : Nat) (x : Flight) (s : State) (core : CoreId), ∃ e, effectAt s f x (.trigDis core e)) ∧
    (∃ (f : Nat) (x : Flight) (s : State) (core : CoreId),
      let k := s.core core
      ∃ ptr off op v w, effectAt s f x (.lsamo ptr core false off op v w) ∧ op ≤ 7 ∧ op ≠ 1 ∧ (core = x.src ∨ ptrSpace ptr =
        0 ∨ s.admits core 0 off 8 30 x.src (s.flightVf x) = true) ∧ k.guardedBy off 8 = none ∧ (∀ p ∈ k.poison, meets off 8 p
        (p + 8) = false) ∧ memoriesWf s) ∧
    (∃ (f : Nat) (x : Flight) (s : State) (core : CoreId),
      let k := s.core core
      ∃ ptr off op v w, effectAt s f x (.lsamo ptr core false off op v w) ∧ (op = 1 ∨ op = 8 ∨ op = 9) ∧ (core = x.src ∨
        ptrSpace ptr = 0 ∨ s.admits core 0 off 4 30 x.src (s.flightVf x) = true) ∧ ∃ g, k.guardedBy off 4 = some g) ∧
    (∃ (f : Nat) (x : Flight) (s : State) (core : CoreId),
      let k := s.core core
      ∃ ptr off op v w, effectAt s f x (.lsamo ptr core false off op v w) ∧ (op = 1 ∨ op = 8 ∨ op = 9) ∧ (core = x.src ∨
        ptrSpace ptr = 0 ∨ s.admits core 0 off 4 30 x.src (s.flightVf x) = true) ∧ k.guardedBy off 4 = none ∧ (∀ p ∈
        k.poison, meets off 4 p (p + 8) = false) ∧ memoriesWf s) ∧
    (∃ (f : Nat) (x : Flight) (s : State) (core : CoreId), ∃ ptr off v w, effectAt s f x (.lsamo ptr core true off 10 v w) ∧
      (core = x.src ∨ ptrSpace ptr = 0 ∨ s.admits core 1 (16 * off) 16 30 x.src (s.flightVf x) = true)) ∧
    (∃ (f : Nat) (x : Flight) (s : State) (core : CoreId), ∃ depth idx expected, effectAt s f x (.mailboxConfig core depth
      idx expected)) ∧
    (∃ (f : Nat) (x : Flight) (s : State) (core : CoreId), ∃ rank, arrives s f x ∧ x.body = .mbtake rank ∧ core = x.dst) ∧
    (∃ (f : Nat) (x : Flight) (s : State) (core : CoreId), ∃ v, effectAt s f x (.mailboxPost core v) ∧ (core = x.src ∨
      s.admits core 5 0 8 29 x.src (s.flightVf x) = true)) ∧
    (∃ (f : Nat) (x : Flight) (s : State) (core : CoreId),
      let k := s.core core
      ∃ m, arrives s f x ∧ x.body = .message m ∧ core = x.dst ∧ k.msgq.length < 64) ∧
    (∃ (f : Nat) (x : Flight) (s : State) (core : CoreId),
      let k := s.core core
      ∃ m, arrives s f x ∧ x.body = .message m ∧ core = x.dst ∧ 64 ≤ k.msgq.length) ∧
    (∃ (f : Nat) (x : Flight) (s : State), due s f x ∧ x.body = .ack) ∧
    (∃ (f : Nat) (x : Flight) (s : State) (core : CoreId),
      let k := s.core core
      due s f x ∧ s.changedCore x = some core ∧ k.lands f = false) :=
  ⟨⟨5, flight 3 (.effect (.counter 0x80FE0 3 254 (.add 1))), arriving (counting ⟨5, 0⟩) 3 (.effect (.counter 0x80FE0 3 254
    (.add 1))), 0x80FE0, 3, 254, .add 1, by decide +kernel, by decide +kernel, ⟨6, 0⟩, ok_of (by decide +kernel)⟩,
  ⟨5, flight 3 (.effect (.counter 0x80FE0 3 254 (.add 1))), arriving (counting ⟨-1, 0⟩) 3 (.effect (.counter 0x80FE0 3 254
    (.add 1))), 0x80FE0, 3, 254, .add 1, by decide +kernel, by decide +kernel, 0x20, error_of (by decide +kernel)⟩,
  ⟨5, flight 4 (.effect (.counter (chipPtr 4 1 0) 4 0 (.add 1))), arriving (idle 4) 4 (.effect (.counter (chipPtr 4 1 0) 4 0
    (.add 1))), chipPtr 4 1 0, 4, 0, .add 1, by decide +kernel⟩,
  ⟨5, flight 3 (.cread 0x80FE0 254), arriving (counting ⟨5, 0⟩) 3 (.cread 0x80FE0 254), 0x80FE0, 3, 254, by decide +kernel⟩,
  ⟨5, flight 7 (.cread (chipPtr 7 1 0xFE0) 254), arriving (idle 7) 7 (.cread (chipPtr 7 1 0xFE0) 254), chipPtr 7 1 0xFE0, 7,
    254, by decide +kernel⟩,
  ⟨5, flight 3 (.load [64] 8 [] (.scalar 7)), arriving (idle 3) 3 (.load [64] 8 [] (.scalar 7)), [64], 8, [], .scalar 7, by
    decide +kernel, by decide +kernel, fun _ _ => rfl, 7, 64, by decide +kernel⟩,
  ⟨5, flight 3 (.load [64] 128 [(64, 9)] .vector), arriving (idle 3) 3 (.load [64] 128 [(64, 9)] .vector), [64], 128, [(64,
    9)], .vector, by decide +kernel, by decide +kernel, fun _ _ => rfl, 64, by decide +kernel⟩,
  ⟨5, flight 3 (.load [64, 72] 4 [] (.gather 4 [0, 31] 0)), arriving (idle 3) 3 (.load [64, 72] 4 [] (.gather 4 [0, 31] 0)),
    [64, 72], 4, [], .gather 4 [0, 31] 0, by decide +kernel, by decide +kernel, fun _ _ => rfl, 4, [0, 31], 0, by
    decide +kernel⟩,
  ⟨5, flight 3 (.engineAdd 0 254 1), arriving (counting ⟨-1, 0⟩) 3 (.engineAdd 0 254 1), 0, 3, 254, 1, by decide +kernel⟩,
  ⟨5, flight 7 (.waitc (chipPtr 7 1 0xFE0) 254 5 awaiting), arriving (idle 7) 7 (.waitc (chipPtr 7 1 0xFE0) 254 5 awaiting),
    chipPtr 7 1 0xFE0, 7, 254, 5, awaiting, by decide +kernel⟩,
  ⟨5, flight 3 (.waitc 0x80FE0 254 6 awaiting), arriving (counting ⟨5, 0⟩) 3 (.waitc 0x80FE0 254 6 awaiting), 0x80FE0, 3,
    254, 6, awaiting, by decide +kernel⟩,
  ⟨5, flight 3 (.waitc 0x80FE0 254 5 awaiting), arriving (counting ⟨5, 0⟩) 3 (.waitc 0x80FE0 254 5 awaiting), 0x80FE0, 3,
    254, 5, awaiting, by decide +kernel⟩,
  ⟨5, flight 3 (.effect (.trigArm 3 63 254 6 64)), arriving (counting ⟨5, 0⟩) 3 (.effect (.trigArm 3 63 254 6 64)), 3, 254,
    63, 6, 64, by decide +kernel⟩,
  ⟨5, flight 3 (.effect (.trigArm 3 63 254 5 64)), arriving (counting ⟨5, 0⟩) 3 (.effect (.trigArm 3 63 254 5 64)), 3, 254,
    63, 5, 64, by decide +kernel⟩,
  ⟨5, flight 3 (.effect (.trigArm 3 63 254 6 64)), arriving { counting ⟨5, 0⟩ with triggers := armed } 3 (.effect (.trigArm 3
    63 254 6 64)), 3, 254, 63, 6, 64, by decide +kernel⟩,
  ⟨5, flight 3 (.effect (.trigDis 3 63)), arriving { counting ⟨5, 0⟩ with triggers := armed } 3 (.effect (.trigDis 3 63)), 3,
    63, by decide +kernel⟩,
  ⟨5, flight 3 (.effect (.lsamo 64 3 false 0x7FFF8 7 1 2)), arriving (idle 3) 3 (.effect (.lsamo 64 3 false 0x7FFF8 7 1 2)),
    3, 64, 0x7FFF8, 7, 1, 2, by decide +kernel⟩,
  ⟨5, flight 3 (.effect (.lsamo 64 3 false 0x7FFC 8 1 2)), arriving { idle 3 with rings := ringed } 3 (.effect (.lsamo 64 3
    false 0x7FFC 8 1 2)), 3, 64, 0x7FFC, 8, 1, 2, by decide +kernel, by decide +kernel, by decide +kernel, 2, by
    decide +kernel⟩,
  ⟨5, flight 3 (.effect (.lsamo 64 3 false 0x7FFFC 9 1 2)), arriving (idle 3) 3 (.effect (.lsamo 64 3 false 0x7FFFC 9 1 2)),
    3, 64, 0x7FFFC, 9, 1, 2, by decide +kernel⟩,
  ⟨5, flight 3 (.effect (.lsamo 0x80FE0 3 true 254 10 1 2)), arriving (idle 3) 3 (.effect (.lsamo 0x80FE0 3 true 254 10 1
    2)), 3, 0x80FE0, 254, 1, 2, by decide +kernel⟩,
  ⟨5, flight 3 (.effect (.mailboxConfig 3 32 1 7)), arriving (idle 3) 3 (.effect (.mailboxConfig 3 32 1 7)), 3, 32, 1, 7, by
    decide +kernel⟩,
  ⟨5, flight 3 (.mbtake 1), arriving (idle 3) 3 (.mbtake 1), 3, 1, by decide +kernel⟩,
  ⟨5, flight 3 (.effect (.mailboxPost 3 7)), arriving (idle 3) 3 (.effect (.mailboxPost 3 7)), 3, 7, by decide +kernel⟩,
  ⟨5, flight 3 (.message message1), arriving { idle 3 with msgq := List.replicate 63 message1 } 3 (.message message1), 3,
    message1, by decide +kernel⟩,
  ⟨5, flight 3 (.message message1), arriving { idle 3 with msgq := List.replicate 64 message1 } 3 (.message message1), 3,
    message1, by decide +kernel⟩,
  ⟨5, flight 3 .ack, arriving (idle 3) 3 .ack, by decide +kernel⟩,
  ⟨5, flight 3 (.message message1), arriving { idle 3 with haltSettled := some 5 } 3 (.message message1), 3, by
    decide +kernel⟩⟩

/-- The hypotheses of each clause of CommandsEnterTheQueue can be met. -/
theorem witness_CommandsEnterTheQueue :
    (∃ (f : Nat) (x : Flight) (s : State) (cmd : EngineCmd) (fired : Option Nat), due s f x ∧ x.body = .bqEntry cmd fired ∧
      (∀ g ∈ s.flights, g.id < x.id → g.dst = x.dst → ∀ k b, g.body ≠ .bqEntry k b) ∧ (s.core x.dst).bq.length < 32 ∧
      let plan := planEntry (s.dropFlight f) x.dst cmd
      ∃ code, plan = .error code ∧ (fired = none ∨ code ≠ 0x0104)) ∧
    (∃ (f : Nat) (x : Flight) (s : State) (cmd : EngineCmd) (fired : Option Nat), due s f x ∧ x.body = .bqEntry cmd fired ∧
      (∀ g ∈ s.flights, g.id < x.id → g.dst = x.dst → ∀ k b, g.body ≠ .bqEntry k b) ∧ (s.core x.dst).bq.length < 32 ∧
      let plan := planEntry (s.dropFlight f) x.dst cmd
      ∃ record, plan = .error 0x0104 ∧ fired = some record) ∧
    (∃ (f : Nat) (x : Flight) (s : State) (cmd : EngineCmd) (fired : Option Nat), due s f x ∧ x.body = .bqEntry cmd fired ∧
      (∀ g ∈ s.flights, g.id < x.id → g.dst = x.dst → ∀ k b, g.body ≠ .bqEntry k b) ∧ (s.core x.dst).bq.length < 32 ∧
      let plan := planEntry (s.dropFlight f) x.dst cmd
      ∃ p, plan = .ok p) :=
  ⟨⟨5, flight 3 (.bqEntry (command .fetch 0 64 8) none), arriving (idle 3) 3 (.bqEntry (command .fetch 0 64 8) none), command
    .fetch 0 64 8, none, by decide +kernel, by decide +kernel, alone, by decide +kernel, 0x0104, rfl, Or.inl rfl⟩,
  ⟨5, flight 3 (.bqEntry (command .fetch 0 64 8) (some 64)), arriving (idle 3) 3 (.bqEntry (command .fetch 0 64 8) (some
    64)), command .fetch 0 64 8, some 64, by decide +kernel, by decide +kernel, alone, by decide +kernel, 64, rfl, by
    decide +kernel⟩,
  ⟨5, flight 3 (.bqEntry fetchCmd none), arriving (idle 3) 3 (.bqEntry fetchCmd none), fetchCmd, none, by decide +kernel, by
    decide +kernel, alone, by decide +kernel, _, rfl⟩⟩

/-- The hypotheses of each clause of PacketsLandAndEntriesEnd can be met. -/
theorem witness_PacketsLandAndEntriesEnd :
    (∃ (c e p : Nat) (s u : State) (x : BqEntry) (q : Packet), s.packetAt c e p = some (x, q) ∧ isAtomic x.cmd.kind = false ∧
      s.packetReady c x q = true ∧ ∃ l late, q.data = none ∧ (x.cmd.kind = .lscopy → x.packets = [q]) ∧ s.readMoves c x q
      q.moves = (u, .ok (l, late))) ∧
    (∃ (c e p : Nat) (s : State) (x : BqEntry) (q : Packet), s.packetAt c e p = some (x, q) ∧ isAtomic x.cmd.kind = false ∧
      s.packetReady c x q = true ∧ ∃ l, q.data = some l ∧ q.sentAt = 0) ∧
    (∃ (c e p : Nat) (s : State) (x : BqEntry) (q : Packet), s.packetAt c e p = some (x, q) ∧ isAtomic x.cmd.kind = false ∧
      s.packetReady c x q = true ∧ ∃ m v w bit d a n, q.data = some [v] ∧ q.sentAt ≠ 0 ∧ x.cmd.kind ≠ .store ∧ q.moves = [m]
      ∧ m.dst = .ptr w bit ∧ regionThree w bit = none ∧ s.landPlace c x m = some (d, a, n, 0) ∧ m.bits = 8 * n ∧ s.meetMove c
      x q.begun m = .fine ∧ memoriesWf s) ∧
    (∃ (s : State), ∃ f, ∃ (fl : Flight), ∃ seat off data entry packet, arrives s f fl ∧ fl.body = .region3 seat off data
      entry packet ∧ (s.seat fl.dst seat).st = .free ∧ off / 128 + data.length / 128 ≤ 32) ∧
    (∃ (c : Nat) (e : Nat) (s : State) (u : State) (x : BqEntry) (q : Packet), ∃ op bs late, (s.core c).bq.find? (·.id == e)
      = some x ∧ x.packets.head? = some q ∧ s.packetReady c x q = true ∧ q.data = none ∧ (x.cmd.kind = .amo op ∨ x.cmd.kind =
      .cas ∧ op = 5) ∧
      let n := if op = 1 then 4 else 8
      let pa := q.physical (ptrAddr x.cmd.b)
      s.dramRead (s.vfOf x.ctx) pa n = (u, some (bs, late))) ∧
    (∃ (c e : Nat) (s : State) (x : BqEntry) (q : Packet), (s.core c).bq.find? (·.id == e) = some x ∧ x.packets.head? = some
      q ∧ s.packetReady c x q = true ∧ q.data ≠ none ∧ isAtomic x.cmd.kind = true) ∧
    (∃ (c e : Nat) (s : State) (x : BqEntry), (s.core c).bq.find? (·.id == e) = some x ∧ x.srcAdded = false ∧ (∀ y ∈
      x.packets, y.data ≠ none ∨ y.code ≠ none) ∧ s.addOpen c x.ctx x.cmd.home x.cmd.sc = true) ∧
    (∃ (c e : Nat) (s : State) (x : BqEntry), (s.core c).bq.find? (·.id == e) = some x ∧ (x.srcAdded = true ∨ 255 ≤ x.cmd.sc)
      ∧ (∀ y ∈ x.packets, y.code ≠ none) ∧ s.addOpen c x.ctx x.owner x.cmd.dc = true) :=
  ⟨⟨3, 6, 1, on 3 (queueing (entry fetchCmd false [toRead])), on 3 (queueing (entry fetchCmd false [toRead])), entry fetchCmd
    false [toRead], toRead, by decide +kernel, by decide +kernel, by decide +kernel, [0], false, by decide +kernel, fun h =>
    by (cases h), rfl⟩,
  ⟨3, 6, 1, on 3 (queueing (entry fetchCmd false [toLand])), entry fetchCmd false [toLand], toLand, by decide +kernel, by
    decide +kernel, by decide +kernel, [7], by decide +kernel⟩,
  ⟨3, 6, 1, on 3 (queueing (entry fetchCmd false [sentLand])), entry fetchCmd false [sentLand], sentLand, by decide +kernel,
    by decide +kernel, by decide +kernel,
    { src := .ptr 0x0020000000000000 0, dst := .ptr 0x7FFF8 0, bits := 64, got := none }, 7, 0x7FFF8, 0, 3, 0x7FFF8, 8, by
    decide +kernel⟩,
  ⟨arriving (idle 3) 3 (.region3 3 0xF80 (List.replicate 128 1) 6 1), 5, flight 3 (.region3 3 0xF80 (List.replicate 128 1) 6
    1), 3, 0xF80, List.replicate 128 1, 6, 1, by decide +kernel⟩,
  by refine ⟨3, 6, on 3 (queueing atomic), on 3 (queueing atomic), atomic, packet (.ptr 0x0020000000000000 0) .zero none
    none, 0, List.replicate 8 0, false, ?h4_1, ?h4_2, ?h4_3, ?h4_4, Or.inl rfl, rfl⟩ <;> decide +kernel,
  ⟨3, 6, on 3 (queueing mended), mended,
    { packet (.ptr 0x0020000000000000 0) .zero none none with data := some [], late := true }, by decide +kernel⟩,
  ⟨3, 6, on 3 (queueing (entry fetchCmd false [landed'])), entry fetchCmd false [landed'], by decide +kernel⟩,
  ⟨3, 6, on 3 (queueing (entry fetchCmd true [landed'])), entry fetchCmd true [landed'], by decide +kernel, Or.inl rfl, by
    decide +kernel⟩⟩

/-- The hypotheses of each clause of TranslationsRoundsAndHorizons can be met. -/
theorem witness_TranslationsRoundsAndHorizons :
    (∃ (c : Nat) (k : Nat) (s : State), ∃ w, (s.core c).lineWait k = some w ∧ ∃ u pa, w.frame = none ∧ (∀ y ∈ s.walks,
      y.purpose ≠ .line c k) ∧ s.translate c (s.codeCtx c k) w.line 3 = (u, .frame pa)) ∧
    (∃ (c : Nat) (k : Nat) (s : State), ∃ w, (s.core c).lineWait k = some w ∧ ∃ pa, w.frame = some pa ∧ w.due ≤ s.cycle ∧
      s.mendLag [lineOf pa] ≠ 0) ∧
    (∃ (c : Nat) (k : Nat) (s : State), ∃ w, (s.core c).lineWait k = some w ∧
      let vf := s.vfOf (s.codeCtx c k)
      ∃ pa, w.frame = some pa ∧ w.due ≤ s.cycle ∧ s.mendLag [lineOf pa] = 0 ∧ ∃ v r, s.dramRead vf pa 64 = (v, r)) ∧
    (∃ (s : State), ∃ w x u stop pa, s.walks.find? (·.id == w) = some x ∧ x.held = false ∧ x.readyAt ≤ s.cycle ∧ s.walkAway x
      = false ∧ s.walkLag x.core x.ctx x.va = 0 ∧ (∀ y ∈ s.walks, y ≠ x → y.held = true ∨ y.ctx ≠ x.ctx ∨ y.va / 4096 ≠ x.va
      / 4096 ∨ coreDie y.core ≠ coreDie x.core) ∧ s.walks.Nodup ∧ ({ s with walks := s.walks.filter (· != x) } :
      State).endWalk x.core x.ctx x.va = (u, stop) ∧ stop.outcome x.ctx (s.vfOf x.ctx) x.va x.access = .frame pa ∧ ∃ d e key
      y q, x.purpose = .packet d e key ∧ s.packetAt d e key = some (y, q) ∧ q.code = none) ∧
    (∃ (s : State), ∃ w x u stop pa, s.walks.find? (·.id == w) = some x ∧ x.held = false ∧ x.readyAt ≤ s.cycle ∧ s.walkAway x
      = false ∧ s.walkLag x.core x.ctx x.va = 0 ∧ (∀ y ∈ s.walks, y ≠ x → y.held = true ∨ y.ctx ≠ x.ctx ∨ y.va / 4096 ≠ x.va
      / 4096 ∨ coreDie y.core ≠ coreDie x.core) ∧ s.walks.Nodup ∧ ({ s with walks := s.walks.filter (· != x) } :
      State).endWalk x.core x.ctx x.va = (u, stop) ∧ stop.outcome x.ctx (s.vfOf x.ctx) x.va x.access = .frame pa ∧ ∃ d n z,
      x.purpose = .line d n ∧ (s.core d).lineWait n = some z ∧ z.line = x.va ∧ z.frame = none) ∧
    (∃ (s : State), ∃ r x d, s.rounds.find? (·.id == r) = some x ∧ x.dueAt = some d ∧ d ≤ s.cycle ∧ (∃ m ∈ x.members, (s.core
      m).open' = true) ∧ x.width ≤ 16 ∧ memoriesWf s) ∧
    (∃ (s : State), ∃ lid l, s.launch lid = some l ∧ l.horizonAt ≤ s.cycle) ∧
    (∃ (s : State), ∃ lid l, s.launch lid = some l ∧ ∃ r rest, l.reductions = r :: rest ∧ r.dueAt ≤ s.cycle) :=
  ⟨⟨3, 0, asking3, ⟨0, 72, none, 0⟩, by decide +kernel, asking3, 64, by decide +kernel, by simp [asking3, on, base,
    State.reset], rfl⟩,
  ⟨3, 0, failing, ⟨0, 72, some 64, 4000⟩, by decide +kernel, 64, by decide +kernel⟩,
  ⟨3, 0, on 3 (fetching 4000), ⟨0, 72, some 64, 4000⟩, by decide +kernel, 64, by decide +kernel, by decide +kernel, by
    decide +kernel, _, _, rfl⟩,
  by refine ⟨walking, 8, walk1, ended1.1, ended1.2, 0, ?h3_1, ?h3_2, ?h3_3, ?h3_4, ?h3_5, ?h3_6, ?h3_7, ended1_parts, ?h3_8,
    3, 6, 1, entry fetchCmd false [{ toRead with frame := none }], { toRead with frame := none }, ?h3_9⟩ <;> decide +kernel,
  by refine ⟨walking2, 8, walk2, ended2.1, ended2.2, 64, ?h4_1, ?h4_2, ?h4_3, ?h4_4, ?h4_5, ?h4_6, ?h4_7, ended2_parts,
    ?h4_8, 3, 0, ⟨0, 72, none, 0⟩, ?h4_9⟩ <;> decide +kernel,
  ⟨{ base with rounds := [round1] }, 4, round1, 5000, by decide +kernel⟩,
  ⟨base, 1, launch1, by decide +kernel⟩,
  ⟨{ base with launches := [{ launch1 with reductions := [⟨(0, 0), 0, 5000⟩] }] }, 1,
    { launch1 with reductions := [⟨(0, 0), 0, 5000⟩] }, by decide +kernel, ⟨(0, 0), 0, 5000⟩, [], by decide +kernel⟩⟩

/-- The hypotheses of each clause of MeetingsAtTheirRouter can be met. -/
theorem witness_MeetingsAtTheirRouter :
    (∃ (f : Nat) (x : Flight) (s : State) (l : Launch), ∃ tag size, due s f x ∧ x.body = .tagFree tag size ∧ s.launch x.lid =
      some l ∧
      let id := tag.field 0 24
      let found := l.tagBlocks.contains (id, size.toNat) = true ∧ l.gen id = tag.field 24 8
      found) ∧
    (∃ (f : Nat) (x : Flight) (s : State) (l : Launch), ∃ tag size, due s f x ∧ x.body = .tagFree tag size ∧ s.launch x.lid =
      some l ∧
      let id := tag.field 0 24
      let found := l.tagBlocks.contains (id, size.toNat) = true ∧ l.gen id = tag.field 24 8
      ¬ found) ∧
    (∃ (f : Nat) (x : Flight) (s : State) (l : Launch), ∃ id, arrives s f x ∧ x.body = .purge id ∧ s.launch x.lid = some l) ∧
    (∃ (f : Nat) (x : Flight) (s : State),
      let k := s.core x.dst
      ∃ id gen b back, arrives s f x ∧ x.body = .bind id gen b back ∧ k.meetOf x.lid id gen = none ∧ k.meetSlots < 16) ∧
    (∃ (f : Nat) (x : Flight) (s : State),
      let k := s.core x.dst
      ∃ id gen b back, arrives s f x ∧ x.body = .bind id gen b back ∧ k.meetOf x.lid id gen = none ∧ 16 ≤ k.meetSlots ∧ (∀ g
        ∈ s.flights, g.id = f → g = x)) ∧
    (∃ (f : Nat) (x : Flight) (s : State) (l : Launch),
      let k := s.core x.dst
      ∃ id gen b back y, arrives s f x ∧ x.body = .bind id gen b back ∧ k.meetOf x.lid id gen = some y ∧ y.bind ≠ none ∧
        (y.overdue s.cycle = false ∨ y.complete = true) ∧ y.expired = false ∧ s.launch x.lid = some l) ∧
    (∃ (f : Nat) (x : Flight) (s : State) (l : Launch),
      let k := s.core x.dst
      ∃ id gen b back y, arrives s f x ∧ x.body = .bind id gen b back ∧ k.meetOf x.lid id gen = some y ∧ y.expired = true ∧
        s.launch x.lid = some l) ∧
    (∃ (f : Nat) (x : Flight) (s : State),
      let k := s.core x.dst
      ∃ id gen b back y, arrives s f x ∧ x.body = .bind id gen b back ∧ k.meetOf x.lid id gen = some y ∧ y.bind = none ∧
        y.overdue s.cycle = false ∧ y.expired = false ∧ s.cycle ≤ y.created + 1024 * b.tmo ∧ b.op ≠ 0 ∧ (∀ w ∈ y.waiting,
        b.mask.getLsbD w.1 = true ∧ w.2.length = b.cnt) ∧
      let arrived := y.waiting.foldl (fun a w => a ||| (1#16 <<< w.1)) 0
      (arrived ≠ b.mask ∨ y.checked = false)) ∧
    (∃ (f : Nat) (x : Flight) (s : State),
      let k := s.core x.dst
      ∃ o, arrives s f x ∧ x.body = .operand o ∧ o.passed s.cycle = false ∧ k.meetOf o.lid o.id o.gen = none ∧ k.meetSlots +
        2 ≤ 16) ∧
    (∃ (f : Nat) (x : Flight) (s : State),
      let k := s.core x.dst
      ∃ o, arrives s f x ∧ x.body = .operand o ∧ o.passed s.cycle = false ∧ k.meetOf o.lid o.id o.gen = none ∧ 16 <
        k.meetSlots + 2) ∧
    (∃ (f : Nat) (x : Flight) (s : State) (l : Launch), ∃ o, arrives s f x ∧ x.body = .operand o ∧ o.passed s.cycle = true ∧
      s.launch o.lid = some l) ∧
    (∃ (f : Nat) (x : Flight) (s : State) (l : Launch),
      let k := s.core x.dst
      ∃ o y, arrives s f x ∧ x.body = .operand o ∧ o.passed s.cycle = false ∧ k.meetOf o.lid o.id o.gen = some y ∧ y.overdue
        s.cycle = false ∧ y.expired = false ∧ s.launch o.lid = some l ∧ y.arrived.getLsbD o.party = true) ∧
    (∃ (f : Nat) (x : Flight) (s : State) (l : Launch),
      let k := s.core x.dst
      ∃ o y, arrives s f x ∧ x.body = .operand o ∧ o.passed s.cycle = false ∧ k.meetOf o.lid o.id o.gen = some y ∧ y.overdue
        s.cycle = false ∧ y.expired = false ∧ s.launch o.lid = some l ∧ y.arrived.getLsbD o.party = false ∧ y.bind = none ∧
        o.data.length = y.count ∧ k.meetSlots < 16) ∧
    (∃ (f : Nat) (x : Flight) (s : State) (l : Launch),
      let k := s.core x.dst
      ∃ o y, arrives s f x ∧ x.body = .operand o ∧ o.passed s.cycle = false ∧ k.meetOf o.lid o.id o.gen = some y ∧ y.overdue
        s.cycle = false ∧ y.expired = false ∧ s.launch o.lid = some l ∧
      let arrived := y.arrived ||| (1#16 <<< o.party)
      ∃ b, y.arrived.getLsbD o.party = false ∧ y.bind = some b ∧ b.mask.getLsbD o.party = true ∧ o.data.length = b.cnt ∧ b.op
        ≠ 0 ∧ y.waiting = [] ∧ (arrived ≠ b.mask ∨ y.checked = false ∨ s.meetTargets y = false)) ∧
    (∃ (f : Nat) (x : Flight) (s : State) (l : Launch),
      let k := s.core x.dst
      ∃ o y, arrives s f x ∧ x.body = .operand o ∧ o.passed s.cycle = false ∧ k.meetOf o.lid o.id o.gen = some y ∧ y.overdue
        s.cycle = false ∧ y.expired = false ∧ s.launch o.lid = some l ∧
      let arrived := y.arrived ||| (1#16 <<< o.party)
      ∃ b, y.arrived.getLsbD o.party = false ∧ y.bind = some b ∧ b.mask.getLsbD o.party = true ∧ o.data.length = b.cnt ∧ b.op
        ≠ 0 ∧ y.waiting = [] ∧ arrived = b.mask ∧ y.included = y.arrived ∧ y.checked = true ∧ s.meetTargets y = true ∧
        memoriesWf s ∧
      let statCore := chipCore (ptrAddr b.stat)
      let stat := chipOffset (ptrAddr b.stat)
      (s.core statCore).guardedBy stat 8 = none) ∧
    (∃ (s : State) (l : Launch) (c : CoreId) (n : Nat) (e : MeetEntry), (s.core c).meets[n]? = some e ∧ (s.core c).meetOf
      e.lid e.id e.gen = some e ∧ e.paused = none ∧ s.launch e.lid = some l ∧ e.checked = false ∧ e.checkAt ≤ s.cycle ∧
      e.live = true ∧ ((e.complete = false ∧ e.expired = false) ∨ s.meetTargets e = false)) ∧
    (∃ (s : State) (l : Launch) (c : CoreId) (n : Nat) (e : MeetEntry), (s.core c).meets[n]? = some e ∧ (s.core c).meetOf
      e.lid e.id e.gen = some e ∧ e.paused = none ∧ s.launch e.lid = some l ∧ e.checked = false ∧ e.checkAt ≤ s.cycle ∧
      e.live = false) ∧
    (∃ (s : State) (l : Launch) (c : CoreId) (n : Nat) (e : MeetEntry), (s.core c).meets[n]? = some e ∧ (s.core c).meetOf
      e.lid e.id e.gen = some e ∧ e.paused = none ∧ s.launch e.lid = some l ∧ (e.checked = true ∨ (e.checkAt ≤ s.cycle ∧
      e.live = true)) ∧ e.bind ≠ none ∧ (e.complete = true ∨ e.expired = true) ∧ s.meetTargets e = true) ∧
    (∃ (s : State) (l : Launch) (c : CoreId) (n : Nat) (e : MeetEntry), (s.core c).meets[n]? = some e ∧ (s.core c).meetOf
      e.lid e.id e.gen = some e ∧ e.paused = none ∧ s.launch e.lid = some l ∧ e.expired = false ∧ e.complete = false ∧
      (e.expiry < s.cycle ∨ (e.expiry = s.cycle ∧ s.arrivalDue c e = false)) ∧ e.bind = none) ∧
    (∃ (s : State) (l : Launch) (c : CoreId) (n : Nat) (e : MeetEntry), (s.core c).meets[n]? = some e ∧ (s.core c).meetOf
      e.lid e.id e.gen = some e ∧ e.paused = none ∧ s.launch e.lid = some l ∧ e.expired = false ∧ e.complete = false ∧
      (e.expiry < s.cycle ∨ (e.expiry = s.cycle ∧ s.arrivalDue c e = false)) ∧ e.bind ≠ none ∧ e.checked = true ∧
      s.meetTargets e = true) ∧
    (∃ (s : State) (l : Launch) (c : CoreId) (n : Nat) (e : MeetEntry), (s.core c).meets[n]? = some e ∧ (s.core c).meetOf
      e.lid e.id e.gen = some e ∧ e.paused = none ∧ s.launch e.lid = some l ∧ e.expired = false ∧ e.complete = false ∧
      (e.expiry < s.cycle ∨ (e.expiry = s.cycle ∧ s.arrivalDue c e = false)) ∧ e.bind ≠ none ∧ (e.checked = false ∨
      s.meetTargets e = false)) ∧
    (∃ (s : State) (c : CoreId) (n : Nat), ∃ o, (s.core c).iface.find? (·.op == n) = some o ∧ o.inFlight = false ∧ (s.core
      c).away = false ∧ o.passed s.cycle = false ∧ o.retryAt ≤ s.cycle) ∧
    (∃ (s : State) (l : Launch) (c : CoreId) (n : Nat), ∃ o, (s.core c).iface.find? (·.op == n) = some o ∧ o.inFlight = false
      ∧ (s.core c).away = false ∧ o.passed s.cycle = true ∧ s.launch o.lid = some l) :=
  ⟨⟨5, flight 3 (.tagFree 0 8), { arriving (idle 3) 3 (.tagFree 0 8) with launches := [launch3] }, launch3, 0, 8, by
    decide +kernel⟩,
  ⟨5, flight 3 (.tagFree 0 16), { arriving (idle 3) 3 (.tagFree 0 16) with launches := [launch3] }, launch3, 0, 16, by
    decide +kernel⟩,
  ⟨5, flight 3 (.purge 5), arriving (router [meet none false]) 3 (.purge 5), launch1, 5, by decide +kernel⟩,
  ⟨5, flight 3 (.bind 5 0 (bind1 9) 64), arriving (router [other]) 3 (.bind 5 0 (bind1 9) 64), 5, 0, bind1 9, 64, by
    decide +kernel⟩,
  by refine ⟨5, flight 3 (.bind 5 0 (bind1 9) 64), arriving (router [other,
    { State.reset.newMeet 1 7 0 1 with arrived := 1 }]) 3 (.bind 5 0 (bind1 9) 64), 5, 0, bind1 9, 64, ?h4_1, ?h4_2, ?h4_3,
    ?h4_4, fun g hg _ => List.mem_singleton.mp hg⟩ <;> decide +kernel,
  ⟨5, flight 3 (.bind 5 0 (bind1 9) 64), arriving (router [meet (some (bind1 5)) true]) 3 (.bind 5 0 (bind1 9) 64), launch1,
    5, 0, bind1 9, 64, meet (some (bind1 5)) true, by decide +kernel⟩,
  ⟨5, flight 3 (.bind 5 0 (bind1 9) 64), arriving (router [{ meet none false with expired := true }]) 3 (.bind 5 0 (bind1 9)
    64), launch1, 5, 0, bind1 9, 64, { meet none false with expired := true }, by decide +kernel⟩,
  ⟨5, flight 3 (.bind 5 0 bindOp 64), arriving (router [meet none false]) 3 (.bind 5 0 bindOp 64), 5, 0, bindOp, 64, meet
    none false, by decide +kernel⟩,
  ⟨5, flight 3 (.operand (operand 15)), arriving (router [{ other with waiting := List.replicate 13 (0, [0]) }]) 3 (.operand
    (operand 15)), operand 15, by decide +kernel⟩,
  ⟨5, flight 3 (.operand (operand 0)), arriving (router [other]) 3 (.operand (operand 0)), operand 0, by decide +kernel⟩,
  ⟨5, flight 3 (.operand { operand 0 with expiry := some 4999 }), arriving (router [other]) 3 (.operand
    { operand 0 with expiry := some 4999 }), launch1, { operand 0 with expiry := some 4999 }, by decide +kernel⟩,
  ⟨5, flight 3 (.operand (operand 0)), arriving (router [meet none true]) 3 (.operand (operand 0)), launch1, operand 0, meet
    none true, by decide +kernel⟩,
  ⟨5, flight 3 (.operand (operand 1)), arriving (router [meet none true]) 3 (.operand (operand 1)), launch1, operand 1, meet
    none true, by decide +kernel⟩,
  by refine ⟨5, flight 3 (.operand (operand 1)), arriving (router [joined false]) 3 (.operand (operand 1)), launch1, operand
    1, joined false, ?h13_1, ?h13_2, ?h13_3, ?h13_4, ?h13_5, ?h13_6, ?h13_7, bindOp, ?h13_8⟩ <;> decide +kernel,
  by refine ⟨5, flight 3 (.operand (operand 1)), arriving (router [joined true]) 3 (.operand (operand 1)), launch1, operand
    1, joined true, ?h14_1, ?h14_2, ?h14_3, ?h14_4, ?h14_5, ?h14_6, ?h14_7, bindOp, ?h14_8⟩ <;> decide +kernel,
  ⟨meetingIn launch3 (router [meet none false]), launch3, 3, 0, meet none false, by decide +kernel⟩,
  ⟨meetingIn launch3 (router [{ meet none false with live := false }]), launch3, 3, 0,
    { meet none false with live := false }, by decide +kernel⟩,
  ⟨meetingIn launch3 (router [whole]), launch3, 3, 0, whole, by decide +kernel⟩,
  ⟨{ meetingIn launch3 (router [meet none true]) with cycle := 1024 * 65535 + 1 }, launch3, 3, 0, meet none true, by
    decide +kernel⟩,
  ⟨{ meetingIn launch3 (router [meet (some (bind1 4)) true]) with cycle := 4096 }, launch3, 3, 0, meet (some (bind1 4)) true,
    by decide +kernel⟩,
  ⟨{ meetingIn launch3 (router [meet (some (bind1 4)) false]) with cycle := 4097 }, launch3, 3, 0, meet (some (bind1 4))
    false, by decide +kernel⟩,
  ⟨on 3 { idle 3 with iface := [operand 0] }, 3, 7, operand 0, by decide +kernel⟩,
  ⟨on 3 { idle 3 with iface := [{ operand 0 with expiry := some 4999 }] }, launch1, 3, 7,
    { operand 0 with expiry := some 4999 }, by decide +kernel⟩⟩

/-- The hypotheses of each clause of ExpertsAtTheirUnits can be met. -/
theorem witness_ExpertsAtTheirUnits :
    (∃ (s : State) (c : CoreId) (id : Nat) (r : Route), (s.core c).routes.find? (·.id == id) = some r ∧ (s.core c).hold =
      .none ∧ r.stage = .queued ∧ r.aborted = false ∧ (s.core c).routeBlocked id = false ∧ (s.core c).cachedExpert r.name =
      none) ∧
    (∃ (s : State) (c : CoreId) (id : Nat) (r : Route), (s.core c).routes.find? (·.id == id) = some r ∧ (s.core c).hold =
      .none ∧ ∃ y, r.stage = .queued ∧ r.aborted = false ∧ (s.core c).routeBlocked id = false ∧ (s.core c).cachedExpert
      r.name = some y ∧ r.refresh = 0 ∧
      let far := ptrSpace r.row = 0 ∧ 0x80000 < ptrAddr r.row + rowBytes y.entry.rowlen
      ∃ n rest, y.entry.valid = true ∧ ¬ far ∧ (candidates y.entry (fun i => y.est.toList.getD i 0) = n :: rest)) ∧
    (∃ (s : State) (c : CoreId) (id : Nat) (r : Route), (s.core c).routes.find? (·.id == id) = some r ∧ (s.core c).hold =
      .none ∧ ∃ y, r.stage = .queued ∧ r.aborted = false ∧ (s.core c).routeBlocked id = false ∧ (s.core c).cachedExpert
      r.name = some y ∧ r.refresh = 0 ∧ y.entry.valid = false) ∧
    (∃ (s : State) (c : CoreId) (id : Nat) (r : Route), (s.core c).routes.find? (·.id == id) = some r ∧ (s.core c).hold =
      .none ∧ ∃ y, r.stage = .queued ∧ r.aborted = false ∧ (s.core c).routeBlocked id = false ∧ (s.core c).cachedExpert
      r.name = some y ∧ r.refresh = 0 ∧
      let far := ptrSpace r.row = 0 ∧ 0x80000 < ptrAddr r.row + rowBytes y.entry.rowlen
      y.entry.valid = true ∧ far) ∧
    (∃ (s : State) (c : CoreId) (id : Nat) (r : Route), (s.core c).routes.find? (·.id == id) = some r ∧ (s.core c).hold =
      .none ∧ ∃ y, r.stage = .queued ∧ r.aborted = false ∧ (s.core c).routeBlocked id = false ∧ (s.core c).cachedExpert
      r.name = some y ∧ r.refresh = 0 ∧
      let far := ptrSpace r.row = 0 ∧ 0x80000 < ptrAddr r.row + rowBytes y.entry.rowlen
      y.entry.valid = true ∧ ¬ far ∧ (candidates y.entry (fun i => y.est.toList.getD i 0) = []) ∧ r.spec = false) ∧
    (∃ (s : State) (c : CoreId) (id : Nat) (r : Route), (s.core c).routes.find? (·.id == id) = some r ∧ (s.core c).hold =
      .none ∧ r.stage = .heldOverflow ∧ r.aborted = false ∧ r.spec = false) ∧
    (∃ (s : State) (c : CoreId) (id : Nat) (r : Route), (s.core c).routes.find? (·.id == id) = some r ∧ (s.core c).hold =
      .none ∧ ∃ n k', r.stage = .heldRow n k' ∧ r.aborted = true) ∧
    (∃ (s : State) (c : CoreId) (id : Nat) (r : Route),
      let mayLand (d : CoreId) (slot n : Nat) : Prop := ( let place := slotCore (r.entry.slot slot); ptrSpace r.row = 0 ∧ memoriesWf s ∧ s.holds place (s.routeCtx d r) = true ∧ s.holds r.home (s.routeCtx d r) = true ∧ (∀ w ∈ s.walks, w.purpose ≠ .route d r.id) ∧ (∀ p ∈ (s.core r.home).poison, meets (ptrAddr r.row) (rowBytes r.entry.rowlen) p (p + 8) = false) ∧ (s.core place).guardedBy (8 * slotBuf (r.entry.slot slot) + n * rowBytes r.entry.rowlen) (rowBytes r.entry.rowlen) = none)
      (s.core c).routes.find? (·.id == id) = some r ∧ (s.core c).hold = .none ∧ ∃ n k', ((r.stage = .heldRow n k' ∧ r.aborted
        = false ∧ r.spec = false) ∨ (r.stage = .copy n k' ∧ r.due ≤ s.cycle)) ∧ mayLand c n k') ∧
    (∃ (f : Nat) (x : Flight) (s : State) (r : Route),
      let k := s.core x.dst
      ∃ route, arrives s f x ∧ x.body = .fill route ∧ k.routes.find? (·.id == route) = some r ∧ r.aborted = false) ∧
    (∃ (f : Nat) (x : Flight) (s : State),
      let k := s.core x.dst
      ∃ route name slot idx gen cap, arrives s f x ∧ x.body = .claim route name slot idx gen cap ∧
      let y := k.counters[idx.toFin]
      let bound := y.early * 2 ^ 20 + y.next
      y.mode = 2 ∧ y.pending % 2 ^ 16 = gen ∧ y.value.toNat < bound) ∧
    (∃ (f : Nat) (x : Flight) (s : State),
      let k := s.core x.dst
      ∃ route name slot idx gen cap, arrives s f x ∧ x.body = .claim route name slot idx gen cap ∧
      let y := k.counters[idx.toFin]
      y.mode = 2 ∧ y.pending % 2 ^ 16 ≠ gen) ∧
    (∃ (f : Nat) (x : Flight) (s : State),
      let k := s.core x.dst
      ∃ route name slot idx gen cap, arrives s f x ∧ x.body = .claim route name slot idx gen cap ∧
      let y := k.counters[idx.toFin]
      let bound := y.early * 2 ^ 20 + y.next
      (y.mode ≠ 2 ∨ (y.pending % 2 ^ 16 = gen ∧ bound ≤ y.value.toNat))) ∧
    (∃ (f : Nat) (x : Flight) (s : State) (r : Route),
      let k := s.core x.dst
      ∃ route slot, arrives s f x ∧ k.routes.find? (·.id == route) = some r ∧ r.stage = .claim slot ∧ r.aborted = false ∧
        r.spec = false ∧ ∃ answer, x.body = .claimReply route answer true ∧ r.refresh < 3) ∧
    (∃ (f : Nat) (x : Flight) (s : State) (r : Route),
      let k := s.core x.dst
      ∃ route slot, arrives s f x ∧ k.routes.find? (·.id == route) = some r ∧ r.stage = .claim slot ∧ r.aborted = false ∧
        r.spec = false ∧ ∃ answer, x.body = .claimReply route answer true ∧ r.refresh = 3) ∧
    (∃ (f : Nat) (x : Flight) (s : State) (r : Route),
      let k := s.core x.dst
      ∃ route slot, arrives s f x ∧ k.routes.find? (·.id == route) = some r ∧ r.stage = .claim slot ∧ r.aborted = false ∧
        r.spec = false ∧ x.body = .claimReply route none false ∧ r.cand = []) ∧
    (∃ (f : Nat) (x : Flight) (s : State) (r : Route),
      let k := s.core x.dst
      let mayLand (d : CoreId) (slot n : Nat) : Prop := ( let place := slotCore (r.entry.slot slot); ptrSpace r.row = 0 ∧ memoriesWf s ∧ s.holds place (s.routeCtx d r) = true ∧ s.holds r.home (s.routeCtx d r) = true ∧ (∀ w ∈ s.walks, w.purpose ≠ .route d r.id) ∧ (∀ p ∈ (s.core r.home).poison, meets (ptrAddr r.row) (rowBytes r.entry.rowlen) p (p + 8) = false) ∧ (s.core place).guardedBy (8 * slotBuf (r.entry.slot slot) + n * rowBytes r.entry.rowlen) (rowBytes r.entry.rowlen) = none)
      ∃ route slot, arrives s f x ∧ k.routes.find? (·.id == route) = some r ∧ r.stage = .claim slot ∧ r.aborted = false ∧
        r.spec = false ∧ ∃ n, x.body = .claimReply route (some n) false ∧ mayLand x.dst slot n) ∧
    (∃ (f : Nat) (x : Flight) (s : State),
      let k := s.core x.dst
      ∃ w0 w1 off actr claim, arrives s f x ∧ x.body = .metadata w0 w1 off actr claim ∧ s.recordEarlier x claim = false ∧
        s.addTurn x.src x.dst actr.toNat = true ∧ memoriesWf s ∧ k.guardedBy off 8 = none ∧ k.guardedBy (off + 8) 8 = none) ∧
    (∃ (f : Nat) (x : Flight) (s : State), ∃ home op l, due s f x ∧ x.body = .effect (.expert home op) ∧ s.expertEarlier x
      op.name = false ∧ s.launch x.lid = some l ∧ s.context l.ctx ≠ none ∧
      let e := s.expert l.ctx op.name
      let inside (d : CoreId) : Bool := rectHas l.rect d
      ∃ y, op.change e home inside = some (.ok y)) ∧
    (∃ (f : Nat) (x : Flight) (s : State), ∃ home op l, due s f x ∧ x.body = .effect (.expert home op) ∧ s.expertEarlier x
      op.name = false ∧ s.launch x.lid = some l ∧ s.context l.ctx ≠ none ∧
      let e := s.expert l.ctx op.name
      let inside (d : CoreId) : Bool := rectHas l.rect d
      ∃ code, op.change e home inside = some (.error code)) ∧
    (∃ (f : Nat) (x : Flight) (s : State), ∃ home op l, due s f x ∧ x.body = .effect (.expert home op) ∧ s.expertEarlier x
      op.name = false ∧ s.launch x.lid = some l ∧ s.context l.ctx ≠ none ∧
      let e := s.expert l.ctx op.name
      ∃ b, op = .step0 b ∧ e.valid = true ∧ home = e.owner ∧ e.closed = false) ∧
    (∃ (f : Nat) (x : Flight) (s : State), ∃ home op l, due s f x ∧ x.body = .effect (.expert home op) ∧ s.expertEarlier x
      op.name = false ∧ s.launch x.lid = some l ∧ s.context l.ctx ≠ none ∧ ∃ b sel, op = .stat b sel) ∧
    (∃ (f : Nat) (x : Flight) (s : State), ∃ home op l, due s f x ∧ x.body = .effect (.expert home op) ∧ s.expertEarlier x
      op.name = false ∧ s.launch x.lid = some l ∧ s.context l.ctx ≠ none ∧
      let e := s.expert l.ctx op.name
      ∃ b p, op = .look b p ∧ s.holds home l.ctx = true ∧ s.holds x.src l.ctx = true ∧ memoriesWf s ∧ (s.core home).guardedBy
        (ptrAddr p) e.bytes.length = none) ∧
    (∃ (f : Nat) (x : Flight) (s : State), ∃ idx kind gen cap, arrives s f x ∧ x.body = .setBound idx kind gen cap) ∧
    (∃ (f : Nat) (x : Flight) (s : State), ∃ name slot l, due s f x ∧ x.body = .countAdd name slot ∧ s.launch x.lid = some l
      ∧ s.context l.ctx ≠ none ∧ slot < 8) :=
  ⟨⟨on 3 (routing (route .queued 64)), 3, 6, route .queued 64, by decide +kernel⟩,
  by refine ⟨cached 0x0020000000000000 entry1, 3, 6, route .queued 0x0020000000000000, ?h1_1, ?h1_2, ⟨9, entry1,
    Vector.replicate 8 0⟩, ?h1_3, ?h1_4, ?h1_5, ?h1_6, ?h1_7, 0, [1], ?h1_8⟩ <;> decide +kernel,
  ⟨cached 64 invalid1, 3, 6, route .queued 64, by decide +kernel, by decide +kernel, ⟨9, invalid1, Vector.replicate 8 0⟩, by
    decide +kernel⟩,
  ⟨cached 0x7FFF8 entry1, 3, 6, route .queued 0x7FFF8, by decide +kernel, by decide +kernel, ⟨9, entry1, Vector.replicate 8
    0⟩, by decide +kernel⟩,
  ⟨cached 64 slotless, 3, 6, route .queued 64, by decide +kernel, by decide +kernel, ⟨9, slotless, Vector.replicate 8 0⟩, by
    decide +kernel⟩,
  ⟨on 3 (routing (route .heldOverflow 64)), 3, 6, route .heldOverflow 64, by decide +kernel⟩,
  ⟨on 3 (routing { route (.heldRow 1 5) 64 with aborted := true }), 3, 6, { route (.heldRow 1 5) 64 with aborted := true },
    by decide +kernel, by decide +kernel, 1, 5, by decide +kernel⟩,
  ⟨on 3 (routing (route (.heldRow 1 1) 64)), 3, 6, route (.heldRow 1 1) 64, by decide +kernel, by decide +kernel, 1, 1, by
    decide +kernel⟩,
  ⟨5, flight 3 (.fill 6), arriving (routing (route .fill 64)) 3 (.fill 6), route .fill 64, 6, by decide +kernel⟩,
  ⟨5, flight 3 (.claim 6 9 1 254 4 1), arriving (counting (bounded 1)) 3 (.claim 6 9 1 254 4 1), 6, 9, 1, 254, 4, 1, by
    decide +kernel⟩,
  ⟨5, flight 3 (.claim 6 9 1 254 3 1), arriving (counting (bounded 1)) 3 (.claim 6 9 1 254 3 1), 6, 9, 1, 254, 3, 1, by
    decide +kernel⟩,
  ⟨5, flight 3 (.claim 6 9 1 254 4 1), arriving (counting (bounded 2)) 3 (.claim 6 9 1 254 4 1), 6, 9, 1, 254, 4, 1, by
    decide +kernel⟩,
  by refine ⟨5, answers none true, answering 2 none true, asking 2, 6, 1, ?h12_1, ?h12_2, ?h12_3, ?h12_4, ?h12_5, none,
    ?h12_6⟩ <;> decide +kernel,
  by refine ⟨5, answers none true, answering 3 none true, asking 3, 6, 1, ?h13_1, ?h13_2, ?h13_3, ?h13_4, ?h13_5, none,
    ?h13_6⟩ <;> decide +kernel,
  ⟨5, answers none false, answering 0 none false, asking 0, 6, 1, by decide +kernel⟩,
  by refine ⟨5, answers (some 1) false, answering 0 (some 1) false, asking 0, 6, 1, ?h15_1, ?h15_2, ?h15_3, ?h15_4, ?h15_5,
    1, ?h15_6⟩ <;> decide +kernel,
  ⟨5, flight 3 (.metadata 1 2 0x7FFF0 254 0), arriving (idle 3) 3 (.metadata 1 2 0x7FFF0 254 0), 1, 2, 0x7FFF0, 254, 0, by
    decide +kernel⟩,
  by refine ⟨5, flight 3 (.effect (.expert 3 (.retire0 9 1))), directed (.effect (.expert 3 (.retire0 9 1))), 3, .retire0 9
    1, launch1, ?h17_1, ?h17_2, ?h17_3, ?h17_4, ?h17_5, _, rfl⟩ <;> decide +kernel,
  by refine ⟨5, flight 3 (.effect (.expert 4 (.step0 9))), directed (.effect (.expert 4 (.step0 9))), 4, .step0 9, launch1,
    ?h18_1, ?h18_2, ?h18_3, ?h18_4, ?h18_5, 0x0213, rfl⟩ <;> decide +kernel,
  by refine ⟨5, flight 3 (.effect (.expert 3 (.step0 9))), directed (.effect (.expert 3 (.step0 9))), 3, .step0 9, launch1,
    ?h19_1, ?h19_2, ?h19_3, ?h19_4, ?h19_5, 9, ?h19_6⟩ <;> decide +kernel,
  by refine ⟨5, flight 3 (.effect (.expert 3 (.stat 9 0))), directed (.effect (.expert 3 (.stat 9 0))), 3, .stat 9 0,
    launch1, ?h20_1, ?h20_2, ?h20_3, ?h20_4, ?h20_5, 9, 0, ?h20_6⟩ <;> decide +kernel,
  by refine ⟨5, flight 3 (.effect (.expert 3 (.look 9 0x7FF80))), directed (.effect (.expert 3 (.look 9 0x7FF80))), 3, .look
    9 0x7FF80, launch1, ?h21_1, ?h21_2, ?h21_3, ?h21_4, ?h21_5, 9, 0x7FF80, ?h21_6⟩ <;> decide +kernel,
  ⟨5, flight 3 (.setBound 254 0 4 1), arriving (idle 3) 3 (.setBound 254 0 4 1), 254, 0, 4, 1, by decide +kernel⟩,
  ⟨5, flight 3 (.countAdd 9 7), directed (.countAdd 9 7), 9, 7, launch1, by decide +kernel⟩⟩

/-- The hypotheses of each clause of GroupsAtTheirUnit can be met. -/
theorem witness_GroupsAtTheirUnit :
    (∃ (f : Nat) (x : Flight) (s : State) (issuer : CoreId), ∃ words m, groupAt s f x issuer (.configure words) ∧ x.dst =
      issuer ∧ (s.core issuer).reservedGroup x.tag = some m) ∧
    (∃ (f : Nat) (x : Flight) (s : State) (h : Word) (issuer : CoreId),
      let home : CoreId := h.field 0 11
      let n := h.field 27 2
      let g := (s.core home).group n
      let taken (op : GroupOp) : Prop := groupAt s f x issuer op ∧ x.dst = home ∧ (g.state = 2 → g.paused = none ∧ g.expiredBy x.due = false)
      ∃ words first, taken (.fork h words first) ∧ issuer = home ∧ g.state = 1) ∧
    (∃ (f : Nat) (x : Flight) (s : State) (h : Word) (issuer : CoreId),
      let home : CoreId := h.field 0 11
      let n := h.field 27 2
      let g := (s.core home).group n
      let taken (op : GroupOp) : Prop := groupAt s f x issuer op ∧ x.dst = home ∧ (g.state = 2 → g.paused = none ∧ g.expiredBy x.due = false)
      ∃ words first, taken (.fork h words first) ∧ (issuer ≠ home ∨ g.state ≠ 1)) ∧
    (∃ (f : Nat) (x : Flight) (s : State) (h c : Word) (issuer : CoreId),
      let home : CoreId := h.field 0 11
      let n := h.field 27 2
      let g := (s.core home).group n
      let taken (op : GroupOp) : Prop := groupAt s f x issuer op ∧ x.dst = home ∧ (g.state = 2 → g.paused = none ∧ g.expiredBy x.due = false)
      taken (.reward h c) ∧ g.state ≠ 2) ∧
    (∃ (f : Nat) (x : Flight) (s : State) (h c : Word) (issuer : CoreId),
      let home : CoreId := h.field 0 11
      let n := h.field 27 2
      let i := h.field 35 6
      let g := (s.core home).group n
      let taken (op : GroupOp) : Prop := groupAt s f x issuer op ∧ x.dst = home ∧ (g.state = 2 → g.paused = none ∧ g.expiredBy x.due = false)
      taken (.reward h c) ∧ g.state = 2 ∧ g.n ≤ i) ∧
    (∃ (f : Nat) (x : Flight) (s : State) (h c : Word) (issuer : CoreId),
      let home : CoreId := h.field 0 11
      let n := h.field 27 2
      let i := h.field 35 6
      let g := (s.core home).group n
      let taken (op : GroupOp) : Prop := groupAt s f x issuer op ∧ x.dst = home ∧ (g.state = 2 → g.paused = none ∧ g.expiredBy x.due = false)
      taken (.reward h c) ∧ g.state = 2 ∧ i < g.n ∧ (g.siblings.getD i (1, 0)).1 ≠ 0) ∧
    (∃ (f : Nat) (x : Flight) (s : State) (h c : Word) (issuer : CoreId),
      let home : CoreId := h.field 0 11
      let n := h.field 27 2
      let i := h.field 35 6
      let g := (s.core home).group n
      let taken (op : GroupOp) : Prop := groupAt s f x issuer op ∧ x.dst = home ∧ (g.state = 2 → g.paused = none ∧ g.expiredBy x.due = false)
      taken (.reward h c) ∧ g.state = 2 ∧ i < g.n ∧ (g.siblings.getD i (1, 0)).1 = 0) ∧
    (∃ (f : Nat) (x : Flight) (s : State) (h c : Word) (issuer : CoreId),
      let home : CoreId := h.field 0 11
      let n := h.field 27 2
      let g := (s.core home).group n
      let taken (op : GroupOp) : Prop := groupAt s f x issuer op ∧ x.dst = home ∧ (g.state = 2 → g.paused = none ∧ g.expiredBy x.due = false)
      taken (.cancel h c) ∧ c = BitVec.allOnes 64 ∧ (g.state = 1 ∨ g.state = 2)) ∧
    (∃ (f : Nat) (x : Flight) (s : State) (h c : Word) (issuer : CoreId),
      let home : CoreId := h.field 0 11
      let n := h.field 27 2
      let g := (s.core home).group n
      let taken (op : GroupOp) : Prop := groupAt s f x issuer op ∧ x.dst = home ∧ (g.state = 2 → g.paused = none ∧ g.expiredBy x.due = false)
      taken (.cancel h c) ∧ c.toNat < g.n ∧ g.state = 2 ∧ (g.siblings.getD c.toNat (1, 0)).1 = 0) ∧
    (∃ (f : Nat) (x : Flight) (s : State) (h : Word) (issuer : CoreId),
      let home : CoreId := h.field 0 11
      let n := h.field 27 2
      let g := (s.core home).group n
      let taken (op : GroupOp) : Prop := groupAt s f x issuer op ∧ x.dst = home ∧ (g.state = 2 → g.paused = none ∧ g.expiredBy x.due = false)
      taken (.release h) ∧ issuer = home ∧ (g.state = 3 ∨ g.state = 4)) ∧
    (∃ (f : Nat) (x : Flight) (s : State) (h : Word) (issuer : CoreId),
      let home : CoreId := h.field 0 11
      let n := h.field 27 2
      let g := (s.core home).group n
      let taken (op : GroupOp) : Prop := groupAt s f x issuer op ∧ x.dst = home ∧ (g.state = 2 → g.paused = none ∧ g.expiredBy x.due = false)
      taken (.release h) ∧ (issuer ≠ home ∨ (g.state ≠ 3 ∧ g.state ≠ 4))) ∧
    (∃ (f : Nat) (x : Flight) (s : State) (h c : Word) (issuer : CoreId),
      let home : CoreId := h.field 0 11
      let n := h.field 27 2
      let g := (s.core home).group n
      let taken (op : GroupOp) : Prop := groupAt s f x issuer op ∧ x.dst = home ∧ (g.state = 2 → g.paused = none ∧ g.expiredBy x.due = false)
      taken (.stat h c) ∧ c.toNat = 0) ∧
    (∃ (f : Nat) (x : Flight) (s : State) (h c : Word) (issuer : CoreId),
      let home : CoreId := h.field 0 11
      let n := h.field 27 2
      let g := (s.core home).group n
      let taken (op : GroupOp) : Prop := groupAt s f x issuer op ∧ x.dst = home ∧ (g.state = 2 → g.paused = none ∧ g.expiredBy x.due = false)
      taken (.stat h c) ∧ c.toNat = 3) ∧
    (∃ (f : Nat) (x : Flight) (s : State) (h c : Word) (issuer : CoreId),
      let home : CoreId := h.field 0 11
      let n := h.field 27 2
      let g := (s.core home).group n
      let taken (op : GroupOp) : Prop := groupAt s f x issuer op ∧ x.dst = home ∧ (g.state = 2 → g.paused = none ∧ g.expiredBy x.due = false)
      taken (.stat h c) ∧ c.toNat = 4) ∧
    (∃ (f : Nat) (x : Flight) (s : State) (h c : Word) (issuer : CoreId),
      let home : CoreId := h.field 0 11
      let n := h.field 27 2
      let g := (s.core home).group n
      let taken (op : GroupOp) : Prop := groupAt s f x issuer op ∧ x.dst = home ∧ (g.state = 2 → g.paused = none ∧ g.expiredBy x.due = false)
      taken (.stat h c) ∧ 5 ≤ c.toNat) ∧
    (∃ (s : State) (h : Word),
      let home : CoreId := h.field 0 11
      let n := h.field 27 2
      let g := (s.core home).group n
      ∃ d, g.deadline = some d ∧ d ≤ s.cycle ∧ g.state = 2 ∧ g.paused = none ∧ s.groupArrivals home n d = false) ∧
    (∃ (f : Nat) (x : Flight) (s : State), ∃ adv words stat status ctr, arrives s f x ∧ x.body = .groupWrite adv words stat
      status ctr ∧ s.addTurn x.dst x.dst ctr = true ∧ memoriesWf s ∧ (s.core x.dst).guardedBy (ptrAddr stat) 8 = none) :=
  ⟨⟨5, asks (.configure [0, 0, 0, 0]), asked reservedSlot (.configure [0, 0, 0, 0]), 3, [0, 0, 0, 0], 1, by decide +kernel⟩,
  ⟨5, asks (.fork handle (List.replicate 8 0) (some 0)), asked (slotIn 1 []) (.fork handle (List.replicate 8 0) (some 0)),
    handle, 3, List.replicate 8 0, some 0, by decide +kernel⟩,
  ⟨5, asks (.fork handle (List.replicate 8 0) (some 0)), asked (slotIn 2 siblings2) (.fork handle (List.replicate 8 0) (some
    0)), handle, 3, List.replicate 8 0, some 0, by decide +kernel⟩,
  ⟨5, asks (.reward handle1 1), asked (slotIn 3 siblings2) (.reward handle1 1), handle1, 1, 3, by decide +kernel⟩,
  ⟨5, asks (.reward handle1 1), asked { slotIn 2 [] with c3 := 0 } (.reward handle1 1), handle1, 1, 3, by decide +kernel⟩,
  ⟨5, asks (.reward handle 1), asked (slotIn 2 siblings2) (.reward handle 1), handle, 1, 3, by decide +kernel⟩,
  ⟨5, asks (.reward handle1 1), asked (slotIn 2 siblings2) (.reward handle1 1), handle1, 1, 3, by decide +kernel⟩,
  ⟨5, asks (.cancel handle (BitVec.allOnes 64)), asked (slotIn 2 siblings2) (.cancel handle (BitVec.allOnes 64)), handle,
    BitVec.allOnes 64, 3, by decide +kernel⟩,
  ⟨5, asks (.cancel handle 1), asked (slotIn 2 siblings2) (.cancel handle 1), handle, 1, 3, by decide +kernel⟩,
  ⟨5, asks (.release handle), asked (slotIn 4 siblings2) (.release handle), handle, 3, by decide +kernel⟩,
  ⟨5, asks (.release handle), asked (slotIn 2 siblings2) (.release handle), handle, 3, by decide +kernel⟩,
  ⟨5, asks (.stat handle 0), asked (slotIn 2 siblings2) (.stat handle 0), handle, 0, 3, by decide +kernel⟩,
  ⟨5, asks (.stat handle 3), asked (slotIn 2 siblings2) (.stat handle 3), handle, 3, 3, by decide +kernel⟩,
  ⟨5, asks (.stat handle 4), asked (slotIn 2 siblings2) (.stat handle 4), handle, 4, 3, by decide +kernel⟩,
  ⟨5, asks (.stat handle 5), asked (slotIn 2 siblings2) (.stat handle 5), handle, 5, 3, by decide +kernel⟩,
  ⟨on 3 (grouped { slotIn 2 siblings2 with deadline := some 5000 }), handle, 5000, by decide +kernel⟩,
  ⟨5, flight 3 (.groupWrite 64 [1, 2] 0x7FFF8 7 254), arriving (idle 3) 3 (.groupWrite 64 [1, 2] 0x7FFF8 7 254), 64, [1, 2],
    0x7FFF8, 7, 254, by decide +kernel⟩⟩

/-- The hypotheses of each clause of RecordsReachTheHall can be met. -/
theorem witness_RecordsReachTheHall :
    (∃ (s : State) (lid : Nat), ∃ l, s.launch lid = some l ∧ l.energy ≠ 0) ∧
    (∃ (c : Nat), coreExists c = true) ∧
    (∃ (f : Nat) (x : Flight) (s : State), ∃ r, due s f x ∧ x.body = .trap r ∧ s.trapEarlier f r.ctx = false ∧ r.words.length
      = 8 ∧
      let q := s.trapRing r.ctx
      let a := q.2.1 + 64 * (q.2.2 % 256)
      a < 0x80000 ∧ (s.core q.1).isFull a = false ∧ (s.core q.1).open' = true ∧ s.addTurn q.1 q.1 0 = true ∧ memoriesWf s) ∧
    (∃ (f : Nat) (x : Flight) (s : State) (c : Nat) (n : Nat), ∃ d, arrives s f x ∧ x.body = .nack d ∧ x.cid ≠ 0 ∧
      (s.savedSeat (fun y => y.cid == x.cid) = false) ∧ (s.dropFlight f).seatOfCid x.cid = some (c, n) ∧ (s.seat c n).trap =
      none) ∧
    (∃ (f : Nat) (x : Flight) (s : State) (c : Nat) (n : Nat), ∃ d, arrives s f x ∧ x.body = .nack d ∧ x.cid ≠ 0 ∧
      (s.savedSeat (fun y => y.cid == x.cid) = false) ∧ (s.dropFlight f).seatOfCid x.cid = some (c, n) ∧ (s.seat c n).trap ≠
      none) ∧
    (∃ (f : Nat) (x : Flight) (s : State), ∃ d, arrives s f x ∧ x.body = .nack d ∧ x.cid = 0) :=
  ⟨⟨base, 1, launch1, by decide +kernel⟩,
  ⟨2063, by decide +kernel⟩,
  ⟨5, flight 2048 (.trap trapped), { base with flights := [flight 2048 (.trap trapped)], hallRing := 255 }, trapped, by
    decide +kernel⟩,
  ⟨5, flight 3 (.nack negative), arriving (noted none) 3 (.nack negative), 3, 0, negative, by decide +kernel⟩,
  ⟨5, flight 3 (.nack negative), arriving (noted (some negative)) 3 (.nack negative), 3, 0, negative, by decide +kernel⟩,
  ⟨5, { flight 3 (.nack negative) with cid := 0 },
    { on 3 (idle 3) with flights := [{ flight 3 (.nack negative) with cid := 0 }] }, negative, by decide +kernel⟩⟩

/-- The hypotheses of each clause of CoresStopSaveAndReturn can be met. -/
theorem witness_CoresStopSaveAndReturn :
    (∃ (f : Nat) (x : Flight) (s : State), ∃ id, due s f x ∧ x.body = .stop id ∧ (∀ g ∈ s.flights, ∀ y, g.body ≠ .transfer
      y)) ∧
    (∃ (s u : State) (c : CoreId) (pages : List (Nat × Nat)), (s.core c).hold = .stopping ∧ s.quiet c = true ∧ s.context
      (s.core c).ctx ≠ none ∧ s.savePages c (s.core c).ctx 1 saveOffsets = (u, .ok pages) ∧ (s.core c).poison = []) ∧
    (∃ (s u : State) (c : CoreId) (off : Nat), (s.core c).hold = .stopping ∧ s.quiet c = true ∧ s.context (s.core c).ctx ≠
      none ∧ s.savePages c (s.core c).ctx 1 saveOffsets = (u, .error off)) ∧
    (∃ (s : State) (c : CoreId), (s.core c).hold ≠ .stopping ∧ s.stored c = true ∧ (∀ j ∈ s.saveJobs, j.load = true →
      j.waiting ≠ [])) ∧
    (∃ (f : Nat) (x : Flight) (s : State), ∃ id j ctx, due s f x ∧ x.body = .restore id ∧ s.saveJobs.find? (·.id == id) =
      some j ∧ s.context j.ctx = some ctx ∧ (s.core x.dst).ctx = 0 ∧ (s.core x.dst).hold ≠ .stopping ∧ (∀ i ∈ s.saveJobs, ∃ d
      ∈ i.waiting, d ≠ x.dst) ∧ assocGet ctx.saved x.dst = none) ∧
    (∃ (f : Nat) (x : Flight) (s : State) (u : State) (pages : List (Nat × Nat)), ∃ id j ctx, due s f x ∧ x.body = .restore
      id ∧ s.saveJobs.find? (·.id == id) = some j ∧ s.context j.ctx = some ctx ∧ (s.core x.dst).ctx = 0 ∧ (s.core x.dst).hold
      ≠ .stopping ∧ (∀ i ∈ s.saveJobs, ∃ d ∈ i.waiting, d ≠ x.dst) ∧ ∃ old v image, assocGet ctx.saved x.dst = some old ∧
      (s.dropFlight f).savePages x.dst j.ctx 0 saveOffsets = (u, .ok pages) ∧ u.readImage (u.vfOf j.ctx) pages = (v, .ok
      image)) :=
  ⟨⟨5, flight 3 (.stop 2), arriving (core 3 { seat 3 [] with st := .stalled }) 3 (.stop 2), 2, by decide +kernel, by
    decide +kernel, by simp [arriving, flight]⟩,
  ⟨on 3 (mappedCore stopping leaf), (found (on 3 (mappedCore stopping leaf)) 1).1, 3, answer (found (on 3 (mappedCore
    stopping leaf)) 1).2, by decide +kernel, by decide +kernel, by decide +kernel, pages_to_write, by decide +kernel⟩,
  ⟨on 3 (mappedCore stopping 0x15), on 3 (mappedCore stopping 0x15), 3, 0, by decide +kernel, by decide +kernel, by
    decide +kernel, page_not_writable⟩,
  ⟨stored3, 3, by decide +kernel⟩,
  ⟨5, flight 3 (.restore 2), restoring [], 2, loading, context1, by decide +kernel⟩,
  ⟨5, flight 3 (.restore 2), restoring [(3, idle 3)], (found taken 0).1, answer (found taken 0).2, 2, loading,
    { context1 with saved := [(3, idle 3)] }, by decide +kernel, by decide +kernel, by decide +kernel, rfl, by
    decide +kernel, by decide +kernel, by decide +kernel, idle 3, image3.1, answer image3.2, rfl, pages_to_read, image_read⟩⟩

/-- The hypotheses of each clause of StreamsCarryPackets can be met. -/
theorem witness_StreamsCarryPackets :
    (∃ (f : Nat) (x : Flight) (s : State), ∃ cmd fired order n, due s f x ∧ x.body = .stream cmd fired order ∧
      s.streamEarlier n order x.id = false ∧ cmd.kind = .xcopy n ∧ isHall x.dst = false ∧ ∃ record, xcopyOk cmd = false ∧
      fired = some record) ∧
    (∃ (f : Nat) (x : Flight) (s : State), ∃ cmd fired order n, due s f x ∧ x.body = .stream cmd fired order ∧
      s.streamEarlier n order x.id = false ∧ cmd.kind = .xcopy n ∧ isHall x.dst = false ∧
      let ctx := ((s.launch x.lid).map (·.ctx)).getD (s.core x.dst).ctx
      (xcopyOk cmd = false ∧ fired = none ∨ xcopyOk cmd = true ∧ s.streamOk n (s.vfOf ctx) = false)) ∧
    (∃ (f : Nat) (x : Flight) (s : State), ∃ cmd fired order n, due s f x ∧ x.body = .stream cmd fired order ∧
      s.streamEarlier n order x.id = false ∧ cmd.kind = .xcopy n ∧ isHall x.dst = false ∧
      let ctx := ((s.launch x.lid).map (·.ctx)).getD (s.core x.dst).ctx
      xcopyOk cmd = true ∧ s.streamOk n (s.vfOf ctx) = true ∧ s.edgeOut = [] ∧ s.outgoing = [] ∧ deadEnd s.ports (s.stream n)
        (s.stream n).cur ∧
      let ps := edgePackets x.id s.fresh n s.pkgId.toNat cmd
      (∀ p ∈ ps, remotePackage p.packet.dst ≠ s.pkgId.toNat) ∧ (ptrSpace cmd.b ≠ 2 ∨ cmd.d = 0)) ∧
    (∃ (f : Nat) (x : Flight) (s : State), ∃ p, due s f x ∧ x.body = .packet p ∧ s.edgeEarlier f p = false ∧ s.admitted p =
      false) ∧
    (∃ (f : Nat) (x : Flight) (s : State), ∃ p, due s f x ∧ x.body = .packet p ∧ s.edgeEarlier f p = false ∧
      let e := s.exportEntry (remoteEntry p.dst)
      let d := chipCore (ptrAddr e.w0)
      let off := chipOffset (ptrAddr e.w0) + remoteByte p.dst
      let region := chipRegion (ptrAddr e.w0)
      let a := (if region = 2 then 0x90000 else 0) + off
      s.admitted p = true ∧ ptrSpace e.w0 = 1 ∧ p.data ≠ [] ∧ (region = 0 ∧ off + p.data.length ≤ 0x80000 ∨ region = 2 ∧ off
        + p.data.length ≤ 0x10000) ∧ memoriesWf s ∧ s.coreAway e.owner d = false ∧ s.coreAway e.owner e.ccore = false ∧
        (s.core d).lands f = true ∧ (p.total ≤ s.landedWith p → s.addTurn e.ccore e.ccore p.dc = true) ∧ s.entryCores e =
        true ∧ (s.core d).guardedBy a p.data.length = none ∧ (s.core d).tileBusy a p.data.length = false) ∧
    (∃ (f : Nat) (x : Flight) (s : State), ∃ p, due s f x ∧ x.body = .packet p ∧ s.edgeEarlier f p = false ∧
      let e := s.exportEntry (remoteEntry p.dst)
      let d := chipCore (ptrAddr e.w0)
      let off := chipOffset (ptrAddr e.w0) + remoteByte p.dst
      let region := chipRegion (ptrAddr e.w0)
      s.admitted p = true ∧ ptrSpace e.w0 = 1 ∧ p.data ≠ [] ∧ (region = 0 ∧ off + p.data.length ≤ 0x80000 ∨ region = 2 ∧ off
        + p.data.length ≤ 0x10000) ∧ memoriesWf s ∧ s.coreAway e.owner d = false ∧ s.coreAway e.owner e.ccore = false ∧
        (s.core d).lands f = true ∧ (p.total ≤ s.landedWith p → s.addTurn e.ccore e.ccore p.dc = true) ∧ s.entryCores e =
        false) ∧
    (∃ (f : Nat) (x : Flight) (s : State), ∃ xid index refused o, due s f x ∧ x.body = .xack xid index refused ∧ s.outgoing?
      xid = some o ∧ o.toSettle = 1) ∧
    (∃ (f : Nat) (x : Flight) (s : State), ∃ xid index refused o, due s f x ∧ x.body = .xack xid index refused ∧ s.outgoing?
      xid = some o ∧ o.toSettle ≠ 1) ∧
    (∃ (q : Nat), q < 12) :=
  ⟨by refine ⟨5, fired badCopy, edge (fired badCopy) true, badCopy, some 64, 0, 5, ?h0_1, ?h0_2, ?h0_3, ?h0_4, ?h0_5, 64,
    ?h0_6⟩ <;> decide +kernel,
  ⟨5, leaving (command (.xcopy 6) 0x7FFF8 (xcopy 1).c 8), edge (leaving (command (.xcopy 6) 0x7FFF8 (xcopy 1).c 8)) true,
    command (.xcopy 6) 0x7FFF8 (xcopy 1).c 8, none, 0, 6, by decide +kernel⟩,
  ⟨5, leaving (xcopy 1), edge (leaving (xcopy 1)) false, xcopy 1, none, 0, 5, by decide +kernel⟩,
  ⟨5, flight 3 (.packet (packet9 125)), landing (packet9 125), packet9 125, by decide +kernel⟩,
  ⟨5, flight 3 (.packet (packet9 124)), landing (packet9 124), packet9 124, by decide +kernel⟩,
  ⟨5, flight 3 (.packet (packet9 124)), landingAway (packet9 124), packet9 124, by decide +kernel⟩,
  ⟨5, flight 3 (.xack 4 0 (some (0x28, 7))), settling 1, 4, 0, some (0x28, 7), outgoing1 1, by decide +kernel⟩,
  ⟨5, flight 3 (.xack 4 0 (some (0x28, 7))), settling 2, 4, 0, some (0x28, 7), outgoing1 2, by decide +kernel⟩,
  ⟨11, by decide +kernel⟩⟩

/-- The hypotheses of each clause of ImagesAndLaunches can be met. -/
theorem witness_ImagesAndLaunches :
    (∃ (tag ctx c a : Nat) (data : List (BitVec 8)) (s : State) (x : Context), s.ownContext tag ctx = some x ∧ ctx ≠ 0 ∧ c <
      2048 ∧ s.inPartition ctx false c = true ∧ a + data.length ≤ 0x80000 ∧ memoriesWf s ∧ assocGet x.saved c = none ∧
      ((s.core c).ctx = ctx ∨ ((s.core c).ctx = 0 ∧ (s.core c).hold = .none)) ∧ (s.core c).guardedBy a data.length = none) ∧
    (∃ (tag ctx c a : Nat) (data : List (BitVec 8)) (s : State) (x : Context), s.ownContext tag ctx = some x ∧ ctx ≠ 0 ∧ c <
      2048 ∧ s.inPartition ctx false c = true ∧ a + data.length ≤ 0x80000 ∧ memoriesWf s ∧ assocGet x.saved c = none ∧
      ((s.core c).ctx = ctx ∨ ((s.core c).ctx = 0 ∧ (s.core c).hold = .none)) ∧ ∃ ring, (s.core c).guardedBy a data.length =
      some ring) ∧
    (∃ (tag ctx c a : Nat) (data : List (BitVec 8)) (s : State) (x : Context), s.ownContext tag ctx = some x ∧ ctx ≠ 0 ∧ c <
      2048 ∧ s.inPartition ctx false c = true ∧ a + data.length ≤ 0x80000 ∧ memoriesWf s ∧ ∃ k, assocGet x.saved c = some k ∧
      k.guardedBy a data.length = none) ∧
    (∃ (tag ctx c a : Nat) (data : List (BitVec 8)) (s : State) (x : Context), s.ownContext tag ctx = some x ∧ ctx ≠ 0 ∧ ∃ m
      l u taken, 2048 ≤ c ∧ s.awaken.mappedPieces ctx (rangePieces a data.length) = (m, some l) ∧ m.writePieces (s.vfOf ctx)
      data l = (u, taken)) ∧
    (∃ (tag ctx c a : Nat) (data : List (BitVec 8)) (s : State) (x : Context), s.ownContext tag ctx = some x ∧ ctx ≠ 0 ∧ ∃ m,
      2048 ≤ c ∧ s.awaken.mappedPieces ctx (rangePieces a data.length) = (m, none)) ∧
    (∃ (tag ctx va : Nat) (s : State) (x : Context), s.ownContext tag ctx = some x ∧ ctx ≠ 0 ∧
      let r := s.awaken.serviceRead ctx va 64
      ∃ b, r.2 = some b ∧
      let d := LaunchDescriptor.ofBytes b
      let h := r.1.serviceRead ctx d.htab.toNat 512
      let i := h.1.serviceRead ctx d.init.toNat (64 * d.ninit)
      let inside := (rectCores d.rect).all (s.inPartition ctx false)
      ∃ hb rb, d.ok = true ∧ inside = true ∧ h.2 = some hb ∧ i.2 = some rb ∧ (recordsOf d.ninit rb).all (initialOk d.rect) =
        true ∧ s.launches.length < 65535) ∧
    (∃ (tag ctx va : Nat) (s : State) (x : Context), s.ownContext tag ctx = some x ∧ ctx ≠ 0 ∧
      let r := s.awaken.serviceRead ctx va 64
      ∃ b, r.2 = some b ∧
      let d := LaunchDescriptor.ofBytes b
      let inside := (rectCores d.rect).all (s.inPartition ctx false)
      (d.ok = false ∨ inside = false)) ∧
    (∃ (tag ctx va : Nat) (s : State) (x : Context), s.ownContext tag ctx = some x ∧ ctx ≠ 0 ∧
      let r := s.awaken.serviceRead ctx va 64
      r.2 = none) :=
  ⟨⟨tag7, 1, 7, 0x7FFFF, [9], mapped, context1, by decide +kernel⟩,
  by refine ⟨tag7, 1, 7, 0x7FFF, [9], on 7 { idle 7 with rings := ringed }, context1, ?h1_1, ?h1_2, ?h1_3, ?h1_4, ?h1_5,
    ?h1_6, ?h1_7, ?h1_8, 2, ?h1_9⟩ <;> decide +kernel,
  by refine ⟨tag7, 1, 7, 0x7FFFF, [9], { base with contexts := [{ context1 with saved := [(7, idle 7)] }] },
    { context1 with saved := [(7, idle 7)] }, ?h2_1, ?h2_2, ?h2_3, ?h2_4, ?h2_5, ?h2_6, idle 7, ?h2_7⟩ <;> decide +kernel,
  ⟨tag7, 1, 2048, 4088, [1, 2, 3, 4, 5, 6, 7, 8], mapped, context1, by decide +kernel, by decide +kernel, pieces1.1, [(4088,
    8)], _, _, by decide +kernel, pieces1_found, rfl⟩,
  ⟨tag7, 1, 2048, 4092, [1, 2, 3, 4, 5, 6, 7, 8], mapped, context1, by decide +kernel, by decide +kernel, pieces2.1, by
    decide +kernel, pieces2_lost⟩,
  ⟨tag7, 1, 64, mapped, context1, by decide +kernel, by decide +kernel, launchMemory.bytes 64 64, by decide +kernel,
    launchMemory.bytes 0 512, launchMemory.bytes 128 64, by decide +kernel⟩,
  ⟨tag7, 1, 0, mapped, context1, by decide +kernel, by decide +kernel, launchMemory.bytes 0 64, by decide +kernel⟩,
  ⟨tag7, 1, 4096, mapped, context1, by decide +kernel⟩⟩

/-- The hypotheses of each clause of ContextsMapsAndCounts can be met. -/
theorem witness_ContextsMapsAndCounts :
    (∃ (vf prio : Nat) (s : State), prio ≤ 7 ∧ s.vfs.any (·.vf == vf) = true ∧ s.contexts.length < 65535) ∧
    (∃ (vf prio : Nat) (s : State), (7 < prio ∨ s.vfs.any (·.vf == vf) = false)) ∧
    (∃ (tag ctx : Nat) (s : State), s.ownContext tag ctx = none) ∧
    (∃ (tag ctx : Nat) (s : State),
      let own (x : Context) : Prop := s.ownContext tag ctx = some x
      ∃ x, own x ∧ ctx ≠ 0) ∧
    (∃ (tag ctx : Nat) (e : BitVec 256) (s : State),
      let own (x : Context) : Prop := s.ownContext tag ctx = some x
      ∃ x, own x ∧
      let y := tableEntry e
      ∃ u taken, y.w1.toNat % 8 = 0 ∧ paInRange y.w1.toNat = true ∧ s.awaken.dramWrite (s.vfOf ctx) y.w1.toNat (wordBytes
        y.w0) = (u, taken)) ∧
    (∃ (tag ctx : Nat) (e : BitVec 256) (s : State),
      let own (x : Context) : Prop := s.ownContext tag ctx = some x
      ∃ x, own x ∧
      let y := tableEntry e
      y.w0.field 0 12 = 0 ∧ y.w0.field 48 16 = 0 ∧ (s.awaken.headerRoot ctx).2 = none) ∧
    (∃ (tag ctx idx : Nat) (e : BitVec 256) (s : State),
      let own (x : Context) : Prop := s.ownContext tag ctx = some x
      ∃ x, own x ∧
      let y := tableEntry e
      idx < 256 ∧ y.exportOk = true) ∧
    (∃ (tag ctx idx : Nat) (e : BitVec 256) (s : State),
      let own (x : Context) : Prop := s.ownContext tag ctx = some x
      ∃ x, own x ∧
      let y := tableEntry e
      idx < 256 ∧ y.exportOk = false) ∧
    (∃ (tag ctx idx : Nat) (e : BitVec 256) (s : State),
      let own (x : Context) : Prop := s.ownContext tag ctx = some x
      ∃ x, own x ∧
      let y := tableEntry e
      idx < 4096 ∧ y.streamOk = true ∧ s.edgeOut = []) ∧
    (∃ (tag ctx idx : Nat) (e : BitVec 256) (s : State),
      let own (x : Context) : Prop := s.ownContext tag ctx = some x
      ∃ x, own x ∧
      let y := tableEntry e
      idx < 4096 ∧ y.streamOk = false) ∧
    (∃ (tag ctx c ctr thr : Nat) (s : State) (x : Context), s.ownContext tag ctx = some x ∧ ∃ k, c < 2048 ∧ ctr < 256 ∧ thr <
      2 ^ 64 ∧ s.coreOf ctx c = some k ∧
      let v := (k.counters[(BitVec.ofNat 8 ctr).toFin]).value
      thr ≤ v.toNat) ∧
    (∃ (tag ctx c ctr thr : Nat) (s : State) (x : Context), s.ownContext tag ctx = some x ∧ ∃ k, c < 2048 ∧ ctr < 256 ∧ thr <
      2 ^ 64 ∧ s.coreOf ctx c = some k ∧
      let v := (k.counters[(BitVec.ofNat 8 ctr).toFin]).value
      v.toNat < thr) ∧
    (∃ (tag ctx : Nat) (s : State) (x : Context), s.ownContext tag ctx = some x ∧ ∃ w, s.waits.find? (·.tag == tag) = some w
      ∧ w.deadline ≤ s.cycle) ∧
    (∃ (tag ctx : Nat) (s : State) (x : Context) (pairs : List (Nat × Nat)), s.ownContext tag ctx = some x ∧ pairs.length ≤
      64 ∧ (∀ p ∈ pairs, p.1 < 2048 ∧ p.2 < 256 ∧ (s.coreOf ctx p.1).isSome = true)) :=
  ⟨⟨1, 7, base, by decide +kernel⟩,
  ⟨1, 8, base, by decide +kernel⟩,
  ⟨8 * 2 ^ 32, 1, base, by decide +kernel⟩,
  ⟨tag7, 1, base, context1, by decide +kernel⟩,
  ⟨tag7, 1, words4 7 64 0 0, mapped, context1, by decide +kernel, _, _, by decide +kernel, by decide +kernel, rfl⟩,
  ⟨tag7, 1, words4 4096 0 0 0, base, context1, by decide +kernel⟩,
  ⟨tag7, 1, 255, words4 (2 ^ 52 + 3 * 2 ^ 41) 128 (2 ^ 17 + 3) 0, base, context1, by decide +kernel⟩,
  ⟨tag7, 1, 255, words4 (2 ^ 52 + 3 * 2 ^ 41) 128 (2 ^ 17 + 3) (2 ^ 16), base, context1, by decide +kernel⟩,
  ⟨tag7, 1, 4095, words4 65 (2 ^ 23) 0 0, base, context1, by decide +kernel⟩,
  ⟨tag7, 1, 4095, words4 65 (2 ^ 24) 0 0, base, context1, by decide +kernel⟩,
  ⟨tag7, 1, 7, 255, 9, counted, context1, by decide +kernel, counted.core 7, by decide +kernel, by decide +kernel, by
    decide +kernel, rfl, by decide +kernel⟩,
  ⟨tag7, 1, 7, 255, 10, counted, context1, by decide +kernel, counted.core 7, by decide +kernel, by decide +kernel, by
    decide +kernel, rfl, by decide +kernel⟩,
  ⟨tag7, 1, { base with waits := [⟨tag7, 1, 7, 255, 10, 5000⟩] }, context1, by decide +kernel, ⟨tag7, 1, 7, 255, 10, 5000⟩,
    by decide +kernel⟩,
  ⟨tag7, 1, counted, context1, List.replicate 64 (7, 255), by decide +kernel⟩⟩

/-- The hypotheses of each clause of DebugSessions can be met. -/
theorem witness_DebugSessions :
    (∃ (tag : Nat) (ctx : Nat) (level : Nat) (s : State), ∃ y, s.ownContext tag ctx = some y ∧ (level = 1 ∨ level = 2) ∧
      s.sealedCtx ctx = false ∧ s.sessions.length < 65535) ∧
    (∃ (level : Nat) (s : State), (level = 0 ∨ level = 3 ∧ s.lifecycle = .deployed)) ∧
    (∃ (tag ses : Nat) (s : State) (x : Session), (s.sessions.find? (fun y => y.id == ses && y.requester == tag / 2 ^ 32) =
      some x) ∧ x.notice = true) ∧
    (∃ (tag ses : Nat) (rect : Word) (s : State) (x : Session), halting s tag ses x ∧ s.sessionRect x rect = true ∧
      s.offCores x.ctx (rectCores rect) = []) ∧
    (∃ (tag ses : Nat) (rect : Word) (s : State) (x : Session), halting s tag ses x ∧ ∃ gap r n, s.agenda = .session gap ses
      :: r ∧ s.sessions.find? (·.id == ses) = some x ∧ x.sampleAt = none ∧ x.halting = [(n, rect, true)] ∧ s.offCores x.ctx
      (rectCores rect) = [] ∧ (∀ d ∈ s.haltCores x.ctx rect, (s.core d).haltQuick = true ∧ s.coreSettled d = true)) ∧
    (∃ (tag ses c a len : Nat) (s : State) (x : Session), halting s tag ses x ∧ ∃ k, c < 2048 ∧ len ≤ 4096 ∧ s.offCores x.ctx
      [c] = [] ∧ s.coreOf x.ctx c = some k ∧ a < 2 ^ 56 ∧ chipRegion a = 0 ∧ chipOffset a + len ≤ 0x80000) ∧
    (∃ (tag ses c a len : Nat) (s : State) (x : Session), halting s tag ses x ∧ ∃ k, c < 2048 ∧ len ≤ 4096 ∧ s.offCores x.ctx
      [c] = [] ∧ s.coreOf x.ctx c = some k ∧ a / 2 ^ 56 = 1) ∧
    (∃ (tag ses c a : Nat) (data : List (BitVec 8)) (s : State) (x : Session), halting s tag ses x ∧ data.length ≤ 4096 ∧ a <
      2 ^ 56 ∧ chipRegion a = 0 ∧ x.settled.contains c = true ∧ (s.core c).haltSettled ≠ none ∧ chipOffset a + data.length ≤
      0x80000 ∧ (s.core c).guardedBy (chipOffset a) data.length = none ∧ memoriesWf s) ∧
    (∃ (tag ses c a : Nat) (data : List (BitVec 8)) (s : State) (x : Session), halting s tag ses x ∧ data.length ≤ 4096 ∧ a <
      2 ^ 56 ∧ chipRegion a = 0 ∧ x.settled.contains c = false) ∧
    (∃ (tag ses c : Nat) (rect : Word) (s : State) (x : Session), halting s tag ses x ∧ s.sessions = [x] ∧ rectShape rect =
      true ∧ c ∈ x.quick ∧ rectHas rect c = true) ∧
    (∃ (tag ses : Nat) (s : State) (x : Session), halting s tag ses x ∧ x.sampleAt = none) :=
  ⟨⟨tag7, 1, 2, base, context1, by decide +kernel⟩,
  ⟨3, { base with lifecycle := .deployed }, by decide +kernel⟩,
  ⟨tag7, 4, debugged (session true []), session true [], by decide +kernel⟩,
  ⟨tag7, 4, scopeForm 4 0 7 0, debugged (session false []), session false [], by decide +kernel⟩,
  ⟨tag7, 4, scopeForm 7 0 7 0, halted7, asked7, by decide +kernel, 1, [], tag7, by decide +kernel⟩,
  ⟨tag7, 4, 7, 0x7FFFF, 1, debugged (session false []), session false [], by decide +kernel, (debugged (session false
    [])).core 7, by decide +kernel, by decide +kernel, by decide +kernel, rfl, by decide +kernel⟩,
  ⟨tag7, 4, 7, 2 ^ 56, 4096, debugged (session false [7]), session false [7], by decide +kernel,
    { idle 7 with haltSettled := some 4 }, by decide +kernel⟩,
  ⟨tag7, 4, 7, 0x7FFF8, [9], debugged (session false [7]), session false [7], by decide +kernel⟩,
  ⟨tag7, 4, 7, 0x7FFF8, [9], debugged (session false []), session false [], by decide +kernel⟩,
  ⟨tag7, 4, 7, scopeForm 7 0 7 0, debugged (session false []), session false [], by decide +kernel⟩,
  ⟨tag7, 4, debugged (session false []), session false [], by decide +kernel⟩⟩

/-- The hypotheses of each clause of DataAndCoresAreKept can be met. -/
theorem witness_DataAndCoresAreKept :
    (∃ (f : Nat) (s : State), ∃ y, s.parityDue.find? (·.id == f) = some y ∧ s.parityDue.find? (·.line == y.line) = some y ∧
      memoriesWf s ∧ y.line ∉ s.badLines ∧ y.line ∉ s.poisonLines) ∧
    (∃ (f : Nat) (s : State), ∃ y, s.parityDue.find? (·.id == f) = some y ∧ s.parityDue.find? (·.line == y.line) = some y ∧
      memoriesWf s ∧ y.line ∈ s.badLines ∧ s.stripeSound y.line = true) ∧
    (∃ (line : Nat) (s : State), inHbm (lineOf line) = true ∧ (lineOf line) ∈ s.weakLines ∧ (lineOf line) ∉ s.badLines) ∧
    (∃ (line : Nat) (s : State), inHbm (lineOf line) = true ∧ (lineOf line) ∈ s.badLines ∧ (lineOf line) ∉ s.weakLines ∧
      s.guarded (lineOf line) = true ∧ s.stripeSound (lineOf line) = true ∧ memoriesWf s ∧ (∀ y ∈ s.parityDue, y.line ≠
      parityLine (lineOf line))) ∧
    (∃ (line : Nat) (s : State), inHbm (lineOf line) = true ∧ ∃ m, (lineOf line) ∈ s.badLines ∧ (lineOf line) ∉ s.weakLines ∧
      s.guarded (lineOf line) = false ∧ s.cleanMirror (lineOf line) = some m ∧ m.lineFor (lineOf line) ∉ s.badLines ∧
      m.lineFor (lineOf line) ∉ s.poisonLines ∧ memoriesWf s) ∧
    (∃ (line : Nat) (s : State), inHbm (lineOf line) = true ∧ (lineOf line) ∈ s.badLines ∧ (lineOf line) ∉ s.weakLines ∧
      s.guarded (lineOf line) = false ∧ s.cleanMirror (lineOf line) = none) ∧
    (∃ (c word : Nat) (s : State), coreExists c = true ∧ word % 8 = 0 ∧ word ∈ (s.core c).poison ∧ memoriesWf s) ∧
    (∃ (g : Nat) (s : State), ∃ m u v bs late taken, s.mirrors.find? (·.granule == g) = some m ∧ s.readUnder none 0 (g * 2 ^
      16) (2 ^ 16) = (u, some (bs, late)) ∧ u.writeUnder none 0 m.cellar bs = (v, taken)) ∧
    (∃ (p : Nat) (s : State), p < 4096 ∧ p / 32 % 32 < 17 ∧ p ∉ s.retired ∧ s.logicalOf p = none) ∧
    (∃ (p : Nat) (s : State), p < 4096 ∧ p / 32 % 32 < 17 ∧ p ∉ s.retired ∧ ∃ idx, s.logicalOf p = some idx ∧
      let on := ((s.retireDue.find? (·.core == p)).bind (·.saving)).getD (s.onIndex p idx)
      (∀ j ∈ s.saveJobs, ∀ x ∈ on, x.1 ≠ j.ctx) ∧ (∃ x ∈ on, ∃ d ∈ x.2, s.stillLoaded x.1 d = true)) ∧
    (∃ (p : Nat) (s : State), p < 4096 ∧ p / 32 % 32 < 17 ∧ p ∉ s.retired ∧ ∃ idx, s.logicalOf p = some idx ∧
      let on := ((s.retireDue.find? (·.core == p)).bind (·.saving)).getD (s.onIndex p idx)
      (∀ j ∈ s.saveJobs, ∀ x ∈ on, x.1 ≠ j.ctx) ∧ (∀ x ∈ on, ∀ d ∈ x.2, s.stillLoaded x.1 d = false)) ∧
    (∃ (f : Nat) (p : Nat) (s : State), ∃ x r, due s f x ∧ x.body = .trap r ∧ s.trapEarlier f r.ctx = false ∧ r.words.length
      = 8 ∧
      let q := s.trapRing r.ctx
      (s.core q.1).isFull (q.2.1 + 64 * (q.2.2 % 256)) = false ∧ (wordAt r.words 0).field 0 8 = 0x29 ∧ (wordAt r.words
        0).field 32 16 ≠ 0 ∧ s.placeIn ((wordAt r.words 0).field 48 16) (if (wordAt r.words 1).bit 55 then (wordAt r.words
        2).field 48 11 else (wordAt r.words 5).field 0 11) = some p ∧ assocGet s.storeFaults p = none) ∧
    (∃ (f : Nat) (p : Nat) (s : State), ∃ x r, due s f x ∧ x.body = .trap r ∧ s.trapEarlier f r.ctx = false ∧ r.words.length
      = 8 ∧
      let q := s.trapRing r.ctx
      (s.core q.1).isFull (q.2.1 + 64 * (q.2.2 % 256)) = false ∧ (wordAt r.words 0).field 0 8 = 0x29 ∧ (wordAt r.words
        0).field 32 16 ≠ 0 ∧ s.placeIn ((wordAt r.words 0).field 48 16) (if (wordAt r.words 1).bit 55 then (wordAt r.words
        2).field 48 11 else (wordAt r.words 5).field 0 11) = some p ∧ ∃ first, assocGet s.storeFaults p = some first ∧
        s.cycle ≤ first + 24 * 3600 * 4000000000) ∧
    (∃ (c : Nat), c < 16 ∧ c ≠ 0) :=
  ⟨⟨3, { base with parityDue := [update] }, update, by decide +kernel⟩,
  ⟨3, { base with parityDue := [update], badLines := [update.line] }, update, by decide +kernel⟩,
  ⟨0x1000, { base with weakLines := [0x1000] }, by decide +kernel⟩,
  ⟨0x1000, { base with badLines := [0x1000], guards := [0] }, by decide +kernel⟩,
  ⟨0x20040, mirrored, by decide +kernel, ⟨2, 0x10000000000, true⟩, by decide +kernel⟩,
  ⟨0x1000, { base with badLines := [0x1000] }, by decide +kernel⟩,
  ⟨7, 0x7FFF8, on 7 { idle 7 with poison := [0x7FFF8] }, by decide +kernel⟩,
  ⟨2, copying, ⟨2, 0x10000000000, false⟩, _, _, _, _, _, by decide +kernel, sound_read copying_sound _ _ _, pair_parts _⟩,
  ⟨543, base, by decide +kernel⟩,
  ⟨0, on 0 (idle 0), by decide +kernel, by decide +kernel, by decide +kernel, 0, by decide +kernel⟩,
  ⟨0, replacing, by decide +kernel, by decide +kernel, by decide +kernel, 0, by decide +kernel⟩,
  ⟨5, 5, failed [], flight 2048 (.trap faulty), faulty, by decide +kernel⟩,
  by refine ⟨5, 5, failed [(5, 5000)], flight 2048 (.trap faulty), faulty, ?h12_1, ?h12_2, ?h12_3, ?h12_4, ?h12_5, ?h12_6,
    ?h12_7, ?h12_8, 5000, ?h12_9⟩ <;> decide +kernel,
  ⟨15, by decide +kernel⟩⟩

/-- The hypotheses of each clause of PowerAndManagement can be met. -/
theorem witness_PowerAndManagement :
    (∃ (c : Nat) (s : State),
      let k := s.core c
      c < 2048 ∧ k.power = .active ∧ k.hold = .none ∧ k.haltQuick = false ∧ k.idle = true ∧ (∀ n, n < 4 → (s.seat c
        n).lastIssue + 65536 ≤ s.cycle)) ∧
    (∃ (c : Nat) (s : State),
      let k := s.core c
      k.power = .parked) ∧
    (∃ (c : Nat) (s : State),
      let k := s.core c
      c < 2048 ∧ k.power ≠ .off ∧ (k.hold = .saved ∨ k.ctx = 0 ∧ k.hold = .none)) ∧
    (∃ (s : State), s.idle = false ∧ (∀ p ∈ s.cores, p.2.ctx = 0) ∧ s.requestAt + 4000000000 ≤ s.cycle) ∧
    (∃ (s : State), s.idle = true) ∧
    (∃ (cred : Nat) (s : State), s.lifecycle = .provisioning ∧ cred = Config.vendorCredential) ∧
    (∃ (v : Nat) (s : State), s.lifecycle = .provisioning ∧ v < 4096) ∧
    (∃ (s : State), s.lifecycle = .deployed) :=
  ⟨⟨7, parked .active .none, by decide +kernel⟩,
  ⟨7, parked .parked .none, by decide +kernel⟩,
  ⟨7, parked .parked .saved, by decide +kernel⟩,
  ⟨{ State.reset with cycle := 4000000000 }, by decide +kernel⟩,
  ⟨{ base with idle := true }, by decide +kernel⟩,
  ⟨Config.vendorCredential, base, by decide +kernel, rfl⟩,
  ⟨4095, base, by decide +kernel⟩,
  ⟨{ base with lifecycle := .deployed }, by decide +kernel⟩⟩

/-- The hypotheses of each clause of TheMatrixArrayWorks can be met. -/
theorem witness_TheMatrixArrayWorks :
    (∃ (c m : Nat) (s : State) (e : MatrixEntry),
      let k := s.core c
      ∃ tile ga gb fmt steps zf, queued s c m e true ∧ e.op = .mma tile ga gb fmt steps zf 0 ∧ unitFree s c e = true ∧
        stepReady k s.cycle e true = .go ∧ ga ≠ gb ∧ (k.ring ga).blocked = false ∧ (k.ring gb).blocked = false ∧ memberFault
        s [(c, e, true)] = none ∧ slotPoison k ga = none ∧ slotPoison k gb = none ∧ e.seat < 4) ∧
    (∃ (c m : Nat) (s : State) (e : MatrixEntry),
      let k := s.core c
      ∃ tile ga gb fmt steps zf, queued s c m e true ∧ e.op = .mma tile ga gb fmt steps zf 0 ∧ unitFree s c e = true ∧
        stepReady k s.cycle e true = .sleep ∧ e.seat < 4) ∧
    (∃ (c : Nat) (s : State) (e : MatrixEntry),
      let k := s.core c
      ∃ y tile ga gb fmt steps zf wc, k.mstep = some y ∧ y.endAt ≤ s.cycle ∧ k.matrix.find? (·.id == y.id) = some e ∧ e.op =
        .mma tile ga gb fmt steps zf wc ∧ e.seat < 4 ∧ memoriesWf s ∧
      let tileBytes := if fmt = 7 then 8192 else 4096
      k.poisonIn (0x90000 + 0x1000 * tile.toNat) tileBytes ≠ none ∧ c < 2048) ∧
    (∃ (c : Nat) (s : State) (e : MatrixEntry),
      let k := s.core c
      ∃ y tile ga gb fmt steps zf wc, k.mstep = some y ∧ y.endAt ≤ s.cycle ∧ k.matrix.find? (·.id == y.id) = some e ∧ e.op =
        .mma tile ga gb fmt steps zf wc ∧ e.seat < 4 ∧ memoriesWf s ∧
      let tileBytes := if fmt = 7 then 8192 else 4096
      k.poisonIn (0x90000 + 0x1000 * tile.toNat) tileBytes = none) ∧
    (∃ (c : Nat) (s : State) (e : MatrixEntry), ∃ ms, gangFront s c = some e ∧ ((gangCores c e.op.width).mapM (fun d =>
      (gangFront s d).map (fun f => (d, f))) = some ms) ∧ (ms.all (fun x => gangKey x.2.op == gangKey e.op) = true)) ∧
    (∃ (c : Nat) (s : State) (e : MatrixEntry), ∃ ms, gangFront s c = some e ∧ ((gangCores c e.op.width).mapM (fun d =>
      (gangFront s d).map (fun f => (d, f))) = some ms) ∧ (ms.all (fun x => gangKey x.2.op == gangKey e.op) = false) ∧ (∀ x ∈
      ms, x.1 < 2048 ∧ x.2.seat < 4)) ∧
    (∃ (c m : Nat) (s : State) (e : MatrixEntry),
      let k := s.core c
      queued s c m e false ∧ accReady k s.cycle e = true ∧ e.seat < 4 ∧ memoriesWf s ∧ ∃ tile, e.op = .accz tile) ∧
    (∃ (c m : Nat) (s : State) (e : MatrixEntry),
      let k := s.core c
      queued s c m e false ∧ accReady k s.cycle e = true ∧ e.seat < 4 ∧ memoriesWf s ∧ ∃ tile row val, e.op = .accwr tile row
        val) ∧
    (∃ (c m : Nat) (s : State) (e : MatrixEntry),
      let k := s.core c
      queued s c m e false ∧ accReady k s.cycle e = true ∧ e.seat < 4 ∧ memoriesWf s ∧ ∃ tile scale, e.op = .accscl tile
        scale ∧ k.poisonIn (0x90000 + 0x1000 * tile.toNat) 4096 = none) ∧
    (∃ (c m : Nat) (s : State) (e : MatrixEntry),
      let k := s.core c
      queued s c m e false ∧ accReady k s.cycle e = true ∧ e.seat < 4 ∧ memoriesWf s ∧ ∃ tile row r, e.op = .accrd tile row ∧
        k.poisonIn (0x90000 + 0x1000 * tile.toNat + 128 * row.toNat) 128 = none ∧ r ∈ (s.seat c e.seat).results ∧ r.waits =
        m) ∧
    (∃ (c n : Nat) (s : State),
      let k := s.core c
      ∃ a, k.subs[n]? = some a ∧ a.awake = true ∧ a.idleSince + a.idle ≤ s.cycle ∧ k.mstep = none) ∧
    (∃ (c n : Nat) (s : State),
      let k := s.core c
      ∃ a, k.subs[n]? = some a ∧ ∃ w, a.wakeAt = some w ∧ w ≤ s.cycle) ∧
    (∃ (c : Nat) (s : State),
      let k := s.core c
      ∃ l rest, k.cbPending = l :: rest ∧ l.started = false ∧ (∀ y ∈ k.matrix, y.op.fmt ≠ 14 ∨ y.op.isStep = false ∨ l.issued
        ≤ y.id)) ∧
    (∃ (c : Nat) (s : State),
      let k := s.core c
      ∃ l rest, k.cbPending = l :: rest ∧ l.started = true ∧ l.dueAt ≤ s.cycle) :=
  ⟨⟨3, 6, on 3 (matrixCore 3 [mma 6 1 0]), mma 6 1 0, 15, 1, 2, 0, 1, false, by decide +kernel⟩,
  ⟨3, 6, on 3 { matrixCore 3 [mma 6 1 0] with subs := subs false 8 }, mma 6 1 0, 15, 1, 2, 0, 1, false, by decide +kernel⟩,
  ⟨3, on 3 { matrixCore 3 [mma 6 2 0] with mstep := some running8, poison := [0x9FFF8] }, mma 6 2 0, running8, 15, 1, 2, 0,
    2, false, 0, by decide +kernel⟩,
  ⟨3, on 3 { matrixCore 3 [mma 6 2 0] with mstep := some running8 }, mma 6 2 0, running8, 15, 1, 2, 0, 2, false, 0, by
    decide +kernel⟩,
  ⟨3, gang 1, mma 7 1 1, [(2, mma 6 1 1), (3, mma 7 1 1)], by decide +kernel⟩,
  ⟨3, gang 2, mma 7 2 1, [(2, mma 6 1 1), (3, mma 7 2 1)], by decide +kernel⟩,
  by refine ⟨3, 6, on 3 (matrixCore 3 [accumulator (.accz 15)]), accumulator (.accz 15), ?h6_1, ?h6_2, ?h6_3, ?h6_4, 15,
    ?h6_5⟩ <;> decide +kernel,
  by refine ⟨3, 6, on 3 (matrixCore 3 [accumulator (.accwr 15 31 7)]), accumulator (.accwr 15 31 7), ?h7_1, ?h7_2, ?h7_3,
    ?h7_4, 15, 31, 7, ?h7_5⟩ <;> decide +kernel,
  by refine ⟨3, 6, on 3 (matrixCore 3 [accumulator (.accscl 15 7)]), accumulator (.accscl 15 7), ?h8_1, ?h8_2, ?h8_3, ?h8_4,
    15, 7, ?h8_5⟩ <;> decide +kernel,
  by refine ⟨3, 6, reading, accumulator (.accrd 15 15), ?h9_1, ?h9_2, ?h9_3, ?h9_4, 15, 15, awaited, ?h9_5⟩ <;>
    decide +kernel,
  ⟨3, 3, on 3 { idle 3 with subs := subs true 8 }, { awake := true, wakeAt := none, idle := 8, idleSince := 4992 }, by
    decide +kernel⟩,
  ⟨3, 3, on 3 { idle 3 with subs := subs false 8 }, { awake := false, wakeAt := some 5000, idle := 8, idleSince := 4992 }, by
    decide +kernel, 5000, by decide +kernel⟩,
  ⟨3, codebooks false, codebook false, [], by decide +kernel⟩,
  ⟨3, codebooks true, codebook true, [], by decide +kernel⟩⟩

/-- The hypotheses of each clause of LiteralsAreWritten can be met. -/
theorem witness_LiteralsAreWritten :
    (∃ tl, tl < 4 ∧ tl ≠ 2) ∧
    (∃ (d : BitVec 6) (s : State), s.me.pendingHeld d = false ∧ s.me.pending d = true) ∧
    (∃ (sw : Bool) (d : BitVec 6) (s : State),
      let head (tl maj : Nat) : Nat := sw.toNat * 2 ^ 15 + tl * 2 ^ 13 + maj * 2 ^ 6 + d.toNat
      ∃ w, fetchAt s.here s.me.regs.pc = .words w ∧ w.head = head 0 0x20 ∧ canIssue s.here s.me s.cycle = true ∧
        s.here.slotFor s.cycle s.curSeat = true ∧ s.me.conflict = false ∧ s.me.overBudget s.cycle = false ∧ s.me.count ≠ 512) :=
  ⟨⟨3, by decide +kernel⟩,
  ⟨63, on 3 (core 3 { seat 3 [] with deferred := [{ reg := .x 63, unit := .blockQueue, tag := 9, old := false }] }), by
    decide +kernel⟩,
  ⟨false, 1, short, ⟨0x0801, 0⟩, rfl, by decide +kernel⟩⟩

/-- The hypotheses of SelectionMovesLanes can be met. -/
theorem witness_SelectionMovesLanes :
    ∃ (fmt : BitVec 4) (s : State), fmt.toNat ≤ 14 ∧ formatOk s fmt :=
  ⟨14, on 3 { core 3 (seat 3 []) with cbValid := true }, by decide +kernel⟩

/-- The hypotheses of I8StepsWrap can be met. -/
theorem witness_I8StepsWrap :
    ∃ (c : CoreId) (s : State) (e : MatrixEntry) (y : MatrixStep) (tile : BitVec 4) (ga gb : BitVec 3) (steps : Nat) (zf :
      Bool) (wc : Nat),
      let k := s.core c
      k.mstep = some y ∧ y.endAt ≤ s.cycle ∧ k.matrix.find? (·.id == y.id) = some e ∧ e.op = .mma tile ga gb 0 steps zf wc ∧
        e.seat < 4 ∧ y.fmtA = 1 ∧ y.fmtB = 1 ∧ y.a.length = 2048 ∧ y.b.length = 2048 ∧ memoriesWf s ∧ k.poisonIn (0x90000 +
        0x1000 * tile.toNat) 4096 = none :=
  ⟨3, on 3 { matrixCore 3 [mma 6 2 0] with mstep := some running8 }, mma 6 2 0, running8, 15, 1, 2, 2, false, 0, by
    decide +kernel⟩

/-- The hypotheses of each clause of SpecialTermsDecideACell can be met. -/
theorem witness_SpecialTermsDecideACell :
    (∃ (fmt acc : Nat) (a b : List Val), fmt ≠ 0 ∧ fmt ≠ 7 ∧
      let old := decodeFp f32 acc
      let ps := a.zip b
      let infinite (n : Bool) : Prop := old = .inf n ∨ ∃ p ∈ ps, p.1.times p.2 = .inf n
      let nan : Prop := old.isNan = true ∨ ∃ p ∈ ps, (p.1.times p.2).isNan = true ∨ zeroByInf p.1 p.2
      (nan ∨ (infinite true ∧ infinite false))) ∧
    (∃ (fmt acc : Nat) (a b : List Val), fmt ≠ 0 ∧ fmt ≠ 7 ∧
      let old := decodeFp f32 acc
      let ps := a.zip b
      let infinite (n : Bool) : Prop := old = .inf n ∨ ∃ p ∈ ps, p.1.times p.2 = .inf n
      let nan : Prop := old.isNan = true ∨ ∃ p ∈ ps, (p.1.times p.2).isNan = true ∨ zeroByInf p.1 p.2
      ¬ nan ∧ ¬ (infinite true ∧ infinite false) ∧ infinite false) ∧
    (∃ (fmt acc : Nat) (a b : List Val), fmt ≠ 0 ∧ fmt ≠ 7 ∧
      let old := decodeFp f32 acc
      let ps := a.zip b
      let infinite (n : Bool) : Prop := old = .inf n ∨ ∃ p ∈ ps, p.1.times p.2 = .inf n
      let nan : Prop := old.isNan = true ∨ ∃ p ∈ ps, (p.1.times p.2).isNan = true ∨ zeroByInf p.1 p.2
      ¬ nan ∧ ¬ (infinite true ∧ infinite false) ∧ infinite true) :=
  ⟨⟨1, 0x7FC00000, [], [], by decide +kernel, by decide +kernel, .inl (.inl (by decide +kernel))⟩,
  ⟨1, 0x7F800000, [], [], by decide +kernel, by decide +kernel, no_nan (by decide +kernel), by decide +kernel⟩,
  ⟨14, 0xFF800000, [], [], by decide +kernel, by decide +kernel, no_nan (by decide +kernel), by decide +kernel⟩⟩

/-- The hypotheses of each clause of ClaimsStopAtTheBound can be met. -/
theorem witness_ClaimsStopAtTheBound :
    (∃ (k : Counter),
      let bound := k.early * 2 ^ 20 + k.next
      k.mode = 2 ∧ k.value.toNat < bound) ∧
    (∃ (k : Counter),
      let bound := k.early * 2 ^ 20 + k.next
      k.mode = 2 ∧ bound ≤ k.value.toNat) ∧
    (∃ (k : Counter), k.mode ≠ 2) :=
  ⟨⟨bounded 1, by decide +kernel⟩,
  ⟨bounded 2, by decide +kernel⟩,
  ⟨⟨0, 0⟩, by decide +kernel⟩⟩

/-- The hypotheses of DecodingReadsTheEncoding can be met. -/
theorem witness_DecodingReadsTheEncoding :
    ∃ (i : Instr), i.wf = true ∧ i.isEvent = false :=
  ⟨.nop false, by decide +kernel⟩

/-- The hypotheses of WordsHaveOneMeaning can be met. -/
theorem witness_WordsHaveOneMeaning :
    ∃ (h t : Nat) (i : Instr), h < 2 ^ 16 ∧ t < 2 ^ (16 * tailHalfwords (h / 2 ^ 13 % 4)) ∧ decode h t = .ok i :=
  ⟨0x8300, 0, .chunk true, by decide +kernel, by decide +kernel, rfl⟩

/-- The hypotheses of each clause of AStepRunsTheDecodedInstruction can be met. -/
theorem witness_AStepRunsTheDecodedInstruction :
    (∃ (s : State) (r : List Turn) (gap : Nat) (c : CoreId) (n : Nat), s.agenda = .issue gap c n :: r ∧ coreExists c = true ∧
      seatExists n = true ∧
      let u := atTurn s r gap c n
      canIssue u.here u.me u.cycle = true ∧ u.here.slotFor u.cycle n = true ∧ u.me.conflict = false ∧ u.me.overBudget u.cycle
        = false ∧ u.me.count ≠ 512 ∧ ∃ w, fetchAt u.here u.me.regs.pc = .words w ∧ ∃ i, decode w.head w.tail = .ok i ∧ gate
        u.me w i = .go) ∧
    (∃ (s : State) (r : List Turn) (gap : Nat) (c : CoreId) (n : Nat), s.agenda = .issue gap c n :: r ∧ coreExists c = true ∧
      seatExists n = true ∧
      let u := atTurn s r gap c n
      canIssue u.here u.me u.cycle = true ∧ u.here.slotFor u.cycle n = true ∧ u.me.conflict = false ∧ u.me.overBudget u.cycle
        = false ∧ u.me.count ≠ 512 ∧ ∃ w, fetchAt u.here u.me.regs.pc = .words w ∧ ∃ e, decode w.head w.tail = .error e) ∧
    (∃ (s : State) (r : List Turn) (gap : Nat), ∃ e, s.agenda = .event gap e :: r ∧ e.isEvent = true) :=
  ⟨by refine ⟨turning, [], 1, 3, 0, rfl, ?h0_1, ?h0_2, ?h0_3, ?h0_4, ?h0_5, ?h0_6, ?h0_7, ⟨1, 0⟩, ?h0_8, .nop false, rfl,
    ?h0_9⟩ <;> decide +kernel,
  by refine ⟨lost, [], 1, 3, 0, rfl, ?h1_1, ?h1_2, ?h1_3, ?h1_4, ?h1_5, ?h1_6, ?h1_7, ⟨0x03C0, 0⟩, ?h1_8, .reservedMajor,
    rfl⟩ <;> decide +kernel,
  ⟨{ base with agenda := [.event 1 (.droopEvent 3)] }, [], 1, .droopEvent 3, rfl, by decide +kernel⟩⟩

/-- The hypotheses of TheMachineGoesOn can be met. -/
theorem witness_TheMachineGoesOn :
    ∃ (s : State), (∀ gap c n r, s.agenda = .issue gap c n :: r → coreExists c = true ∧ seatExists n = true) :=
  ⟨turning, turning_exists⟩

/-- The hypotheses of EveryStepKeepsTheMemories can be met. -/
theorem witness_EveryStepKeepsTheMemories :
    ∃ (s t : State), memoriesWf s ∧ step s = .next t :=
  ⟨turning, _, by decide +kernel, rfl⟩

/-- The hypotheses of ResetLeavesTheMachine can be met. -/
theorem witness_ResetLeavesTheMachine :
    ∃ (c n i : Nat), c < 2048 ∧ n < 4 ∧ i < 256 :=
  ⟨2047, 3, 255, by decide +kernel⟩

/-- A record of a task, with some work on the list of the core it comes to. -/
def taskTo (n : Nat) : State := arriving { idle 3 with work := List.replicate n (rec 0) } 3 (.record (rec (2 ^ 48)))

/-- The cases of a record's coming in RecordsAndTheLarder can be met: a task's with room on the work list and without, and another. -/
theorem witness_RecordsAndTheLarder_joins :
    (∃ (x : Flight) (s : State) (r : Record), arrives s 5 x ∧ x.body = .record r ∧ s.nackBefore x = false ∧
      r.w0.getLsbD 48 = true ∧ isHall x.dst = false ∧ (s.core x.dst).work.length < 32) ∧
    (∃ (x : Flight) (s : State) (r : Record), arrives s 5 x ∧ x.body = .record r ∧ s.nackBefore x = false ∧
      r.w0.getLsbD 48 = true ∧ isHall x.dst = false ∧ 32 ≤ (s.core x.dst).work.length) ∧
    (∃ (x : Flight) (s : State) (r : Record), arrives s 5 x ∧ x.body = .record r ∧ s.nackBefore x = false ∧
      r.w0.getLsbD 48 = false) :=
  ⟨⟨flight 3 (.record (rec (2 ^ 48))), taskTo 31, rec (2 ^ 48), rfl, rfl, by decide, by decide +kernel, rfl, by decide⟩,
   ⟨flight 3 (.record (rec (2 ^ 48))), taskTo 32, rec (2 ^ 48), rfl, rfl, by decide, by decide +kernel, rfl, by decide⟩,
   ⟨flight 3 (.record (rec 0)), arriving (idle 3) 3 (.record (rec 0)), rec 0, rfl, rfl, by decide, by decide +kernel⟩⟩

/-- The cases of a message in SeatsTakeWork can be met: its handler has an entry, or none. -/
theorem witness_SeatsTakeWork_message :
    (∃ (s : State) (pc : BitVec 48), idleSeat s 3 3 ∧ (s.core 3).msgq = [message1] ∧ (s.core 3).tookMsg = false ∧
      s.entryPc (message1.record 3) = some pc) ∧
    (∃ (s : State), idleSeat s 3 3 ∧ (s.core 3).msgq = [message1] ∧ (s.core 3).tookMsg = false ∧
      s.entryPc (message1.record 3) = none) :=
  ⟨⟨{ on 3 { idle 3 with msgq := [message1] } with launches := [launch2] }, 128, by decide +kernel, rfl, rfl, by decide +kernel⟩,
   ⟨on 3 { idle 3 with msgq := [message1] }, by decide +kernel, rfl, rfl, by decide +kernel⟩⟩

/-- The cases of a record from the ready list in SeatsTakeWork can be met: it has an entry, or none. -/
theorem witness_SeatsTakeWork_readied :
    (∃ (s : State) (r : Record) (pc : BitVec 48), idleSeat s 3 3 ∧ (s.core 3).msgq = [] ∧
      s.readyFor 3 3 = some r ∧ s.entryPc r = some pc) ∧
    (∃ (s : State) (r : Record), idleSeat s 3 3 ∧ (s.core 3).msgq = [] ∧
      s.readyFor 3 3 = some r ∧ s.entryPc r = none) :=
  ⟨⟨on 3 { idle 3 with ready := [rec 0] }, rec 0, 64, by decide +kernel, rfl, by decide +kernel, by decide +kernel⟩,
   ⟨on 3 { idle 3 with ready := [{ rec 0 with w0 := 2 ^ 63 }] }, { rec 0 with w0 := 2 ^ 63 }, by decide +kernel, rfl, by decide +kernel, by decide +kernel⟩⟩

/-- Both cases of TrapTakesTheException can be met: a compute core with a ticket free, and a hall core outside its service. -/
theorem witness_TrapTakesTheException :
    (∃ s : State, s.curCore < 2048 ∧ s.curSeat < 4 ∧ s.tickets.length < 65535) ∧
    (∃ s : State, 2048 ≤ s.curCore ∧ s.curSeat < 4 ∧ s.me.hallSnap.service = false) :=
  ⟨⟨at3 [], by decide +kernel, by decide +kernel, by decide +kernel⟩, ⟨hall [], by decide +kernel, by decide +kernel, rfl⟩⟩

/-- Both cases of PointersAddAndKeepTheirTags can be met: the sum stays in 52 bits, or leaves them. -/
theorem witness_PointersAddAndKeepTheirTags_sum :
    (∃ (s : State) (b c : BitVec 6), let a : Int := (((s.x b).toNat % 2 ^ 52 : Nat) : Int) + (s.x c).toInt; 0 ≤ a ∧ a < 2 ^ 52) ∧
    (∃ (s : State) (b c : BitVec 6), let a : Int := (((s.x b).toNat % 2 ^ 52 : Nat) : Int) + (s.x c).toInt; a < 0 ∨ 2 ^ 52 ≤ a) :=
  ⟨⟨at3 [(5, 2 ^ 52 - 2), (6, 1)], 5, 6, by decide +kernel⟩, ⟨at3 [(5, 2 ^ 52 - 1), (6, 1)], 5, 6, by decide +kernel⟩⟩

end Sys2Proof.Tests
end

section
/-!
# Proofs: lists, bytes and the operations that the events of translation, the rafters and the horizon share
-/
namespace Sys2Proof.Machine

/-! ### Lists -/

/-- The first element that meets p has f applied, where f keeps p. -/
theorem find?_mapFirst {α : Type} (p : α → Bool) (f : α → α) (l : List α) (x : α) (h : l.find? p = some x)
    (hf : p (f x) = true) : (mapFirst p f l).find? p = some (f x) := by
  induction l with
  | nil => cases h
  | cons y r ih =>
    cases hy : p y with
    | true =>
      obtain rfl : y = x := by simpa [hy] using h
      simp [mapFirst, hy, hf]
    | false =>
      have hr : r.find? p = some x := by simpa [hy] using h
      simp [mapFirst, hy, ih hr]

@[simp] theorem assocGet_assocSet {α β : Type} [DecidableEq α] (l : List (α × β)) (k : α) (v : β) :
    assocGet (assocSet l k v) k = some v := by
  induction l with
  | nil => simp [assocSet, assocGet]
  | cons p r ih => by_cases h : p.1 = k <;> simp [assocSet, assocGet, h, ih]

theorem mem_insertSorted (a x : Nat) (l : List Nat) : x ∈ insertSorted a l ↔ x = a ∨ x ∈ l := by
  induction l with
  | nil => simp [insertSorted]
  | cons b r ih =>
    unfold insertSorted
    split
    · simp
    · split
      · next e => simp [e]
      · simp only [List.mem_cons, ih]
        exact or_left_comm

/-- Inserting the multiples of 8 of a list adds these and no more. -/
theorem mem_foldl_insertSorted (l acc : List Nat) (x : Nat) :
    x ∈ l.foldl (fun l w => insertSorted (8 * w) l) acc ↔ x ∈ acc ∨ ∃ w ∈ l, x = 8 * w := by
  induction l generalizing acc with
  | nil => simp
  | cons w r ih =>
    rw [List.foldl_cons, ih, mem_insertSorted]
    simp only [List.mem_cons, exists_eq_or_imp, or_assoc]
    exact or_left_comm

theorem mem_run (lo n x : Nat) : x ∈ run lo n ↔ lo ≤ x ∧ x < lo + n := by
  simp only [run, List.mem_map, List.mem_range]
  constructor
  · rintro ⟨i, hi, rfl⟩
    omega
  · rintro ⟨h1, h2⟩
    exact ⟨x - lo, by omega, by omega⟩

/-! ### Bytes and words -/

@[simp] theorem length_natToBytes (n v : Nat) : (natToBytes n v).length = n := by
  induction n generalizing v with
  | zero => rfl
  | succ n ih => simp [natToBytes, ih]

/-- Bytes of a number stand for it, as far as they reach. -/
theorem bytesToNat_natToBytes (n v : Nat) : bytesToNat (natToBytes n v) = v % 256 ^ n := by
  induction n generalizing v with
  | zero => simp [natToBytes, bytesToNat, Nat.mod_one]
  | succ n ih =>
    rw [natToBytes, bytesToNat, ih, BitVec.toNat_ofNat, Nat.pow_succ' (n := n) (m := 256), Nat.mod_mul]

@[simp] theorem length_wordBytes (w : Word) : (wordBytes w).length = 8 := length_natToBytes 8 _

theorem ofNat_bytesToNat_wordBytes (w : Word) : BitVec.ofNat 64 (bytesToNat (wordBytes w)) = w := by
  apply BitVec.eq_of_toNat_eq
  have hw := w.isLt
  rw [wordBytes, bytesToNat_natToBytes, BitVec.toNat_ofNat]
  omega

/-- The eight bytes of word n of a list of words. -/
theorem take_drop_flatMap_wordBytes (l : List Word) (n : Nat) (h : n < l.length) :
    ((l.flatMap wordBytes).drop (8 * n)).take 8 = wordBytes l[n] := by
  induction l generalizing n with
  | nil => simp at h
  | cons w r ih =>
    cases n with
    | zero => simp
    | succ n =>
      have hn : n < r.length := by simpa using h
      have hd : (wordBytes w).drop (8 * (n + 1)) = [] := List.drop_eq_nil_of_le (by rw [length_wordBytes]; omega)
      have hs : 8 * (n + 1) - (wordBytes w).length = 8 * n := by rw [length_wordBytes]; omega
      rw [List.flatMap_cons, List.drop_append, hd, hs, List.nil_append, ih n hn, List.getElem_cons_succ]

theorem length_flatMap_wordBytes (l : List Word) : (l.flatMap wordBytes).length = 8 * l.length := by
  induction l with
  | nil => rfl
  | cons w r ih =>
    simp only [List.flatMap_cons, List.length_append, length_wordBytes, ih, List.length_cons]
    omega

@[simp] theorem Mem.length_bytes (m : Mem) (a n : Nat) : (m.bytes a n).length = n := by
  simp only [Mem.bytes, run, List.length_map, List.length_range]

/-- Words written from an address up read back one by one. -/
theorem Mem.word_write_words (m : Mem) (a : Nat) (l : List Word) (n : Nat) (hm : m.wf = true) (h : n < l.length) :
    (m.write a (l.flatMap wordBytes)).word (a + 8 * n) = l[n] := by
  have hlen := length_flatMap_wordBytes l
  have hb : (m.write a (l.flatMap wordBytes)).bytes (a + 8 * n) 8 = wordBytes l[n] := by
    rw [← take_drop_flatMap_wordBytes l n h]
    refine List.ext_getElem (by rw [Mem.length_bytes, List.length_take, List.length_drop]; omega) fun i hi _ => ?_
    rw [Mem.length_bytes] at hi
    have hat : a + 8 * n + i = a + (8 * n + i) := by omega
    simp only [Mem.bytes, run, List.getElem_map, List.getElem_range, List.getElem_take, List.getElem_drop, hat]
    exact Mem.get_write_inside m a _ _ hm (by omega)
  rw [Mem.word, hb, ofNat_bytesToNat_wordBytes]

/-- The words that are full after an engine write: those that were, and those that it touches (R212). -/
theorem Core.isFull_fillWords (k : Core) (a n x : Nat) :
    (k.fillWords a n).isFull x = true ↔
      k.isFull x = true ∨ ∃ w, a / 8 ≤ w ∧ w < a / 8 + ((a + n + 7) / 8 - a / 8) ∧ x = 8 * w := by
  simp only [Core.isFull, Core.fillWords, List.contains_iff_mem, mem_foldl_insertSorted, mem_run, and_assoc]

/-! ### What a read of device memory leaves unchanged -/

/-- The state with the device memory and its error records of another. -/
def State.withDevice (s t : State) : State :=
  { s with dram := t.dram, badLines := t.badLines, poisonLines := t.poisonLines, weakLines := t.weakLines,
           errlogs := t.errlogs, parityDue := t.parityDue, mirrors := t.mirrors }

/-- t differs from s in device memory and its error records alone. -/
def DeviceOnly (s t : State) : Prop := t = s.withDevice t

namespace DeviceOnly

theorem refl (s : State) : DeviceOnly s s := rfl

theorem trans {s t u : State} (h : DeviceOnly s t) (g : DeviceOnly t u) : DeviceOnly s u :=
  Eq.trans g (by rw [h]; rfl)

theorem foldl {α : Type} (f : State → α → State) (hf : ∀ s a, DeviceOnly s (f s a)) (l : List α) (s : State) :
    DeviceOnly s (l.foldl f s) := by
  induction l generalizing s with
  | nil => exact refl s
  | cons a r ih => exact (hf s a).trans (ih (f s a))

theorem logError (s : State) (line kind vf : Nat) : DeviceOnly s (s.logError line kind vf) := rfl

theorem setLine (s : State) (line : Nat) (bs : List Byte) : DeviceOnly s (s.setLine line bs) := rfl

theorem poisonLine (s : State) (vf line : Nat) : DeviceOnly s (s.poisonLine vf line) := rfl

theorem foldParity (s : State) (u : ParityUpdate) : DeviceOnly s (s.foldParity u) := by
  unfold State.foldParity
  dsimp only
  split <;> rfl

theorem settleParity (s : State) (line : Nat) : DeviceOnly s (s.settleParity line) := by
  refine foldl _ (fun t u => ?_) _ s
  split
  · exact foldParity t u
  · exact refl t

theorem correct (s : State) (vf : Nat) (lines : List Nat) : DeviceOnly s (s.correct vf lines) :=
  trans (t := { s with weakLines := s.weakLines.filter (fun l => !(lines.filter s.weakLines.contains).contains l) }) rfl
    (foldl _ (fun t l => logError t l 0 vf) _ _)

theorem mendLine (s : State) (vf line : Nat) : DeviceOnly s (s.mendLine vf line) := by
  unfold State.mendLine
  split
  · exact (((settleParity s line).trans (correct _ vf _)).trans (setLine _ line _)).trans (logError _ line _ vf)
  · split
    · dsimp only
      split
      · exact poisonLine s vf line
      · split
        · exact (poisonLine s vf _).trans (poisonLine _ vf line)
        · exact ((correct s vf _).trans (setLine _ line _)).trans (logError _ line 2 vf)
    · exact poisonLine s vf line

theorem mend (s : State) (vf : Nat) (lines : List Nat) : DeviceOnly s (s.mend vf lines).1 :=
  foldl _ (fun t l => mendLine t vf l) _ s

theorem dramRead (s : State) (vf pa n : Nat) : DeviceOnly s (s.dramRead vf pa n).1 := by
  have h := (correct s vf (dramLines pa n)).trans (mend _ vf (dramLines pa n))
  unfold State.dramRead State.readUnder
  dsimp only
  split <;> exact h

theorem readTables (s : State) (vf : Nat) (reads : List Nat) : DeviceOnly s (s.readTables vf reads) :=
  foldl _ (fun t a => dramRead t vf a 8) _ s

theorem cores {s t : State} (h : DeviceOnly s t) : t.cores = s.cores := by rw [h]; rfl

theorem core {s t : State} (h : DeviceOnly s t) (c : CoreId) : t.core c = s.core c := by
  rw [State.core, State.core, h.cores]

end DeviceOnly

/-! ### What a translation and a walk leave unchanged -/

/-- t differs from s in no more than what a translation or a walk touches: its caches, and device memory as its reads leave it.
Time, functions, contexts, launches, hall threads, and each core beside its cache, are as they were. -/
structure CachesOnly (s t : State) : Prop where
  cycle : t.cycle = s.cycle
  vfs : t.vfs = s.vfs
  contexts : t.contexts = s.contexts
  launches : t.launches = s.launches
  runQueue : t.runQueue = s.runQueue
  core : ∀ c, ∃ l, t.core c = { s.core c with tlb := l }

namespace CachesOnly

variable {s t u : State}

theorem ofCores (cycle : t.cycle = s.cycle) (vfs : t.vfs = s.vfs) (contexts : t.contexts = s.contexts)
    (launches : t.launches = s.launches) (runQueue : t.runQueue = s.runQueue) (cores : t.cores = s.cores) : CachesOnly s t where
  cycle := cycle
  vfs := vfs
  contexts := contexts
  launches := launches
  runQueue := runQueue
  core c := ⟨(s.core c).tlb, by rw [State.core, State.core, cores]⟩

theorem refl (s : State) : CachesOnly s s := ofCores rfl rfl rfl rfl rfl rfl

theorem trans (h : CachesOnly s t) (g : CachesOnly t u) : CachesOnly s u where
  cycle := g.cycle.trans h.cycle
  vfs := g.vfs.trans h.vfs
  contexts := g.contexts.trans h.contexts
  launches := g.launches.trans h.launches
  runQueue := g.runQueue.trans h.runQueue
  core c := by
    obtain ⟨l, hl⟩ := h.core c
    obtain ⟨m, hm⟩ := g.core c
    exact ⟨m, by rw [hm, hl]⟩

theorem ofDevice (h : DeviceOnly s t) : CachesOnly s t := by
  rw [h]
  exact ofCores rfl rfl rfl rfl rfl rfl

theorem setWalks (s : State) (l : List Walk) : CachesOnly s { s with walks := l } := ofCores rfl rfl rfl rfl rfl rfl

theorem tick (s : State) : CachesOnly s s.tick := ofCores rfl rfl rfl rfl rfl rfl

theorem fillDie (s : State) (c : CoreId) (es : List TlbEntry) : CachesOnly s (s.fillDie c es) :=
  ofCores rfl rfl rfl rfl rfl rfl

theorem fillCore (s : State) (c : CoreId) (e : TlbEntry) : CachesOnly s (s.fillCore c e) where
  cycle := rfl
  vfs := rfl
  contexts := rfl
  launches := rfl
  runQueue := rfl
  core d := by
    by_cases h : c = d
    · subst h
      exact ⟨_, State.core_setCore s c _⟩
    · exact ⟨(s.core d).tlb, State.core_setCore_ne s c d _ h⟩

theorem takeLeaf (s : State) (c : CoreId) (ctx va : Nat) (w : WalkEnd) : CachesOnly s (s.takeLeaf c ctx va w) := by
  unfold State.takeLeaf
  split
  · exact fillCore s c _
  · exact refl s

theorem translate (s : State) (c : CoreId) (ctx va access : Nat) : CachesOnly s (s.translate c ctx va access).1 := by
  unfold State.translate
  dsimp only
  split
  · exact refl s
  · split
    · exact refl s
    · split
      · exact fillCore s c _
      · exact refl s

theorem tableWalk (s : State) (vf va : Nat) (start : Nat × List Nat) : CachesOnly s (s.tableWalk vf va start).1 :=
  (ofDevice (DeviceOnly.readTables s vf _)).trans (tick _)

theorem endWalk (s : State) (c : CoreId) (ctx va : Nat) : CachesOnly s (s.endWalk c ctx va).1 :=
  (tableWalk s _ va _).trans (fillDie _ c _)

theorem vfOf (h : CachesOnly s t) (ctx : Nat) : t.vfOf ctx = s.vfOf ctx := by
  unfold State.vfOf State.context
  rw [h.contexts]

theorem cipherLag (h : CachesOnly s t) (vf : Nat) : t.cipherLag vf = s.cipherLag vf := by
  unfold State.cipherLag State.vfKey
  rw [h.vfs]

theorem lines (h : CachesOnly s t) (c : CoreId) : (t.core c).lines = (s.core c).lines := by
  obtain ⟨l, hl⟩ := h.core c
  rw [hl]

theorem lineWait (h : CachesOnly s t) (c : CoreId) (n : Nat) : (t.core c).lineWait n = (s.core c).lineWait n := by
  obtain ⟨l, hl⟩ := h.core c
  rw [hl]
  rfl

theorem packetAt (h : CachesOnly s t) (c e p : Nat) : t.packetAt c e p = s.packetAt c e p := by
  obtain ⟨l, hl⟩ := h.core c
  unfold State.packetAt
  rw [hl]

theorem seat (h : CachesOnly s t) (c : CoreId) (n : Nat) : t.seat c n = s.seat c n := by
  obtain ⟨l, hl⟩ := h.core c
  unfold State.seat
  rw [hl]
  rfl

theorem codeCtx (h : CachesOnly s t) (c : CoreId) (n : Nat) : t.codeCtx c n = s.codeCtx c n := by
  obtain ⟨l, hl⟩ := h.core c
  unfold State.codeCtx State.ctxOf State.thread State.launch
  rw [h.seat, h.runQueue, h.launches, hl]

end CachesOnly

end Sys2Proof.Machine
end

section
/-!
# Proofs: lines, walks, rafters rounds and horizon reductions (O36)
-/
namespace Sys2Proof.Machine

/-! ### Code lines -/

theorem exec_lineFetch (c k : Nat) (s : State) : exec (.lineFetch c k) s = execLineFetch c k s := rfl

theorem Core.lineWait_seat {k : Core} {n : Nat} {w : LineWait} (h : k.lineWait n = some w) : w.seat = n := by
  simpa using List.find?_some h

@[simp] theorem State.lines_lineDue (s : State) (c : CoreId) (n pa due : Nat) :
    ((s.lineDue c n pa due).core c).lines = (s.core c).lines := by
  simp [State.lineDue]

/-- A line that is due later is waited for as before, with its frame and its time. -/
theorem State.lineWait_lineDue {s : State} {c : CoreId} {n : Nat} {w : LineWait} (h : (s.core c).lineWait n = some w)
    (pa due : Nat) : ((s.lineDue c n pa due).core c).lineWait n = some { w with frame := some pa, due := due } := by
  have hn := Core.lineWait_seat h
  have hp : ((fun y : LineWait => y.seat == n) ∘ fun y => if y.seat = n then { y with frame := some pa, due := due } else y) =
      fun y => y.seat == n := by
    funext y
    by_cases hy : y.seat = n <;> simp [hy]
  have hw : (s.core c).lineWaits.find? (fun y => y.seat == n) = some w := h
  simp only [State.lineDue, State.core_setCore, Core.lineWait, List.find?_map, hp, hw, Option.map_some, hn, if_true]

/-- One that waits for a line goes on when the line arrives. -/
def Core.wakeFor (line : Nat) (k : Core) (w : LineWait) : Core :=
  if w.line = line && (k.seat w.seat).st == .stalled then k.setSeat w.seat { k.seat w.seat with st := .running } else k

/-- An arrival wakes all that wait for the line, caches it, and ends their waits. -/
theorem State.lineArrives_eq (s : State) (c : CoreId) (line : Nat) (bs : List Byte) :
    s.lineArrives c line bs =
      let k := (s.core c).lineWaits.foldl (Core.wakeFor line) (s.core c)
      s.setCore c { k with lines := assocSet k.lines line bs, lineWaits := k.lineWaits.filter (·.line != line) } := rfl

theorem Core.seat_setSeat_or (k : Core) (m n : Nat) (x : Seat) :
    (k.setSeat m x).seat n = x ∨ (k.setSeat m x).seat n = k.seat n := by
  rcases m with _ | _ | _ | m <;> rcases n with _ | _ | _ | n <;> simp [Core.setSeat, Core.seat]

/-- Waking leaves a seat's state as it is, or makes it run. -/
theorem Core.st_wakeFor (line : Nat) (k : Core) (w : LineWait) (n : Nat) :
    ((k.wakeFor line w).seat n).st = .running ∨ ((k.wakeFor line w).seat n).st = (k.seat n).st := by
  unfold Core.wakeFor
  split
  · rcases k.seat_setSeat_or w.seat n { k.seat w.seat with st := .running } with h | h
    · exact .inl (by rw [h])
    · exact .inr (by rw [h])
  · exact .inr rfl

/-- The seat that waits for the line runs once it is woken. -/
theorem Core.st_wakeFor_self (k : Core) (w : LineWait) (h : (k.seat w.seat).st = .stalled ∨ (k.seat w.seat).st = .running) :
    ((k.wakeFor w.line w).seat w.seat).st = .running := by
  rcases h with h | h <;> simp [Core.wakeFor, h]

theorem Core.running_foldl_wakeFor (line n : Nat) (l : List LineWait) (k : Core) (h : (k.seat n).st = .running) :
    ((l.foldl (Core.wakeFor line) k).seat n).st = .running := by
  induction l generalizing k with
  | nil => exact h
  | cons w r ih => exact ih _ ((k.st_wakeFor line w n).elim id (·.trans h))

/-- Whoever waits for the line and is stalled runs when all have been woken. -/
theorem Core.woken_foldl_wakeFor (w : LineWait) (l : List LineWait) (k : Core) (hw : w ∈ l)
    (h : (k.seat w.seat).st = .stalled ∨ (k.seat w.seat).st = .running) :
    ((l.foldl (Core.wakeFor w.line) k).seat w.seat).st = .running := by
  induction l generalizing k with
  | nil => cases hw
  | cons y r ih =>
    rcases List.mem_cons.1 hw with rfl | hr
    · exact Core.running_foldl_wakeFor _ _ r _ (k.st_wakeFor_self w h)
    · refine ih _ hr ?_
      rcases k.st_wakeFor w.line y w.seat with g | g
      · exact .inr g
      · rwa [g]

theorem State.lines_lineArrives (s : State) (c : CoreId) (line : Nat) (bs : List Byte) :
    assocGet ((s.lineArrives c line bs).core c).lines line = some bs := by
  simp [State.lineArrives_eq]

theorem State.lineWaits_lineArrives (s : State) (c : CoreId) (line : Nat) (bs : List Byte) :
    ∀ y ∈ ((s.lineArrives c line bs).core c).lineWaits, y.line ≠ line := by
  simp [State.lineArrives_eq]

theorem State.running_lineArrives {s : State} {c : CoreId} {w : LineWait} (bs : List Byte) (hw : w ∈ (s.core c).lineWaits)
    (h : (s.seat c w.seat).st = .stalled) : ((s.lineArrives c w.line bs).seat c w.seat).st = .running := by
  rw [State.lineArrives_eq]
  unfold State.seat
  rw [State.core_setCore]
  exact Core.woken_foldl_wakeFor w _ _ hw (.inl h)

/-- A line that has been translated is due after the time of HBM, and longer where its function is sealed (R10, R482). -/
theorem State.lineOutcome_frame {s t : State} {c : CoreId} {n : Nat} {w : LineWait} (h : CachesOnly s t)
    (hw : (s.core c).lineWait n = some w) (pa : Nat) :
    t.lineOutcome c w (.frame pa) = t.lineDue c n pa (s.cycle + 1400 + s.cipherLag (s.vfOf (s.codeCtx c n))) := by
  obtain rfl := Core.lineWait_seat hw
  simp only [State.lineOutcome, h.cycle, h.cipherLag, h.vfOf, h.codeCtx]

/-- A line fetch that has a translation at once. -/
theorem execLineFetch_translated {s u : State} {c k pa : Nat} {w : LineWait} (hw : (s.core c).lineWait k = some w)
    (hf : w.frame = none) (hno : ∀ y ∈ s.walks, y.purpose ≠ .line c k)
    (ht : s.translate c (s.codeCtx c k) w.line 3 = (u, .frame pa)) :
    execLineFetch c k s = .next (u.lineDue c k pa (s.cycle + 1400 + s.cipherLag (s.vfOf (s.codeCtx c k)))) := by
  have hu : CachesOnly s u := by simpa [ht] using CachesOnly.translate s c (s.codeCtx c k) w.line 3
  have hany : s.walks.any (fun y => y.purpose == .line c k) = false := by simpa using hno
  rw [← State.lineOutcome_frame hu hw pa]
  simp [execLineFetch, hw, hf, hany, ht]

/-- A line fetch whose time has come reads the line. -/
theorem execLineFetch_due {s : State} {c k pa : Nat} {w : LineWait} (hw : (s.core c).lineWait k = some w)
    (hf : w.frame = some pa) (hd : w.due ≤ s.cycle) : execLineFetch c k s = .next (s.readLine c w pa) := by
  simp [execLineFetch, hw, hf, Nat.not_lt.2 hd]

/-! ### Packets of a block queue -/

theorem State.packetAt_eq_some {s : State} {c e key : Nat} {y : BqEntry} {q : Packet} :
    s.packetAt c e key = some (y, q) ↔
      (s.core c).bq.find? (·.id == e) = some y ∧ y.packets.find? (·.key == key) = some q := by
  constructor
  · intro h
    obtain ⟨y', hy, q', hq, he⟩ : ∃ y', (s.core c).bq.find? (·.id == e) = some y' ∧
        ∃ q', y'.packets.find? (·.key == key) = some q' ∧ (y', q') = (y, q) := by
      simpa [State.packetAt, Option.bind_eq_some_iff] using h
    cases he
    exact ⟨hy, hq⟩
  · rintro ⟨hy, hq⟩
    simp [State.packetAt, hy, hq]

/-- The packet that has been replaced stands under its numbers. -/
theorem State.packetAt_setPacket {s : State} {c e key : Nat} {y : BqEntry} {q p : Packet}
    (h : s.packetAt c e key = some (y, q)) (hp : p.key = key) :
    (s.setPacket c e p).packetAt c e key = some (y.setPacket p, p) := by
  obtain ⟨hy, hq⟩ := State.packetAt_eq_some.1 h
  obtain rfl : y.id = e := by simpa using List.find?_some hy
  subst hp
  have hset : s.setPacket c y.id p = s.setCore c ((s.core c).setEntry (y.setPacket p)) := by simp [State.setPacket, hy]
  rw [hset, State.packetAt_eq_some, State.core_setCore]
  exact ⟨find?_mapFirst _ _ _ _ hy (by simp [BqEntry.setPacket]), find?_mapFirst _ _ _ _ hq (by simp)⟩

theorem State.packetAt_key {s : State} {c e key : Nat} {y : BqEntry} {q : Packet} (h : s.packetAt c e key = some (y, q)) :
    q.key = key := by
  simpa using List.find?_some (State.packetAt_eq_some.1 h).2

/-! ### Walks -/

theorem exec_translationWalk (w : Nat) (s : State) : exec (.translationWalk w) s = execTranslationWalk w s := rfl

/-- The frame reaches a packet's walk: the packet goes on, a read after the time of HBM (R10, R424). -/
theorem State.packetWalked_frame {s : State} {d e key : Nat} {y : BqEntry} {q : Packet} (x : Walk) (pa : Nat)
    (h : s.packetAt d e key = some (y, q)) (hq : q.code = none) :
    ∃ y' q', (s.packetWalked d e key x (.frame pa)).packetAt d e key = some (y', q') ∧
      q'.frame = some (pa / 4096 * 4096) ∧ q'.waiting = false ∧
      (x.access ≠ 1 → q'.due = max q.due (s.cycle + 1400 + s.cipherLag x.vf)) := by
  have hkey := State.packetAt_key h
  obtain ⟨due, ht, hdue⟩ : ∃ due, s.packetWalked d e key x (.frame pa) =
        s.setPacket d e { q with frame := some (pa / 4096 * 4096), waiting := false, due := due } ∧
      (x.access ≠ 1 → due = max q.due (s.cycle + 1400 + s.cipherLag x.vf)) := by
    by_cases ha : x.access = 1
    · exact ⟨q.due, by simp [State.packetWalked, h, State.packetOutcome, Packet.translated, ha, hq], fun hn => absurd ha hn⟩
    · exact ⟨max q.due (s.cycle + 1400 + s.cipherLag x.vf),
        by simp [State.packetWalked, h, State.packetOutcome, Packet.translated, ha, hq], fun _ => rfl⟩
  rw [ht]
  exact ⟨_, _, State.packetAt_setPacket h hkey, rfl, rfl, hdue⟩

/-- The frame reaches a line's walk: its read starts (R10, R426). -/
theorem State.walkFor_line {s u : State} {x : Walk} {stop : WalkEnd} {d n pa : Nat} {z : LineWait} (hu : CachesOnly s u)
    (ho : stop.outcome x.ctx (s.vfOf x.ctx) x.va x.access = .frame pa) (hp : x.purpose = .line d n)
    (hz : (s.core d).lineWait n = some z) (hva : z.line = x.va) (hf : z.frame = none) :
    u.walkFor stop x = (u.takeLeaf x.core x.ctx x.va stop).lineDue d n pa
      (s.cycle + 1400 + s.cipherLag (s.vfOf (s.codeCtx d n))) := by
  have ht : CachesOnly s (u.takeLeaf x.core x.ctx x.va stop) := hu.trans (CachesOnly.takeLeaf u _ _ _ stop)
  rw [← State.lineOutcome_frame ht hz pa]
  simp only [State.walkFor, hu.vfOf, ho, hp, ht.lineWait, hz, hva, hf, Option.isNone_none, decide_true, Bool.and_self, if_true]

/-- The frame reaches a packet's walk, through the caches that the walk fills. -/
theorem State.walkFor_packet {s u : State} {x : Walk} {stop : WalkEnd} {d e key pa : Nat} (hu : CachesOnly s u)
    (ho : stop.outcome x.ctx (s.vfOf x.ctx) x.va x.access = .frame pa) (hp : x.purpose = .packet d e key) :
    u.walkFor stop x = (u.takeLeaf x.core x.ctx x.va stop).packetWalked d e key x (.frame pa) := by
  simp only [State.walkFor, hu.vfOf, ho, hp]

/-- Of the walks, those that end with x are x alone where no other is for its page at its die. -/
theorem filter_walk_alone {l : List Walk} {x : Walk} {p : Walk → Bool} (hx : x ∈ l) (hn : l.Nodup) (hpx : p x = true)
    (ho : ∀ y ∈ l, y ≠ x → p y = false) :
    l.filter p = [x] ∧ l.filter (fun y => !p y) = l.filter (· != x) := by
  have hp : ∀ y ∈ l, p y = (y == x) := fun y hy => by
    by_cases e : y = x
    · rw [e, hpx, beq_self_eq_true]
    · rw [ho y hy e, beq_false_of_ne e]
  constructor
  · rw [List.filter_congr hp, List.filter_beq, hn.count, if_pos hx]
    rfl
  · exact List.filter_congr fun y hy => by rw [hp y hy]; rfl

/-- A walk that is no one else's ends for its asker alone, with the end of its own walk. -/
theorem execTranslationWalk_alone {s u : State} {w : Nat} {x : Walk} {stop : WalkEnd}
    (hx : s.walks.find? (·.id == w) = some x) (hh : x.held = false) (hr : x.readyAt ≤ s.cycle) (ha : s.walkAway x = false)
    (hl : s.walkLag x.core x.ctx x.va = 0)
    (ho : ∀ y ∈ s.walks, y ≠ x → y.held = true ∨ y.ctx ≠ x.ctx ∨ y.va / 4096 ≠ x.va / 4096 ∨ coreDie y.core ≠ coreDie x.core)
    (hn : s.walks.Nodup)
    (he : ({ s with walks := s.walks.filter (· != x) } : State).endWalk x.core x.ctx x.va = (u, stop)) :
    execTranslationWalk w s = .next (u.walkFor stop x) := by
  have hmine := filter_walk_alone (p := fun y => !y.held && y.ctx == x.ctx && y.va / 4096 == x.va / 4096 &&
    coreDie y.core == coreDie x.core && y.readyAt ≤ s.cycle && !s.walkAway y) (List.mem_of_find?_eq_some hx) hn
    (by simp [hh, hr, ha]) (fun y hy hne => by rcases ho y hy hne with h | h | h | h <;> simp [h])
  obtain ⟨hone, hrest⟩ := hmine
  simp only [execTranslationWalk, hx, Option.bind_eq_bind, Option.bind_some, hh, ha, Nat.not_lt.2 hr, decide_false, Bool.or_self,
    Bool.false_eq_true, if_false, hl, ne_eq, not_true_eq_false, hone, hrest, he, List.foldl_cons, List.foldl_nil, event_some]

/-! ### Rafters rounds -/

theorem exec_raftersResult (r : Nat) (s : State) : exec (.raftersResult r) s = execRaftersResult r s := rfl

@[simp] theorem State.rounds_foldl_landRound (r : Round) (l : List CoreId) (s : State) :
    (l.foldl (fun s c => s.landRound r c) s).rounds = s.rounds := by
  induction l generalizing s with
  | nil => rfl
  | cons c l ih => exact ih _

/-- A round's result stands in a core's extraction words, which are full. -/
def Core.holdsResult (k : Core) (r : Round) : Prop :=
  ∀ n, n < r.width → k.store.word (0xA1000 + 8 * n) = r.word n ∧ k.isFull (0xA1000 + 8 * n) = true

theorem State.holdsResult_landRound (s : State) (r : Round) (c : CoreId) (h : (s.core c).store.wf = true) :
    ((s.landRound r c).core c).holdsResult r := by
  intro n hn
  have hlen : n < ((List.range r.width).map r.word).length := by simpa using hn
  rw [State.landRound, State.core_setCore]
  constructor
  · have hw := Mem.word_write_words (s.core c).store 0xA1000 ((List.range r.width).map r.word) n h hlen
    rwa [List.getElem_map, List.getElem_range] at hw
  · exact (Core.isFull_fillWords _ _ _ _).2 (.inr ⟨0xA1000 / 8 + n, by omega, by omega, by omega⟩)

theorem State.core_landRound_ne (s : State) (r : Round) (c d : CoreId) (h : c ≠ d) : (s.landRound r c).core d = s.core d :=
  State.core_setCore_ne _ _ _ _ h

theorem State.wf_landRound (s : State) (r : Round) (c d : CoreId) (h : ∀ c, (s.core c).store.wf = true) :
    ((s.landRound r c).core d).store.wf = true := by
  by_cases e : c = d
  · subst e
    rw [State.landRound, State.core_setCore]
    exact Mem.wf_write _ _ _ (h c)
  · rw [State.core_landRound_ne s r c d e]
    exact h d

/-- After a result has landed at a list of cores, each of them holds it. -/
theorem State.holdsResult_foldl_landRound (r : Round) (m : CoreId) (l : List CoreId) (s : State)
    (hs : ∀ c, (s.core c).store.wf = true) (hm : m ∈ l ∨ (s.core m).holdsResult r) :
    ((l.foldl (fun s c => s.landRound r c) s).core m).holdsResult r := by
  induction l generalizing s with
  | nil => exact hm.resolve_left List.not_mem_nil
  | cons c l ih =>
    refine ih (s.landRound r c) (fun d => State.wf_landRound s r c d hs) ?_
    by_cases e : c = m
    · subst e
      exact .inr (State.holdsResult_landRound s r c (hs c))
    · rw [State.core_landRound_ne s r c m e]
      exact hm.imp_left fun h => (List.mem_cons.1 h).resolve_left fun g => e g.symm

/-- Every core has a canonical store where the stores of the state are canonical. -/
theorem State.store_wf {s : State} (h : ∀ p ∈ s.cores, p.2.store.wf = true) (c : CoreId) : (s.core c).store.wf = true := by
  unfold State.core
  generalize s.cores = l at h
  induction l with
  | nil => exact Core.init_store_wf c
  | cons p r ih =>
    rw [lookupCore]
    split
    · exact h p List.mem_cons_self
    · exact ih fun q hq => h q (List.mem_cons_of_mem p hq)

/-- The rounds after a result: the round is gone, or waits for the members that take no deliveries. -/
def State.roundsAfter (s : State) (r : Nat) (rest : List CoreId) : List Round :=
  if rest = [] then s.rounds.filter (·.id != r)
  else mapFirst (·.id == r) (fun (y : Round) => { y with members := rest }) s.rounds

/-- A result that is due lands at the members that take deliveries. -/
theorem execRaftersResult_due {s : State} {r d : Nat} {x : Round} (hx : s.rounds.find? (·.id == r) = some x)
    (hd : x.dueAt = some d) (hle : d ≤ s.cycle) (hm : ∃ m ∈ x.members, (s.core m).open' = true) :
    execRaftersResult r s = .next
      { (x.members.filter (fun c => (s.core c).open')).foldl (fun s c => s.landRound x c) s with
        rounds := s.roundsAfter r (x.members.filter (fun c => !(s.core c).open')) } := by
  have hnow : (x.members.filter (fun c => (s.core c).open') == []) = false := by
    obtain ⟨m, hmem, ho⟩ := hm
    simpa using ⟨m, hmem, ho⟩
  simp only [execRaftersResult, hx, hd, Option.bind_eq_bind, Option.bind_some, Nat.not_lt.2 hle, decide_false, hnow, Bool.or_self,
    Bool.false_eq_true, if_false, State.rounds_foldl_landRound, event_some, State.roundsAfter]

/-! ### Horizon reductions -/

theorem exec_horizonReduction (lid : Nat) (s : State) : exec (.horizonReduction lid) s = execHorizonReduction lid s := rfl

theorem exec_horizonResult (lid : Nat) (s : State) : exec (.horizonResult lid) s = execHorizonResult lid s := rfl

/-- A launch that is changed and keeps its id is found as changed. -/
theorem State.launch_modLaunch {s : State} {lid : Nat} {l : Launch} (h : s.launch lid = some l) (f : Launch → Launch)
    (hf : (f l).lid = l.lid) : (s.modLaunch lid f).launch lid = some (f l) := by
  have hl : l.lid = lid := by simpa using List.find?_some h
  exact find?_mapFirst _ f _ l h (by simp [hf, hl])

/-! ### O36, clause by clause -/

theorem lineFetch_translated_waits {s u : State} {c k pa : Nat} {w : LineWait} (hw : (s.core c).lineWait k = some w)
    (hf : w.frame = none) (hno : ∀ y ∈ s.walks, y.purpose ≠ .line c k)
    (ht : s.translate c (s.codeCtx c k) w.line 3 = (u, .frame pa)) :
    ∃ t, exec (.lineFetch c k) s = .next t ∧ (t.core c).lines = (s.core c).lines ∧
      ∃ z, (t.core c).lineWait k = some z ∧ z.head = w.head ∧ z.frame = some pa ∧
        z.due = s.cycle + 1400 + s.cipherLag (s.vfOf (s.codeCtx c k)) := by
  have hu : CachesOnly s u := by simpa [ht] using CachesOnly.translate s c (s.codeCtx c k) w.line 3
  rw [exec_lineFetch, execLineFetch_translated hw hf hno ht]
  exact ⟨_, rfl, (State.lines_lineDue _ _ _ _ _).trans (hu.lines c), _,
    State.lineWait_lineDue ((hu.lineWait c k).trans hw) _ _, rfl, rfl, rfl⟩

theorem lineFetch_mended_waits {s : State} {c k pa : Nat} {w : LineWait} (hw : (s.core c).lineWait k = some w)
    (hf : w.frame = some pa) (hd : w.due ≤ s.cycle) (hm : s.mendLag [lineOf pa] ≠ 0) :
    ∃ t, exec (.lineFetch c k) s = .next t ∧ (t.core c).lines = (s.core c).lines ∧
      ∃ z, (t.core c).lineWait k = some z ∧ z.head = w.head ∧ z.frame = some pa ∧ z.due = s.cycle + s.mendLag [lineOf pa] := by
  obtain rfl := Core.lineWait_seat hw
  have hcore := (DeviceOnly.dramRead s (s.vfOf (s.codeCtx c w.seat)) pa 64).core c
  rw [exec_lineFetch, execLineFetch_due hw hf hd, State.readLine, if_pos hm]
  exact ⟨_, rfl, (State.lines_lineDue _ _ _ _ _).trans (by rw [hcore]), _,
    State.lineWait_lineDue (by rw [hcore]; exact hw) _ _, rfl, rfl, rfl⟩

theorem lineFetch_arrives {s v : State} {c k pa : Nat} {w : LineWait} {r : Option (List Byte × Bool)}
    (hw : (s.core c).lineWait k = some w) (hf : w.frame = some pa) (hd : w.due ≤ s.cycle) (hm : s.mendLag [lineOf pa] = 0)
    (hread : s.dramRead (s.vfOf (s.codeCtx c k)) pa 64 = (v, r)) :
    ∃ t, exec (.lineFetch c k) s = .next t ∧
      assocGet (t.core c).lines w.line = some (r.elim [] Prod.fst) ∧
      (∀ y ∈ (t.core c).lineWaits, y.line ≠ w.line) ∧
      (k < 4 → (s.seat c k).st = .stalled → (t.seat c k).st = .running) := by
  obtain rfl := Core.lineWait_seat hw
  have hcore : v.core c = s.core c := by
    simpa [hread] using (DeviceOnly.dramRead s (s.vfOf (s.codeCtx c w.seat)) pa 64).core c
  have hmem : w ∈ (v.core c).lineWaits := by
    rw [hcore]
    exact List.mem_of_find?_eq_some hw
  have hst (h : (s.seat c w.seat).st = .stalled) : (v.seat c w.seat).st = .stalled := by rwa [State.seat, hcore]
  have ht : s.readLine c w pa = v.lineArrives c w.line (r.elim [] Prod.fst) := by
    rw [State.readLine, if_neg (not_not_intro hm), hread]
    cases r <;> rfl
  rw [exec_lineFetch, execLineFetch_due hw hf hd, ht]
  exact ⟨_, rfl, State.lines_lineArrives _ _ _ _, State.lineWaits_lineArrives _ _ _ _,
    fun _ h => State.running_lineArrives _ hmem (hst h)⟩

theorem raftersResult_lands {s : State} {r d : Nat} {x : Round} (hx : s.rounds.find? (·.id == r) = some x)
    (hd : x.dueAt = some d) (hle : d ≤ s.cycle) (hm : ∃ m ∈ x.members, (s.core m).open' = true)
    (hwf : ∀ p ∈ s.cores, p.2.store.wf = true) :
    ∃ t, exec (.raftersResult r) s = .next t ∧
      (x.members.filter (fun m => !(s.core m).open') = [] → t.rounds = s.rounds.filter (·.id != r)) ∧
      (x.members.filter (fun m => !(s.core m).open') ≠ [] →
        t.rounds.find? (·.id == r) = some { x with members := x.members.filter (fun m => !(s.core m).open') }) ∧
      ∀ m ∈ x.members, (s.core m).open' = true → (t.core m).holdsResult x := by
  rw [exec_raftersResult, execRaftersResult_due hx hd hle hm]
  refine ⟨_, rfl, fun h => if_pos h, fun h => ?_, fun m hmem ho => ?_⟩
  · have hid : (x.id == r) = true := by simpa using List.find?_some hx
    rw [State.roundsAfter, if_neg h]
    exact find?_mapFirst _ _ _ x hx hid
  · exact State.holdsResult_foldl_landRound x m _ s (State.store_wf hwf) (.inl (List.mem_filter.2 ⟨hmem, ho⟩))

theorem horizonReduction_begins {s : State} {lid : Nat} {l : Launch} (h : s.launch lid = some l) (hd : l.horizonAt ≤ s.cycle) :
    ∃ t m, exec (.horizonReduction lid) s = .next t ∧ t.launch lid = some m ∧ m.horizonAt = l.horizonAt + 256 ∧
      m.reductions = (if s.launchSaved l then l.reductions
        else l.reductions ++ [{ key := s.leastUnfinished lid, startedAt := s.cycle, dueAt := s.cycle + 640 }]) := by
  rw [exec_horizonReduction]
  simp only [execHorizonReduction, h, Option.bind_eq_bind, Option.bind_some, Nat.not_lt.2 hd, if_false, event_some]
  exact ⟨_, _, rfl, State.launch_modLaunch h _ rfl, rfl, rfl⟩

theorem horizonResult_stands {s : State} {lid : Nat} {l : Launch} {r : Reduction} {rest : List Reduction}
    (h : s.launch lid = some l) (hr : l.reductions = r :: rest) (hd : r.dueAt ≤ s.cycle) :
    ∃ t m, exec (.horizonResult lid) s = .next t ∧ t.launch lid = some m ∧ m.reductions = rest ∧
      m.horizon = (if s.launchSaved l then l.horizon else some r.key) := by
  rw [exec_horizonResult]
  simp only [execHorizonResult, h, hr, Option.bind_eq_bind, Option.bind_some, List.head?_cons, Nat.not_lt.2 hd, if_false]
  cases hs : s.launchSaved l with
  | true => exact ⟨_, _, rfl, State.launch_modLaunch h _ rfl, by simp [hr], rfl⟩
  | false => exact ⟨_, _, rfl, State.launch_modLaunch h _ rfl, by simp [hr], rfl⟩

/-- Settles O36: each event, once its condition holds, is the one update that its clause describes; what a translation, a walk or a
read of device memory changes beside it reaches no line, no packet and no seat. -/
theorem translationsRoundsAndHorizons : Obligations.TranslationsRoundsAndHorizons := by
  unfold Obligations.TranslationsRoundsAndHorizons
  intro c k s
  refine ⟨fun w hw => ⟨?translated, ?read⟩, ?walk, ?round, fun lid l hl => ⟨?reduction, ?horizon⟩⟩
  case translated =>
    intro u pa hf hno ht
    exact lineFetch_translated_waits hw hf hno ht
  case read =>
    intro pa hf hd
    refine ⟨lineFetch_mended_waits hw hf hd, fun hm v r hread => ?_⟩
    rcases r with _ | ⟨bs, late⟩ <;> exact lineFetch_arrives hw hf hd hm hread
  case walk =>
    intro w x u stop pa hx hh hr ha hl ho hn he hout
    have hu : CachesOnly s u := by
      simpa [he] using (CachesOnly.setWalks s (s.walks.filter (· != x))).trans (CachesOnly.endWalk _ x.core x.ctx x.va)
    have ht := hu.trans (CachesOnly.takeLeaf u x.core x.ctx x.va stop)
    rw [exec_translationWalk, execTranslationWalk_alone hx hh hr ha hl ho hn he]
    constructor
    · intro d e key y q hp hq hcode
      rw [State.walkFor_packet hu hout hp, ← ht.cycle, ← ht.cipherLag]
      obtain ⟨y', q', hat⟩ := State.packetWalked_frame x pa ((ht.packetAt d e key).trans hq) hcode
      exact ⟨_, y', q', rfl, hat⟩
    · intro d n z hp hz hva hf
      rw [State.walkFor_line hu hout hp hz hva hf]
      exact ⟨_, _, rfl, State.lineWait_lineDue ((ht.lineWait d n).trans hz) _ _, rfl, rfl⟩
  case round =>
    intro r x d hx hd hle hm _ hwf
    exact raftersResult_lands hx hd hle hm hwf.2.1
  case reduction => exact horizonReduction_begins hl
  case horizon =>
    intro r rest hr hd
    exact horizonResult_stands hl hr hd

end Sys2Proof.Machine
end

section
/-!
# Proofs: heads and the decoder, immediate results, and what comes before an instruction issues
-/
namespace Sys2Proof

/-! ### The parts of a head -/

/-- Every bit of a register or literal, read from bit 0 of its number, is that register or literal. -/
@[simp] theorem fld_toNat {w : Nat} (x : BitVec w) : fld x.toNat 0 w = x := by
  simp [fld]

theorem part_headOf_register (sw : Bool) (tl maj : Nat) {a : Nat} (ha : a < 64) : part (headOf sw tl maj a) 0 6 = a := by
  unfold part headOf
  omega

theorem part_headOf_major (sw : Bool) (tl : Nat) {maj a : Nat} (hmaj : maj < 128) (ha : a < 64) :
    part (headOf sw tl maj a) 6 7 = maj := by
  unfold part headOf
  omega

section
variable (sw : Bool) {tl maj a : Nat} (htl : tl < 4) (hmaj : maj < 128) (ha : a < 64)
include htl hmaj ha

theorem part_headOf_tail : part (headOf sw tl maj a) 13 2 = tl := by
  unfold part headOf
  omega

theorem flag_headOf : flag (headOf sw tl maj a) 15 = sw := by
  have h : headOf sw tl maj a / 2 ^ 15 % 2 = sw.toNat := by
    have := sw.toNat_lt
    unfold headOf
    omega
  rw [flag, h]
  cases sw <;> rfl

/-! ### Decoding the words of a head -/

/-- The majors 0x20 to 0x2F are read by group 2 (R91). -/
theorem decodeRaw_headOf_group2 (hg : maj / 16 = 2) (t : Nat) :
    decodeRaw (headOf sw tl maj a) t = decodeGroup2 sw maj tl a t := by
  simp only [decodeRaw, flag_headOf sw htl hmaj ha, part_headOf_tail sw htl hmaj ha, part_headOf_major sw tl hmaj ha,
    part_headOf_register sw tl maj ha, hg]

/-- A tail length that the major does not accept is the error of R87 step 2. -/
theorem decode_headOf_tailLength (hg : maj / 16 = 2) (hacc : tailAccepted maj tl = false) (t : Nat) :
    decode (headOf sw tl maj a) t = .error .tailLength := by
  have hres : ¬(maj = 0x0F ∨ maj = 0x6F ∨ (maj = 0 ∧ a ≠ 1)) := by omega
  simp only [decode, part_headOf_tail sw htl hmaj ha, part_headOf_major sw tl hmaj ha, part_headOf_register sw tl maj ha,
    if_neg hres, if_pos hacc]

/-- A well-formed instruction that group 2 reads from a tail of an accepted length is what the words decode to. -/
theorem decode_headOf_group2 (hg : maj / 16 = 2) (hacc : tailAccepted maj tl = true) {t : Nat} {i : Instr}
    (hi : decodeGroup2 sw maj tl a t = some i) (hwf : i.wf = true) : decode (headOf sw tl maj a) t = .ok i := by
  have hres : ¬(maj = 0x0F ∨ maj = 0x6F ∨ (maj = 0 ∧ a ≠ 1)) := by omega
  have hraw := (decodeRaw_headOf_group2 sw htl hmaj ha hg t).trans hi
  simp [decode, part_headOf_tail sw htl hmaj ha, part_headOf_major sw tl hmaj ha, part_headOf_register sw tl maj ha,
    if_neg hres, hacc, hraw, hwf]

end

end Sys2Proof

namespace Sys2Proof.Machine
open Sys2Proof.Spec

/-! ### Immediate results -/

theorem Seat.put_x (t : Seat) (d : BitVec 6) (v : Word) : t.put (.x d) (v.setWidth 1024) = Spec.put t d v := by
  simp only [Seat.put, Spec.put, Regs.write, Regs.read]
  congr 1
  simp

/-- An immediate result is written as the instruction completes (R32). -/
theorem immediate_eq_writes (sw : Bool) (d : BitVec 6) (v : Word) (s : State) : immediate sw d v s = writes s sw d v := by
  rw [immediate, settle_ok, State.putX, State.me_setMe, State.setMe_setMe, Seat.put_x]
  rfl

/-! ### Before an instruction issues -/

/-- A register named by an instruction and awaited from outside the chunk stalls the seat in place (R37). -/
theorem gate_stall {t : Seat} {i : Instr} (w : Words) (hheld : (xNames i).any t.pendingHeld = false)
    (hpend : (xNames i).any t.pending = true) : gate t w i = .stall := by
  simp only [gate, hheld, hpend, if_true, Bool.false_eq_true, if_false]

theorem State.marked_regs (s : State) : s.marked.me.regs = s.me.regs := by
  rw [State.marked, State.me_setMe]
  rfl

/-- A seat whose turn it is takes exception 0x01 at words that spell no instruction, with the head as the argument (R87). -/
theorem issueSeat_of_decode_error {s : State} {w : Words} {e : DecodeError} (hw : fetchAt s.here s.me.regs.pc = .words w)
    (he : decode w.head w.tail = .error e) (hissue : canIssue s.here s.me s.cycle = true)
    (hslot : s.here.slotFor s.cycle s.curSeat = true) (hconf : s.me.conflict = false)
    (hbudget : s.me.overBudget s.cycle = false) (hcount : s.me.count ≠ 512) :
    issueSeat s = .next (s.marked.issued.fault s.curCore s.curSeat 0x01 (BitVec.ofNat 64 w.head) s.me.regs.pc) := by
  have htrap : issueSeat s = settle false s.marked (.error (.trap 0x01 (BitVec.ofNat 64 w.head))) := by
    simp [issueSeat, hissue, hslot, hconf, hbudget, hcount, hw, he]
  rw [htrap, settle_trap, State.marked_regs]
  rfl

/-! ### O49: the literals -/

/-- LIH's value as a number: the literal counts 2^32, the low half of the old value counts 1 (R119). -/
theorem append_setWidth_eq_ofNat (i : BitVec 32) (x : Word) :
    i ++ x.setWidth 32 = BitVec.ofNat 64 (i.toNat * 2 ^ 32 + x.toNat % 2 ^ 32) := by
  have hlow : x.toNat % 2 ^ 32 < 2 ^ 32 := Nat.mod_lt _ (by decide)
  have hval : i.toNat * 2 ^ 32 + x.toNat % 2 ^ 32 < 2 ^ 64 := by
    have := i.isLt
    omega
  apply BitVec.eq_of_toNat_eq
  rw [BitVec.toNat_append, BitVec.toNat_setWidth, ← Nat.shiftLeft_add_eq_or_of_lt hlow, Nat.shiftLeft_eq, BitVec.toNat_ofNat,
    Nat.mod_eq_of_lt hval]

/-- LIH accepts a tail of two halfwords and no other. -/
theorem tailAccepted_lih {tl : Nat} (h : tl ≠ 2) : tailAccepted 0x21 tl = false := by
  simpa [tailAccepted] using h

theorem decode_li16 (sw : Bool) (d : BitVec 6) (i : BitVec 16) : decode (headOf sw 1 0x20 d.toNat) i.toNat = .ok (.li16 sw d i) :=
  decode_headOf_group2 sw (by decide) (by decide) d.isLt rfl rfl (by simp [decodeGroup2]) rfl

theorem decode_li32 (sw : Bool) (d : BitVec 6) (i : BitVec 32) : decode (headOf sw 2 0x20 d.toNat) i.toNat = .ok (.li32 sw d i) :=
  decode_headOf_group2 sw (by decide) (by decide) d.isLt rfl rfl (by simp [decodeGroup2]) rfl

theorem decode_li64 (sw : Bool) (d : BitVec 6) (i : BitVec 64) : decode (headOf sw 3 0x20 d.toNat) i.toNat = .ok (.li64 sw d i) :=
  decode_headOf_group2 sw (by decide) (by decide) d.isLt rfl rfl (by simp [decodeGroup2]) rfl

theorem decode_lih (sw : Bool) (d : BitVec 6) (i : BitVec 32) : decode (headOf sw 2 0x21 d.toNat) i.toNat = .ok (.lih sw d i) :=
  decode_headOf_group2 sw (by decide) (by decide) d.isLt rfl rfl (by simp [decodeGroup2]) rfl

/-- A head of LI with no tail spells no instruction (R119). -/
theorem decode_li_no_tail (sw : Bool) (d : BitVec 6) (t : Nat) :
    decode (headOf sw 0 0x20 d.toNat) t = .error .tailLength :=
  decode_headOf_tailLength sw (by decide) (by decide) d.isLt rfl rfl t

/-- LIH names its destination, which it reads like a source (R119). -/
theorem xNames_lih (sw : Bool) (d : BitVec 6) (i : BitVec 32) : xNames (.lih sw d i) = [d] := rfl

theorem exec_lih (sw : Bool) (d : BitVec 6) (i : BitVec 32) (s : State) :
    exec (.lih sw d i) s = writes s sw d (BitVec.ofNat 64 (i.toNat * 2 ^ 32 + (s.x d).toNat % 2 ^ 32)) := by
  have harm : exec (.lih sw d i) s = immediate sw d (i ++ (s.x d).setWidth 32) s := rfl
  rw [harm, append_setWidth_eq_ofNat, immediate_eq_writes]

/-- Settles O49: a literal is an immediate result, a head's parts read back from its number, and the words of LI with no tail are
those of an instruction that does not decode. -/
theorem literalsAreWritten : Obligations.LiteralsAreWritten := by
  unfold Obligations.LiteralsAreWritten
  intro sw d i16 i32 i64 s t
  refine ⟨?li16, ?li32, ?li64, exec_lih sw d i32 s, decode_li16 sw d i16, decode_li32 sw d i32, decode_li64 sw d i64,
    decode_lih sw d i32, decode_li_no_tail sw d t, ?tails, ?stall, ?illegal⟩
  case li16 => exact immediate_eq_writes sw d (i16.signExtend 64) s
  case li32 => exact immediate_eq_writes sw d (i32.signExtend 64) s
  case li64 =>
    rw [BitVec.signExtend_eq]
    exact immediate_eq_writes sw d i64 s
  case tails =>
    intro tl htl hne
    exact decode_headOf_tailLength sw htl (by decide) d.isLt rfl (tailAccepted_lih hne) t
  case stall =>
    intro w hheld hpend
    exact gate_stall w (by simp [xNames_lih, hheld]) (by simp [xNames_lih, hpend])
  case illegal =>
    intro w hw hhead hissue hslot hconf hbudget hcount
    have he : decode w.head w.tail = .error .tailLength := by
      rw [hhead]
      exact decode_li_no_tail sw d w.tail
    exact issueSeat_of_decode_error hw he hissue hslot hconf hbudget hcount

end Sys2Proof.Machine
end
